-- ==== Sys2Proof/Word.lean ====
section
/-! DEFINITION. The number types of the controller: bytes of a frame, 16-bit counters that wrap
(00_scope.md, Units and ranges), and station numbers. -/

namespace Sys2Proof

/-- One byte of a frame on the station bus. -/
abbrev Byte := BitVec 8

/-- A counter stated as 16-bit: line numbers, word serials, the paper offset and the paper count. -/
abbrev Word := BitVec 16

/-- A station number, 0 to 7 (R11). -/
abbrev StationNo := Fin 8

/-- All eight station numbers, in increasing order. -/
def stationNumbers : List StationNo := [0, 1, 2, 3, 4, 5, 6, 7]

/-- The signed difference `a - b` of two 16-bit counters, in -32768 to 32767 (R104, R105, R134). -/
def signedDiff (a b : Word) : Int := (a - b).toInt

/-- A 16-bit counter moved by a signed distance, modulo 65536 (R84, R121). -/
def Word.move (a : Word) (d : Int) : Word := a + BitVec.ofInt 16 d

end Sys2Proof
end

