-- ==== Sys2Proof/Syntax.lean ====
section
/-! DEFINITION. The commands of the controller, one constructor per row of opcode_table.json, and
the types of their operands. -/

namespace Sys2Proof

/-- What an answer slot carries (R5). `absent` is a slot in which nothing is driven. -/
inductive AnswerCode where
  | taken | busy | refused | absent
deriving DecidableEq, Repr

/-- The ribbon cartridge sensed by RIBBON KIND (R56). `out` is the manual's NONE. -/
inductive RibbonKind where
  | fabric | film | out
deriving DecidableEq, Repr

/-- One of the two text source roles (R33). -/
inductive SourceNo where
  | source1 | source2
deriving DecidableEq, Repr

/-- The payload of a TEXT frame (R5). -/
structure TextBlock where
  job : Nat
  seq : Nat
  first : Bool
  last : Bool
  codes : List Nat
deriving DecidableEq, Repr

/-- Which parts of the mechanism had not settled when a limit expired (R131). A part that is not
named here and belongs to the work (hammer, ribbon or tape lift, wheel code) is the remaining one. -/
structure Unsettled where
  carriage : Bool
  wheel : Bool
  paper : Bool
deriving DecidableEq, Repr

/-- The strap lines sampled at a start (R202): STN0 to STN2, and PLATEN high for 1800 steps. -/
structure Straps where
  station : StationNo
  wide : Bool
deriving DecidableEq, Repr

/-- The commands. The docstring of each names the row's rule. -/
inductive Instr where
  /-- FRAME_SEND_START (R2): the idle round has come to this position with the line quiet. -/
  | frameSendStart (position : Nat)
  /-- FRAME_SENT (R3): the frame on the line has been sent to its end; for a non-broadcast frame
  `outcome` is what its answer slot carried. -/
  | frameSent (outcome : AnswerCode)
  /-- SEND_MISMATCH (R3): a quiet bit driven, a driven line seen. -/
  | sendMismatch
  /-- FRAME_CHECK_FAILED (R6): the bytes received before the frame ended. -/
  | frameCheckFailed (bytes : List Byte)
  /-- KEY (R25): an accepted KEY frame to the controller. -/
  | key (sender : StationNo) (code : Nat) (repeatFlag : Nat)
  /-- TEXT (R34): an accepted TEXT frame to the controller. -/
  | text (sender : StationNo) (block : TextBlock)
  /-- ANSWER (R171): an accepted ANSWER frame to the controller. -/
  | answer (sender : StationNo) (tag : Nat) (verdict : Nat)
  /-- ROLL (R17): an accepted broadcast ROLL with its station kind and abilities bytes. -/
  | roll (sender : StationNo) (kind : Nat) (first : Nat) (second : Nat)
  /-- REFUSED_FRAME (R8): the bytes of an accepted non-broadcast frame that breaks a condition. -/
  | refusedFrame (bytes : List Byte)
  /-- DISCARDED_BROADCAST (R10): the bytes of a broadcast frame that is no well-formed ROLL. -/
  | discardedBroadcast (bytes : List Byte)
  /-- QUERY_LEFT_TO_DICTIONARY (R7): the bytes of a QUERY to another station. -/
  | queryLeftToDictionary (bytes : List Byte)
  /-- ROLL_WINDOW_CLOSE (R15): the 500 ms of the roll window have run out. -/
  | rollWindowClose
  /-- ANSWER_EXPIRY (R169): the 250 ms of the slot of this tag have run out. -/
  | answerExpiry (tag : Fin 4)
  /-- RETURN (R100) at the head of the key queue. -/
  | returnKey
  /-- TAB (R67). -/
  | tab
  /-- BACKSPACE (R92). -/
  | backspace
  /-- CURSOR RIGHT (R92). -/
  | cursorRight
  /-- LINE UP (R105). -/
  | lineUp
  /-- LINE DOWN (R106). -/
  | lineDown
  /-- RELOCATE (R107). -/
  | relocate
  /-- HALF SPACE (R64). -/
  | halfSpace
  /-- CORRECT (R140). -/
  | correct
  /-- WORD CORRECT (R141). -/
  | wordCorrect
  /-- SPELL CORRECT (R142). -/
  | spellCorrect
  /-- MARGIN RELEASE (R68). -/
  | marginRelease
  /-- SET LEFT MARGIN (R80). -/
  | setLeftMargin
  /-- SET RIGHT MARGIN (R81). -/
  | setRightMargin
  /-- SET TAB (R78). -/
  | setTab
  /-- CLEAR TAB (R79). -/
  | clearTab
  /-- CLEAR ALL TABS (R79). -/
  | clearAllTabs
  /-- HOLD (R93). -/
  | hold
  /-- JUSTIFY (R76). -/
  | justify
  /-- BOLD (R116). -/
  | bold
  /-- UNDERLINE (R116). -/
  | underline
  /-- IMPRESSION (R124). -/
  | impression
  /-- LINE SPACING (R82). -/
  | lineSpacing
  /-- SPELL (R177). -/
  | spell
  /-- ADD WORD (R163). -/
  | addWord
  /-- STORE SETTINGS (R197). -/
  | storeSettings
  /-- PAPER UP (R84). -/
  | paperUp
  /-- PAPER DOWN (R84). -/
  | paperDown
  /-- STOP JOB (R38). -/
  | stopJob
  /-- CLEAR (R132). -/
  | clear
  /-- TONE (R192). -/
  | tone
  /-- SPACE (R64). -/
  | space
  /-- PRINTING_CHARACTER (R94): a key of code 33 to 159. -/
  | printingCharacter
  /-- TEXT_CHARACTER (R43): the next code of the held block, a character, a SPACE or a skipped one. -/
  | textCharacter
  /-- TEXT_RETURN (R43). -/
  | textReturn
  /-- TEXT_TAB (R43). -/
  | textTab
  /-- TEXT_HALF_SPACE (R43). -/
  | textHalfSpace
  /-- TEXT_BOLD (R43). -/
  | textBold
  /-- TEXT_UNDERLINE (R43). -/
  | textUnderline
  /-- JOB_IDLE_EXPIRY (R36): the 30 s of this source have run out. -/
  | jobIdleExpiry (source : SourceNo)
  /-- JOB_CLOSE (R35): an ENDING job's commit no longer waits. -/
  | jobClose
  /-- KEYBOARD_LAPSE (R40). -/
  | keyboardLapse
  /-- STRIKE_COMPLETE (R119). -/
  | strikeComplete
  /-- LIFT_COMPLETE (R152). -/
  | liftComplete
  /-- MOVE_COMPLETE (R121). -/
  | moveComplete
  /-- FEED_COMPLETE (R121). -/
  | feedComplete
  /-- HOMING_COMPLETE (R125), with the number on the WHEEL CODE lines. -/
  | homingComplete (code : Fin 8)
  /-- WHEEL_READ_COMPLETE (R46), with the number on the WHEEL CODE lines. -/
  | wheelReadComplete (code : Fin 8)
  /-- ACTION_LIMIT_EXPIRY (R130), with the parts not settled. -/
  | actionLimitExpiry (parts : Unsettled)
  /-- COVER_OPEN (R126). -/
  | coverOpen
  /-- COVER_CLOSE (R126). -/
  | coverClose
  /-- RIBBON_KIND_CHANGE (R56): the input now reports this kind. -/
  | ribbonKindChange (kind : RibbonKind)
  /-- TAPE_NEW (R137). -/
  | tapeNew
  /-- MESSAGE_TIME_EXPIRY (R187). -/
  | messageTimeExpiry
  /-- BLINK (R180). -/
  | blink
  /-- TONE_PATTERN_END (R190). -/
  | tonePatternEnd
  /-- STORE_WRITE_COMPLETE (R196). -/
  | storeWriteComplete
  /-- SUPPLY_WARNING (R198). -/
  | supplyWarning
  /-- SUPPLY_RECOVERY (R199). -/
  | supplyRecovery
  /-- SUPPLY_RESET (R199). -/
  | supplyReset
  /-- RESET_ASSERTED (R202). -/
  | resetAsserted
  /-- COLD_START (R202), with the straps it samples. -/
  | coldStart (straps : Straps)
  /-- LINE_START (R202), with the straps it samples. -/
  | lineStart (straps : Straps)
  /-- STANDBY_IDLE_EXPIRY (R200). -/
  | standbyIdleExpiry
deriving DecidableEq, Repr

end Sys2Proof
end

