-- ==== Sys2Proof/Decode.lean ====
section
/-! DEFINITION. The command that a word of the opcode table spells. No row of opcode_table.json has
bits: the commands are events of the bus, the mechanism, the supply and the store, and keys at the head
of a queue. The frames that carry some of them are read in Machine/Frames.lean. -/

namespace Sys2Proof

/-- The command a table word spells: none, since the table gives no row any bits. -/
def decodeTableWord (_nbits _w : Nat) : Option Instr := none

end Sys2Proof
end

