-- ==== Sys2Proof/Config.lean ====
section
/-! DEFINITION. What a part fixes and what the manual leaves open: the capacities the manual
states, and the free values (constants with no body) for the values it does not state. -/

namespace Sys2Proof.Config

/-- Places of the key queue (R24). -/
def keyCapacity : Nat := 32
/-- Places of the print queue (R113). -/
def printCapacity : Nat := 48
/-- Entries of a line record, live and LIFTING together (R89). -/
def entryCapacity : Nat := 160
/-- Committed lines the ring holds (R103). -/
def ringCapacity : Nat := 3
/-- Items of the pending list (R164). -/
def pendingCapacity : Nat := 8
/-- Forms of the user word list (R161). -/
def userCapacity : Nat := 48
/-- Tab stops (R77). -/
def tabCapacity : Nat := 16
/-- Lifts of a fresh tape cartridge (R137). -/
def newTapeCount : Nat := 900
/-- Distance of the bell zone before the right margin (R65). -/
def bellZone : Nat := 60
/-- Least distance of the margins (R62). -/
def marginGap : Nat := 120
/-- Most underscores of one entry (R115). -/
def maxStrikes : Nat := 180

/-- FREE VALUE. Which of the three underscore widths (8, 10 or 12, R87) an entry gets when its first
action is enqueued while no wheel is mounted: R115 takes the mounted family's and R54 answers
"no wheel". A function of the line number and the entry id. DESIGN CHOICE, log 7. -/
opaque noWheelUnderscore : Word → Nat → Fin 3

/-- FREE VALUE. The 16-bit check value of a store block as a function of its contents (R194): the
manual gives no algorithm. The contents are handed over as a list of numbers. DESIGN CHOICE, log 6. -/
opaque blockCheck : List Nat → Word

/-- FREE VALUE. The position of a LIFT whose sub-index lies beyond the strikes that R115 builds from the
entry as it stands (R145): an underlined tab that was struck over a longer advance than it has now. A
function of the line number, the entry id and the sub-index. DESIGN CHOICE, log 47. -/
opaque lostUnderscore : Word → Nat → Nat → Nat

end Sys2Proof.Config
end

