-- ==== Sys2Proof/Machine/State.lean ====
section
/-! DEFINITION. The state of the controller, unit by unit (00_scope.md, Block overview), as plain
data; the ways a step can stop; and the machine right after a start. -/

namespace Sys2Proof.Machine

/-! ### Bus Interface (Chapter 1) -/

/-- The kinds of station a record can hold (R11). -/
inductive StationKind where
  | keyboard | controller | dictionary | source
deriving DecidableEq, Repr

/-- The status of a station record (R11). -/
inductive StationStatus where
  | absent | adopted | ignored | late | lost
deriving DecidableEq, Repr

/-- The roles of R11. -/
inductive Role where
  | keyboard | primary | secondary | source1 | source2
deriving DecidableEq, Repr

/-- One record of the station table (R11); its number is its place in the table. -/
structure Station where
  kind : Option StationKind
  ability1 : Nat
  ability2 : Nat
  status : StationStatus
  role : Option Role
  unanswered : Nat
deriving DecidableEq, Repr

/-- The record of a station not heard (R11). -/
def Station.unheard : Station := ⟨none, 0, 0, .absent, none, 0⟩

/-- The controller's own record (R11). -/
def Station.own : Station := ⟨some .controller, 2, 0, .adopted, none, 0⟩

/-- The machine states reported on the bus (R5, R118, R198). -/
inductive MachineState where
  | starting | ready | paused | waitingWheel | halted | powerWarn | standby
deriving DecidableEq, Repr

/-- The owner of a line (R39, R86). -/
inductive Owner where
  | none | keyboard | source1 | source2
deriving DecidableEq, Repr

/-- The part that had not settled at a halt (R131). -/
inductive HaltCause where
  | carriage | wheel | hammer | feed
deriving DecidableEq, Repr

/-- The cause of a start (R202). -/
inductive StartCause where
  | cold | line
deriving DecidableEq, Repr

/-- A REPORT as built by R23. `tapeTold` records that it, or one it replaced, was triggered by a
change of the tape count. -/
structure Report where
  state : MachineState
  owner : Owner
  halt : Option HaltCause
  tape : Option Nat
  start : Option StartCause
  stopped1 : Option Nat
  stopped2 : Option Nat
  tapeTold : Bool
deriving DecidableEq, Repr

/-- What triggered a REPORT, as far as R23 asks. -/
structure ReportCause where
  tape : Bool
  stopped1 : Option Nat
  stopped2 : Option Nat
deriving DecidableEq, Repr

/-- The frames the controller sends (R4, R5). -/
inductive OutFrame where
  /-- the controller's own ROLL -/
  | roll
  /-- pairs of a station number and a role code -/
  | summary (pairs : List (StationNo × Nat))
  /-- a QUERY to a dictionary -/
  | query (dest : StationNo) (tag : Fin 4) (letters : List Nat)
  /-- a REPORT -/
  | report (r : Report)
deriving DecidableEq, Repr

/-- The roll window (R12, R14). -/
inductive RollWindow where
  | notOpen | opened | closed | abandoned
deriving DecidableEq, Repr

/-- What the Bus Interface holds (R11, R14, R21, R22). -/
structure Bus where
  own : StationNo
  table : Vector Station 8
  language : Option Nat
  queue : List OutFrame
  /-- the place in `queue` of the frame now on the line -/
  sending : Option Nat
  /-- the REPORT triggers held while a REPORT is on the line (R22) -/
  heldReport : Option ReportCause
  window : RollWindow
  conflict : Bool
  /-- what the controller drove in the answer slot of the frame last received -/
  answer : AnswerCode
deriving DecidableEq, Repr

/-! ### Intake (Chapter 2) -/

/-- A keystroke record of the key queue (R24). -/
structure Keystroke where
  code : Nat
  isRepeat : Bool
deriving DecidableEq, Repr

/-- A block in a held-block slot, with the index of its next character (R33). -/
structure HeldBlock where
  block : TextBlock
  next : Nat
deriving DecidableEq, Repr

/-- The state of a job with its id and the sequence last taken (R33). -/
inductive JobState where
  | idle
  | opened (id last : Nat)
  | ending (id last : Nat)
deriving DecidableEq, Repr

/-- The held-block slot and the job record of one source role (R33). -/
structure SourceIntake where
  slot : Option HeldBlock
  job : JobState
  bold : Bool
  underline : Bool
  /-- job id and last sequence of the job closed last -/
  closedJob : Option (Nat × Nat)
  /-- 0 means none -/
  stoppedJob : Nat
  idleRunning : Bool
deriving DecidableEq, Repr

/-- What Intake holds (R24, R33, R39). -/
structure Intake where
  keys : List Keystroke
  src1 : SourceIntake
  src2 : SourceIntake
  owner : Owner
deriving DecidableEq, Repr

/-! ### Wheel Unit (Chapter 3) -/

/-- The six built-in wheel families (R48). Family 0, no usable wheel, is `none` of `Option Family`. -/
inductive Family where
  | f1 | f2 | f3 | f4 | f5 | f6
deriving DecidableEq, Repr

/-- What the Wheel Unit holds (R45). -/
structure WheelUnit where
  mounted : Option Family
  ribbon : RibbonKind
deriving DecidableEq, Repr

/-! ### Escapement Unit (Chapter 4) -/

/-- What the Escapement Unit holds (R60). -/
structure Escapement where
  platen : Nat
  left : Nat
  right : Nat
  tabs : List Nat
  marginRelease : Bool
  justify : Bool
  spacing : Nat
  paperOffset : Word
  bellRung : Bool
deriving DecidableEq, Repr

/-! ### Line Store (Chapter 5) -/

/-- The kind of an entry with the fields that belong to one kind only (R87). The flag of a tab says
that it was made in a line composed in direct mode, whose tabs are never recomputed (R73). -/
inductive EntryKind where
  | char (code : Nat) (family : Family) (bold : Bool)
  | space
  | tab (direct : Bool)
  | halfSpace
  | gap
deriving DecidableEq, Repr

/-- The strike state of an entry with strikes (R87, R90). -/
inductive StrikeState where
  | held | queued | struck | lifting
deriving DecidableEq, Repr

/-- An entry record (R87). A plain entry has no strike state. -/
structure Entry where
  id : Nat
  kind : EntryKind
  start : Nat
  advance : Nat
  underline : Bool
  strike : Option StrikeState
  total : Nat
  done : Nat
  underscore : Option Nat
  serial : Option Word
deriving DecidableEq, Repr

/-- The case pattern of a word (R160). -/
inductive Capital where
  | lower | capital | upper
deriving DecidableEq, Repr

/-- The state of a word record (R109). -/
inductive WordState where
  | opened | pending | asking | accepted | flagged | skipped | uncheckable
deriving DecidableEq, Repr

/-- A word record (R109). -/
structure WordRec where
  serial : Word
  firstId : Nat
  length : Nat
  letters : Nat
  capital : Option Capital
  state : WordState
  tag : Option (Fin 4)
deriving DecidableEq, Repr

/-- The composition mode of a line (R93). -/
inductive Mode where
  | direct | hold
deriving DecidableEq, Repr

/-- The state of a line record (R86). -/
inductive LineState where
  | opened | committed | reopened
deriving DecidableEq, Repr

/-- A line record (R86). -/
structure Line where
  number : Word
  owner : Owner
  start : Nat
  offset : Word
  mode : Mode
  state : LineState
  entries : List Entry
  words : List WordRec
  nextId : Nat
deriving DecidableEq, Repr

/-- Where the feeding mark stands (R102): at an action of an entry, or at the final FEED. -/
inductive MarkPlace where
  | action (entry sub : Nat)
  | finalFeed
deriving DecidableEq, Repr

/-- The feeding mark (R85, R101, R102). `final` is the distance and the carriage target of the
committed line's final FEED; it is absent while the mark runs in a line not committed (R95). -/
structure FeedMark where
  line : Word
  place : MarkPlace
  final : Option (Int × Nat)
deriving DecidableEq, Repr

/-- What the Line Store holds (R85). The ring stands oldest first. -/
structure LineStore where
  current : Line
  ring : List Line
  viewDepth : Nat
  cursor : Nat
  hold : Bool
  mark : Option FeedMark
  nextLine : Word
  serialCounter : Word
deriving DecidableEq, Repr

/-! ### Print Sequencer (Chapter 6) -/

/-- The fields that STRIKE and LIFT share (R112). -/
structure Blow where
  line : Word
  entry : Nat
  sub : Nat
  code : Nat
  position : Nat
  boldSecond : Bool
  underscore : Bool
deriving DecidableEq, Repr

/-- An action record (R112). -/
inductive Action where
  | strike (b : Blow)
  | lift (b : Blow) (family : Family)
  | move (position : Nat)
  | feed (distance : Int) (target : Nat)
deriving DecidableEq, Repr

/-- The mechanism states (R111). -/
inductive MechState where
  | parked | homing | idle | running | paused | waitingWheel | halted
deriving DecidableEq, Repr

/-- Why a homing runs (R125). -/
inductive HomingWhy where
  | start | wake | recovery | clear
deriving DecidableEq, Repr

/-- A turn of the wheel (R122). -/
structure Turn where
  forward : Bool
  petals : Nat
deriving DecidableEq, Repr

/-- What is worked out when a STRIKE or LIFT starts: the petal, the turn to it, and the hammer
pulse in units of 0.01 ms (R119, R122, R123). -/
structure Drive where
  petal : Nat
  turn : Turn
  pulse : Nat
deriving DecidableEq, Repr

/-- The work the mechanism is doing (R117, R125). -/
inductive Work where
  /-- the action at the head of the print queue; a MOVE or FEED has no drive -/
  | action (drive : Option Drive)
  | homing (why : HomingWhy)
  | wheelRead
deriving DecidableEq, Repr

/-- What the Print Sequencer holds (R111). -/
structure Sequencer where
  queue : List Action
  mech : MechState
  work : Option Work
  /-- the head action has started and has neither completed nor been discarded (R113, R130) -/
  headStarted : Bool
  carriage : Nat
  petal : Nat
  paperCount : Word
  readDue : Bool
  retry : Bool
  haltCause : Option HaltCause
  hold : Bool
  impression : Nat
  bold : Bool
  underline : Bool
deriving DecidableEq, Repr

/-! ### Correction Unit (Chapter 7) -/

/-- A lift record (R135). -/
structure LiftRec where
  line : Word
  entry : Nat
  outstanding : Nat
deriving DecidableEq, Repr

/-- What the Correction Unit holds (R135). -/
structure Correction where
  tape : Nat
  reserved : Nat
  lifts : List LiftRec
  newTape : Bool
deriving DecidableEq, Repr

/-! ### Spelling Unit (Chapter 8) -/

/-- A dictionary role (R166). -/
inductive DictRole where
  | primary | secondary
deriving DecidableEq, Repr

/-- A pending item (R157). -/
structure PendingItem where
  line : Word
  serial : Word
  already : Option DictRole
deriving DecidableEq, Repr

/-- The phase of a query (R166). The answer expiry runs exactly in phase WAITING, but for CONFLICT,
which stops it (R178). -/
inductive Phase where
  | sending | waiting
deriving DecidableEq, Repr

/-- The fields of a slot that is ASKING or DISCARDED (R166). -/
structure Query where
  line : Word
  serial : Word
  station : StationNo
  stage : DictRole
  already : Option DictRole
  phase : Phase
  expiryRunning : Bool
deriving DecidableEq, Repr

/-- A query slot (R166). -/
inductive Slot where
  | free
  | asking (q : Query)
  | discarded (q : Query)
deriving DecidableEq, Repr

/-- What the Spelling Unit holds (R157), and which dictionary roles were held at the end of the roll
call (R176). -/
structure Spelling where
  isOn : Bool
  userWords : List (List Nat)
  pending : List PendingItem
  slots : Vector Slot 4
  hadPrimary : Bool
  hadSecondary : Bool
deriving DecidableEq, Repr

/-! ### Display Unit and Alert Unit (Chapter 9) -/

/-- The panel (R179). -/
inductive Panel where
  | blank | on | off
deriving DecidableEq, Repr

/-- The transient messages named in Chapters 3 to 9 (R187). -/
inductive Message where
  | noWheel | notOnWheel | lineFull | noTabStop | noRoom | tabOutOfRange | tabAlreadySet
  | tabsFull | noTabHere | marginTooNarrow | lineNotEmpty | lineStart | lineEnd | relocateFirst
  | noLineAbove | noLineBelow | nothingToCorrect | cannotReopen | noFlaggedWord | wheelMismatch
  | tapeEmpty | tooManyLifts | listFull | toneOff | toneOn
deriving DecidableEq, Repr

/-- What the wheel message names (R188). -/
inductive WheelNeed where
  | code (code : Nat)
  | family (family : Family)
  | noWheel
deriving DecidableEq, Repr

/-- The cause of a pause that the panel shows (R127, R188). -/
inductive PauseCause where
  | cover | ribbon
deriving DecidableEq, Repr

/-- The five standing conditions (R188). -/
structure Standing where
  conflict : Bool
  halt : Option HaltCause
  wheel : Option WheelNeed
  pause : Option PauseCause
  noKeyboard : Bool
deriving DecidableEq, Repr

/-- What the Display Unit holds (R179). -/
structure Display where
  panel : Panel
  window : Nat
  lit : Bool
  transient : Option Message
  standing : Standing
deriving DecidableEq, Repr

/-- The four alerts (R190). -/
inductive Alert where
  | bell | spell | refuse | fault
deriving DecidableEq, Repr

/-- What the Alert Unit holds (R190). -/
structure AlertUnit where
  current : Option Alert
  silence : Bool
deriving DecidableEq, Repr

/-! ### Store Unit, Supply and Standby (Chapter 10) -/

/-- The three blocks of the store (R194). -/
inductive Block where
  | settings | tape | userList
deriving DecidableEq, Repr

/-- The contents of the settings block (R194). -/
structure Settings where
  left : Nat
  right : Nat
  tabs : List Nat
  spacing : Nat
  impression : Nat
  hold : Bool
  justify : Bool
  spelling : Bool
  silence : Bool
deriving DecidableEq, Repr

/-- A block as the store holds it: its validity mark, its check value and its contents (R194). -/
structure StoredBlock (α : Type) where
  valid : Bool
  check : Word
  contents : α
deriving DecidableEq, Repr

/-- What the Store Unit holds (R194), the store itself, and a write that the store finishes across a
RESET together with the load that waits for it (R202). -/
structure StoreUnit where
  dirtySettings : Bool
  dirtyTape : Bool
  dirtyUser : Bool
  inFlight : Option Block
  settings : StoredBlock Settings
  tape : StoredBlock Nat
  userList : StoredBlock (List (List Nat))
  finishing : Option Block
  loadWaits : Bool
deriving DecidableEq, Repr

/-- The power states (R198). -/
inductive Power where
  | starting | run | powerWarn | standby
deriving DecidableEq, Repr

/-- What Supply and Standby holds (R198), and the two inputs that stop the controller (R199, R202). -/
structure Supply where
  power : Power
  prior : Power
  wakeMark : Bool
  rollCallDone : Bool
  homingDone : Bool
  startCause : StartCause
  /-- the supply is below the reset level -/
  low : Bool
  /-- the RESET line is held -/
  resetHeld : Bool
deriving DecidableEq, Repr

/-- The input pins that keep a level between events (00_scope.md, Signal summary), and `freshTape`: a
tape cartridge was exchanged under the open cover while TAPE NEW was not watched (R137; log 41). -/
structure Pins where
  coverOpen : Bool
  ribbon : RibbonKind
  freshTape : Bool
deriving DecidableEq, Repr

/-! ### The machine -/

/-- The whole state: the twelve units, the input pins, and the queue of waiting commands. -/
structure State where
  bus : Bus
  intake : Intake
  wheel : WheelUnit
  esc : Escapement
  lines : LineStore
  seq : Sequencer
  corr : Correction
  spell : Spelling
  disp : Display
  alert : AlertUnit
  store : StoreUnit
  supply : Supply
  pins : Pins
  pending : List Instr
deriving DecidableEq, Repr

/-- Why the machine would stop with a fault: never. The manual names no behaviour of a command that
it leaves undefined as a whole; halts, refusals of keys and CONFLICT are states, which the model takes
(log 2). So this type has no constructor and no meaning answers a fault: safe. -/
inductive Fault where
deriving DecidableEq, Repr

/-- Why a command would have no meaning. -/
inductive Refusal where
  /-- Raised by `exec` alone, for a row with no meaning yet: safe. No arm raises it now. -/
  | notModelled (mnemonic : String)
deriving DecidableEq, Repr

/-- An empty source record (R33). R33 gives no value of the job attributes after a start: both are off
(DESIGN CHOICE, log 53). -/
def SourceIntake.empty : SourceIntake := ⟨none, .idle, false, false, none, 0, false⟩

/-- The settings block's defaults for a platen width (R195). -/
def Settings.default (platen : Nat) : Settings :=
  ⟨120, platen - 120, [], 2, 2, false, false, true, false⟩

/-- The station table after a start: nobody heard but the controller itself (R11). -/
def freshTable (own : StationNo) : Vector Station 8 :=
  (Vector.replicate 8 Station.unheard).set own Station.own

/-- The first REPORT after a start of this cause with tape count 0 (R23). -/
def firstReport (cause : StartCause) : Report :=
  ⟨.starting, .none, none, some 0, some cause, none, none, false⟩

/-- The machine right after a start: a COLD start with straps 2 and 1560 steps and a store none of
whose blocks is valid (logs 3, 4, 5). The roll call and the homing have begun (R202 step 4). -/
def State.reset : State where
  bus := {
    own := 2, table := freshTable 2, language := none,
    queue := [.roll, .report (firstReport .cold)], sending := none, heldReport := none,
    window := .notOpen, conflict := false, answer := .absent }
  intake := { keys := [], src1 := .empty, src2 := .empty, owner := .none }
  wheel := { mounted := none, ribbon := .fabric }
  esc := {
    platen := 1560, left := 120, right := 1440, tabs := [], marginRelease := false,
    justify := false, spacing := 2, paperOffset := 0, bellRung := false }
  lines := {
    current := {
      number := 0, owner := .none, start := 120, offset := 0, mode := .direct, state := .opened,
      entries := [], words := [], nextId := 0 }
    ring := [], viewDepth := 0, cursor := 0, hold := false, mark := none, nextLine := 1,
    serialCounter := 0 }
  seq := {
    queue := [], mech := .homing, work := some (.homing .start), headStarted := false,
    carriage := 0, petal := 0, paperCount := 0, readDue := false, retry := false,
    haltCause := none, hold := false, impression := 2, bold := false, underline := false }
  corr := { tape := 0, reserved := 0, lifts := [], newTape := false }
  spell := {
    isOn := true, userWords := [], pending := [], slots := Vector.replicate 4 .free,
    hadPrimary := false, hadSecondary := false }
  disp := {
    panel := .blank, window := 0, lit := true, transient := none,
    standing := ⟨false, none, none, none, false⟩ }
  alert := { current := none, silence := false }
  store := {
    dirtySettings := false, dirtyTape := false, dirtyUser := false, inFlight := none,
    settings := ⟨false, 0, Settings.default 1560⟩, tape := ⟨false, 0, 0⟩,
    userList := ⟨false, 0, []⟩, finishing := none, loadWaits := false }
  supply := {
    power := .starting, prior := .starting, wakeMark := false, rollCallDone := false,
    homingDone := false, startCause := .cold, low := false, resetHeld := false }
  pins := { coverOpen := false, ribbon := .fabric, freshTape := false }
  pending := []

end Sys2Proof.Machine
end

