-- ==== Sys2Proof/Machine/Wheel.lean ====
section
/-! DEFINITION. The Wheel Unit's tables and answers (Chapter 3): families, charsets, petals, widths,
impact classes, letters and folding. -/

namespace Sys2Proof.Machine

/-- The family of a number 1 to 6, none for any other number (R46). -/
def Family.ofNumber : Nat → Option Family
  | 1 => some .f1
  | 2 => some .f2
  | 3 => some .f3
  | 4 => some .f4
  | 5 => some .f5
  | 6 => some .f6
  | _ => none

/-- The number of a family (R48). -/
def Family.number : Family → Nat
  | .f1 => 1
  | .f2 => 2
  | .f3 => 3
  | .f4 => 4
  | .f5 => 5
  | .f6 => 6

/-- Whether the family is a charset-2 family (R48). -/
def Family.charset2 : Family → Bool
  | .f5 => true
  | .f6 => true
  | _ => false

/-- The character width of a fixed family; none for a PS family (R48). -/
def Family.fixedWidth : Family → Option Nat
  | .f1 => some 12
  | .f2 => some 10
  | .f3 => some 8
  | .f4 => none
  | .f5 => some 10
  | .f6 => none

/-- The SPACE width of a family (R48). -/
def Family.spaceWidth : Family → Nat
  | .f1 => 12
  | .f2 => 10
  | .f3 => 8
  | .f4 => 8
  | .f5 => 10
  | .f6 => 8

/-- The HALF SPACE width of a family, half its SPACE width (R48). -/
def Family.halfSpaceWidth : Family → Nat
  | .f1 => 6
  | .f2 => 5
  | .f3 => 4
  | .f4 => 4
  | .f5 => 5
  | .f6 => 4

/-- The underscore width uw of a family (R48). -/
def Family.underscoreWidth : Family → Nat
  | .f1 => 12
  | .f2 => 10
  | .f3 => 8
  | .f4 => 10
  | .f5 => 10
  | .f6 => 10

/-- The charset-1 petal map, petal 0 first (R51). -/
def petalMap : List Nat :=
  [101, 116, 97, 111, 105, 110, 115, 114] ++
  [104, 108, 100, 99, 117, 109, 102, 112] ++
  [103, 119, 121, 98, 118, 107, 120, 106] ++
  [113, 122, 46, 44, 39, 45, 59, 58] ++
  [69, 84, 65, 79, 73, 78, 83, 82] ++
  [72, 76, 68, 67, 85, 77, 70, 80] ++
  [71, 87, 89, 66, 86, 75, 88, 74] ++
  [81, 90, 33, 63, 34, 40, 41, 47] ++
  [48, 49, 50, 51, 52, 53, 54, 55] ++
  [56, 57, 43, 61, 60, 62, 42, 38] ++
  [37, 36, 35, 64, 95, 91, 93, 92] ++
  [123, 125, 124, 126, 94, 96, 128, 129]

/-- The charset-1 code whose petal a national letter takes on a charset-2 wheel (R50). -/
def replacedCode : Nat → Option Nat
  | 130 => some 35
  | 131 => some 64
  | 132 => some 91
  | 133 => some 92
  | 134 => some 93
  | 135 => some 96
  | 136 => some 123
  | 137 => some 124
  | 138 => some 125
  | 139 => some 126
  | _ => none

/-- The ten codes that charset 2 gives up (R50). -/
def givenUp : List Nat := [35, 64, 91, 92, 93, 96, 123, 124, 125, 126]

/-- The codes of charset 1 (R49). -/
def inCharset1 (code : Nat) : Bool :=
  (33 ≤ code && code ≤ 126) || code == 128 || code == 129

/-- The codes of charset 2 (R50). -/
def inCharset2 (code : Nat) : Bool :=
  (130 ≤ code && code ≤ 139) || (inCharset1 code && !givenUp.contains code)

/-- Whether a code stands on a wheel of the family (R49, R50, R54). -/
def Family.carries (f : Family) (code : Nat) : Bool :=
  if f.charset2 then inCharset2 code else inCharset1 code

/-- The petal of a code on a wheel of the family (R51, R54). -/
def Family.petal (f : Family) (code : Nat) : Option Nat :=
  if f.carries code then
    petalMap.idxOf? (if f.charset2 then (replacedCode code).getD code else code)
  else none

/-- The codes of the width classes W1, W2, W3 and W5; every other code of a wheel is in W4 (R52). -/
def widthW1 : List Nat := [33, 39, 44, 46, 58, 59, 105, 106, 108, 124]
/-- Width class W2 (R52). -/
def widthW2 : List Nat := [40, 41, 45, 47, 73, 91, 93, 96, 102, 114, 116, 128, 129]
/-- Width class W3 (R52). -/
def widthW3 : List Nat :=
  [34, 48, 49, 50, 51, 52, 53, 54, 55, 56, 57, 63, 74, 97, 99, 101, 103, 115, 122]
/-- Width class W5 (R52). -/
def widthW5 : List Nat :=
  [37, 38, 64, 65, 66, 67, 68, 71, 72, 75, 77] ++ [78, 79, 81, 82, 85, 86, 87, 88, 89, 109, 119]

/-- The width in steps of a code by its width class (R52). -/
def classWidth (code : Nat) : Nat :=
  if widthW1.contains code then 6
  else if widthW2.contains code then 8
  else if widthW3.contains code then 10
  else if widthW5.contains code then 15
  else 12

/-- The width of a code on a wheel of the family, none if the wheel lacks it (R52, R54). -/
def Family.width (f : Family) (code : Nat) : Option Nat :=
  if f.carries code then some (f.fixedWidth.getD (classWidth code)) else none

/-- Impact class 1 (R53). -/
def impact1 : List Nat := [34, 39, 44, 45, 46, 58, 59, 94, 95, 96, 124, 126]
/-- Impact class 4 (R53). -/
def impact4 : List Nat := [37, 38, 64, 77, 87]
/-- The codes of impact class 2 that are no letters (R53). -/
def impact2Marks : List Nat := [33, 40, 41, 47, 49, 55, 63, 91, 92, 93]

/-- The impact class of a code of a built-in wheel (R53). -/
def impactClass (code : Nat) : Nat :=
  if impact1.contains code then 1
  else if impact4.contains code then 4
  else if impact2Marks.contains code || (97 ≤ code && code ≤ 122 && code != 109 && code != 119) then 2
  else 3

/-- Whether a code is an upper-case letter (R55). -/
def isUpper (code : Nat) : Bool :=
  (65 ≤ code && code ≤ 90) || code == 130 || code == 132 || code == 134 || code == 136 || code == 138

/-- Whether a code is a lower-case letter (R55). -/
def isLower (code : Nat) : Bool :=
  (97 ≤ code && code ≤ 122) || code == 131 || code == 133 || code == 135 || code == 137 || code == 139

/-- Whether a code is a letter (R55). -/
def isLetter (code : Nat) : Bool := isUpper code || isLower code

/-- The joiner (R55). -/
def apostrophe : Nat := 39

/-- The folded code of a letter or joiner (R55). -/
def fold (code : Nat) : Nat :=
  if 65 ≤ code && code ≤ 90 then code + 32 else if isUpper code then code + 1 else code

/-- Whether a code of an entry is a printing character's (R27). -/
def isCharCode (code : Nat) : Bool := 33 ≤ code && code ≤ 159

/-- What the Wheel Unit answers to the key of a code 33 to 159, or refuses it with (R57). -/
def wheelCheckChar (mounted : Option Family) (code : Nat) : Except Message (Family × Nat) :=
  match mounted with
  | none => .error .noWheel
  | some f =>
    match f.width code with
    | none => .error .notOnWheel
    | some w => .ok (f, w)

/-- The SPACE width of the mounted family, or the refusal (R57). -/
def wheelCheckSpace (mounted : Option Family) : Except Message Nat :=
  match mounted with
  | none => .error .noWheel
  | some f => .ok f.spaceWidth

/-- The HALF SPACE width of the mounted family, or the refusal (R57). -/
def wheelCheckHalf (mounted : Option Family) : Except Message Nat :=
  match mounted with
  | none => .error .noWheel
  | some f => .ok f.halfSpaceWidth

end Sys2Proof.Machine
end

