-- ==== Sys2Proof/Machine/Frames.lean ====
section
/-! DEFINITION. Frames on the station bus (Chapter 1): the check byte, the frame layout read and
written (R1, R4, R5, R6), the format conditions of the answer rules (R7, R8, R10), and the wait of a
frame on offer (R2). -/

namespace Sys2Proof.Machine

/-! ### The line and the check byte -/

/-- One step of the CRC-8 of R4, for the next bit of the frame: the polynomial is x^8 + x^2 + x + 1. -/
def crcBit (crc : Byte) (bit : Bool) : Byte :=
  let shifted := crc <<< 1
  if crc.msb != bit then shifted ^^^ 0x07 else shifted

/-- The bits of a byte, most significant first (R1, R4). -/
def bitsOf (b : Byte) : List Bool :=
  [b.getLsbD 7, b.getLsbD 6, b.getLsbD 5, b.getLsbD 4, b.getLsbD 3, b.getLsbD 2, b.getLsbD 1,
    b.getLsbD 0]

/-- The CRC-8 of R4 over some bytes, with initial value 0. -/
def crc8 (bytes : List Byte) : Byte :=
  bytes.foldl (fun crc b => (bitsOf b).foldl crcBit crc) 0

/-- The ten bit-times of a byte on the line, `true` for driven: start bit, data bits with the most
significant first, stop bit (R1). -/
def byteLevels (b : Byte) : List Bool := true :: bitsOf b ++ [false]

/-- The levels of a frame on the line, its bytes back to back (R1). -/
def frameLevels (bytes : List Byte) : List Bool := bytes.flatMap byteLevels

/-- The four bit-times of an answer slot: turnaround, two code bits, release (R5). -/
def answerLevels : AnswerCode → List Bool
  | .taken => [false, true, false, false]
  | .busy => [false, false, true, false]
  | .refused => [false, true, true, false]
  | .absent => [false, false, false, false]

/-! ### Reading a frame -/

/-- A frame as read by R5 and R6. -/
structure RxFrame where
  kind : Nat
  cls : Nat
  broadcast : Bool
  /-- a spare bit of byte 0 or byte 1 is 1 -/
  spare : Bool
  source : StationNo
  dest : StationNo
  tag : Nat
  payload : List Nat
deriving DecidableEq, Repr

/-- The frame in the received bytes, none if it fails its check (R6): a header cut short, a length
over 28, a payload or check byte cut short, or a check byte that differs from the CRC-8. -/
def readFrame : List Byte → Option RxFrame
  | b0 :: b1 :: b2 :: b3 :: rest =>
    let len := b3.toNat
    if len ≤ 28 ∧ rest.length = len + 1 ∧
        rest[len]? = some (crc8 (b0 :: b1 :: b2 :: b3 :: rest.take len)) then
      some {
        kind := b0.toNat / 16
        cls := b0.toNat / 4 % 4
        broadcast := b0.getLsbD 1
        spare := b0.getLsbD 0 || b1.getLsbD 1 || b1.getLsbD 0
        source := Fin.ofNat 8 (b1.toNat / 32)
        dest := Fin.ofNat 8 (b1.toNat / 4 % 8)
        tag := b2.toNat
        payload := (rest.take len).map BitVec.toNat }
    else none
  | _ => none

/-- The class fixed for each frame kind (R4). -/
def classOfKind : Nat → Nat
  | 1 => 0
  | 2 => 0
  | 3 => 0
  | 4 => 2
  | 5 => 1
  | 6 => 1
  | _ => 3

/-! ### The fields of the kinds the controller takes -/

/-- The fields of a KEY in range: a code 1 to 159 and a repeat flag 0 or 1 (R5, R8 condition 6;
DEDUCED for codes above 159, log 10). -/
def keyFieldsOk (code repeatFlag : Nat) : Bool := 1 ≤ code && code ≤ 159 && repeatFlag ≤ 1

/-- The fields of a TEXT in range: job id 1 to 255, sequence a byte, 1 to 16 codes (R5, R8
condition 6). -/
def textFieldsOk (b : TextBlock) : Bool :=
  1 ≤ b.job && b.job ≤ 255 && b.seq ≤ 255 && 1 ≤ b.codes.length && b.codes.length ≤ 16 &&
    b.codes.all (· ≤ 255)

/-- The fields of an ANSWER in range: tag 0 to 3, verdict 1 to 3 (R5, R8 condition 6). -/
def answerFieldsOk (tag verdict : Nat) : Bool := tag ≤ 3 && 1 ≤ verdict && verdict ≤ 3

/-- The station kind and abilities of a ROLL in range (R5, R10). A byte the table gives as 0 is out
of range when it is not 0 (DEDUCED, log 11). -/
def rollFieldsOk (kind first second : Nat) : Bool :=
  match kind with
  | 0 => first == 0 && second == 0
  | 1 => (first == 1 || first == 2) && second == 0
  | 2 => (first == 1 || first == 2) && second == 0
  | 3 => 1 ≤ first && first ≤ 15 && second ≤ 255
  | 4 => (first == 1 || first == 2) && second == 0
  | _ => false

/-- The station kind of a ROLL's code; LEAVING and codes out of range have none (R5). -/
def stationKindOf : Nat → Option StationKind
  | 1 => some .keyboard
  | 2 => some .controller
  | 3 => some .dictionary
  | 4 => some .source
  | _ => none

/-- The block in a TEXT payload, if its flags byte has bits 7 to 2 zero (R5). -/
def textBlockOf : List Nat → Option TextBlock
  | job :: seq :: flags :: codes =>
    if flags ≤ 3 then some ⟨job, seq, flags % 2 == 1, flags / 2 == 1, codes⟩ else none
  | _ => none

/-! ### Which command a received frame is -/

/-- A frame of KEY, TEXT or ANSWER that passes conditions 1 to 5 of R8, read by condition 6: the
command it is, none if a mandatory field is missing or out of range. -/
def readFields (f : RxFrame) : Option Instr :=
  if f.tag ≠ 0 then none
  else
    match f.kind with
    | 3 =>
      match f.payload with
      | [code, flag] => if keyFieldsOk code flag then some (.key f.source code flag) else none
      | _ => none
    | 4 =>
      match textBlockOf f.payload with
      | some b => if textFieldsOk b then some (.text f.source b) else none
      | none => none
    | 6 =>
      match f.payload with
      | [tag, verdict] =>
        if answerFieldsOk tag verdict then some (.answer f.source tag verdict) else none
      | _ => none
    | _ => none

/-- The answer of R7 and R8 to a non-broadcast accepted frame that is no QUERY for another station and
no ROLL from the own number (R14): the command of a frame that passes R8, none for one answered
REFUSED. -/
def readAddressed (own : StationNo) (f : RxFrame) : Option Instr :=
  if f.spare then none
  else if f.kind = 0 ∨ 8 ≤ f.kind then none
  else if f.dest ≠ own then none
  else if f.kind = 1 ∨ f.kind = 2 ∨ f.kind = 5 ∨ f.kind = 7 then none
  else if f.cls ≠ classOfKind f.kind then none
  else readFields f

/-- A ROLL whose source station is the controller's own number: R14 takes it as it passed R6, whatever
its contents and its broadcast flag. -/
def isOwnRoll (own : StationNo) (f : RxFrame) : Bool := f.kind == 1 && f.source == own

/-- The ROLL in an accepted frame that is a broadcast (R10) or comes from the controller's own number
(R14), none for a frame discarded. A ROLL from the own number is one whatever its contents; bytes it
lacks are given as 0 (log 37). -/
def readRoll (own : StationNo) (f : RxFrame) : Option Instr :=
  if f.kind ≠ 1 then none
  else if f.source = own then
    some (.roll f.source (f.payload.getD 0 0) (f.payload.getD 1 0) (f.payload.getD 2 0))
  else if f.spare || f.cls != 0 || f.tag != 0 then none
  else
    match f.payload with
    | [kind, first, second] =>
      if rollFieldsOk kind first second then some (.roll f.source kind first second) else none
    | _ => none

/-- The command that the received bytes are for the controller of this station number: R6, then R14
for a ROLL from its own number, then R7, R8 and R10. Total on any bytes. -/
def commandOfFrame (own : StationNo) (bytes : List Byte) : Instr :=
  match readFrame bytes with
  | none => .frameCheckFailed bytes
  | some f =>
    if f.broadcast || isOwnRoll own f then (readRoll own f).getD (.discardedBroadcast bytes)
    else if f.kind = 5 ∧ f.dest ≠ own then .queryLeftToDictionary bytes
    else (readAddressed own f).getD (.refusedFrame bytes)

/-! ### Writing a frame -/

/-- Header byte 0 (R5). -/
def header0 (kind cls : Nat) (broadcast : Bool) : Byte :=
  BitVec.ofNat 8 (kind * 16 + cls * 4 + if broadcast then 2 else 0)

/-- Header byte 1 (R5). -/
def header1 (source dest : StationNo) : Byte := BitVec.ofNat 8 (source.val * 32 + dest.val * 4)

/-- A whole frame with its check byte (R4, R5). -/
def writeFrame (kind cls : Nat) (broadcast : Bool) (source dest : StationNo) (tag : Nat)
    (payload : List Nat) : List Byte :=
  let body := header0 kind cls broadcast :: header1 source dest :: BitVec.ofNat 8 tag ::
    BitVec.ofNat 8 payload.length :: payload.map (BitVec.ofNat 8)
  body ++ [crc8 body]

/-- The payload of a TEXT block (R5). -/
def textPayload (b : TextBlock) : List Nat :=
  b.job :: b.seq :: ((if b.first then 1 else 0) + (if b.last then 2 else 0)) :: b.codes

/-- The frame of a KEY, TEXT, ANSWER or ROLL command, as its sender sends it to the controller of
this station number; none for any other command. -/
def frameOfCommand (own : StationNo) : Instr → Option (List Byte)
  | .key sender code flag => some (writeFrame 3 0 false sender own 0 [code, flag])
  | .text sender b => some (writeFrame 4 2 false sender own 0 (textPayload b))
  | .answer sender tag verdict => some (writeFrame 6 1 false sender own 0 [tag, verdict])
  | .roll sender kind first second => some (writeFrame 1 0 true sender 0 0 [kind, first, second])
  | _ => none

/-! ### The frames the controller sends -/

/-- The class of a frame the controller sends (R4). -/
def OutFrame.cls : OutFrame → Nat
  | .roll => 0
  | .summary _ => 0
  | .query _ _ _ => 1
  | .report _ => 3

/-- Whether a frame the controller sends is a broadcast (R4). -/
def OutFrame.isBroadcast : OutFrame → Bool
  | .query _ _ _ => false
  | _ => true

/-- Whether a queued frame is a REPORT. -/
def OutFrame.isReport : OutFrame → Bool
  | .report _ => true
  | _ => false

/-- The machine state code of a REPORT (R5). -/
def MachineState.code : MachineState → Nat
  | .starting => 1
  | .ready => 2
  | .paused => 3
  | .waitingWheel => 4
  | .halted => 5
  | .powerWarn => 6
  | .standby => 7

/-- The line owner code of a REPORT (R5). -/
def Owner.code : Owner → Nat
  | .none => 0
  | .keyboard => 1
  | .source1 => 2
  | .source2 => 3

/-- The halt cause code of a REPORT (R5). -/
def HaltCause.code : HaltCause → Nat
  | .carriage => 1
  | .wheel => 2
  | .hammer => 3
  | .feed => 4

/-- The start cause code of a REPORT (R5). -/
def StartCause.code : StartCause → Nat
  | .cold => 1
  | .line => 2

/-- The role code of a SUMMARY pair (R5). -/
def Role.code : Role → Nat
  | .keyboard => 1
  | .primary => 2
  | .secondary => 3
  | .source1 => 4
  | .source2 => 5

/-- The presence tag of a REPORT (R4, R5). -/
def Report.tag (r : Report) : Nat :=
  (if r.halt.isSome then 1 else 0) + (if r.tape.isSome then 2 else 0) +
    (if r.start.isSome then 4 else 0) + (if r.stopped1.isSome then 8 else 0) +
    (if r.stopped2.isSome then 16 else 0)

/-- The payload of a REPORT: the mandatory fields, then the present optional ones in tag order, a
multi-byte field high byte first (R4, R5). -/
def Report.payload (r : Report) : List Nat :=
  [r.state.code, r.owner.code] ++
    (r.halt.map fun c => [c.code]).getD [] ++
    (r.tape.map fun n => [n / 256, n % 256]).getD [] ++
    (r.start.map fun c => [c.code]).getD [] ++
    (r.stopped1.map fun j => [j]).getD [] ++
    (r.stopped2.map fun j => [j]).getD []

/-- The bytes of a frame the controller sends (R4, R5, R12). -/
def OutFrame.bytes (own : StationNo) : OutFrame → List Byte
  | .roll => writeFrame 1 0 true own 0 0 [2, 2, 0]
  | .summary pairs => writeFrame 2 0 true own 0 0 (pairs.flatMap fun p => [p.1.val, p.2])
  | .query dest tag letters => writeFrame 5 1 false own dest 0 (tag.val :: letters)
  | .report r => writeFrame 7 3 true own 0 r.tag r.payload

/-- The place of the frame on offer: the lowest class, the oldest of that class (R2). -/
def frameOnOffer (queue : List OutFrame) : Option Nat :=
  match queue.findIdx? (·.cls == 0) with
  | some i => some i
  | none =>
    match queue.findIdx? (·.cls == 1) with
    | some i => some i
    | none => queue.findIdx? (·.cls == 3)

/-- The wait of a frame of a class at a station (R2). -/
def frameWait (cls : Nat) (own : StationNo) : Nat := cls * 8 + own.val + 2

end Sys2Proof.Machine
end

