-- ==== Sys2Proof/Machine/Flags.lean ====
section
/-! DEFINITION. What is read off the state of several units: the machine state, the roles in use,
the line views, and the conditions that hold or suspend work. -/

namespace Sys2Proof.Machine

/-! ### Machine state -/

/-- The machine state that the mechanism gives in RUN (R118). -/
def MechState.machine : MechState → MachineState
  | .paused => .paused
  | .waitingWheel => .waitingWheel
  | .halted => .halted
  | _ => .ready

/-- The machine state (R118, R198). -/
def State.machine (s : State) : MachineState :=
  match s.supply.power with
  | .starting => .starting
  | .powerWarn => .powerWarn
  | .standby => .standby
  | .run => s.seq.mech.machine

/-- The controller is stopped: the supply is below the reset level or RESET is held (R199, R202). -/
def State.stopped (s : State) : Bool := s.supply.low || s.supply.resetHeld

/-- A KEY or TEXT frame is answered BUSY because roles are not settled (R9 case 1). -/
def State.rolesUnsettled (s : State) : Bool :=
  s.supply.power == .starting || (s.supply.power == .powerWarn && s.supply.prior == .starting)

/-- Keys are not examined (R26). -/
def State.keysSuspended (s : State) : Bool :=
  s.bus.conflict || s.machine == .starting || s.machine == .standby || s.machine == .powerWarn

/-- No word is handed to the Spelling Unit: it has stopped in CONFLICT, and in STANDBY, the wake included,
and during a power warning none is handed (R178). -/
def State.handingSuspended (s : State) : Bool :=
  s.bus.conflict || s.machine == .standby || s.machine == .powerWarn

/-- Text characters are not consumed (R42). -/
def State.textSuspended (s : State) : Bool :=
  s.keysSuspended || s.machine == .halted || s.wheel.mounted.isNone

/-! ### Roles -/

/-- The station that holds a role (R11). -/
def Bus.holder (b : Bus) (r : Role) : Option StationNo :=
  stationNumbers.find? fun n => b.table[n].role == some r

/-- A role is usable: the record that holds it is ADOPTED (R19). -/
def Bus.usable (b : Bus) (r : Role) : Bool :=
  stationNumbers.any fun n => b.table[n].role == some r && b.table[n].status == .adopted

/-- The role of an adopted sender; none for any other record (R9 case 2). -/
def Bus.adoptedRole (b : Bus) (n : StationNo) : Option Role :=
  if b.table[n].status == .adopted then b.table[n].role else none

/-- The Bus Interface's name of a dictionary role. -/
def DictRole.role : DictRole → Role
  | .primary => .primary
  | .secondary => .secondary

/-- A dictionary is missing: a dictionary role held at the end of the roll call is not usable
(R176). -/
def State.dictionaryMissing (s : State) : Bool :=
  (s.spell.hadPrimary && !s.bus.usable .primary) ||
    (s.spell.hadSecondary && !s.bus.usable .secondary)

/-- The owner that a source role is. -/
def ownerOf (n : SourceNo) : Owner :=
  match n with
  | .source1 => .source1
  | .source2 => .source2

/-- The source that owns the line, if one does (R31). -/
def Owner.source : Owner → Option SourceNo
  | .source1 => some .source1
  | .source2 => some .source2
  | _ => Option.none

/-- The record of a source (R33). -/
def Intake.src (i : Intake) : SourceNo → SourceIntake
  | .source1 => i.src1
  | .source2 => i.src2

/-! ### Entries and lines -/

/-- A CHAR entry. -/
def EntryKind.isChar : EntryKind → Bool
  | .char _ _ _ => true
  | _ => false

/-- A MOVE entry, tab or half space. -/
def EntryKind.isMove : EntryKind → Bool
  | .tab _ => true
  | .halfSpace => true
  | _ => false

/-- The code of a CHAR entry. -/
def Entry.code? (e : Entry) : Option Nat :=
  match e.kind with
  | .char c _ _ => some c
  | _ => none

/-- An entry is live when it is not LIFTING (R88). -/
def Entry.live (e : Entry) : Bool := e.strike != some .lifting

/-- An entry's end: start plus advance (R61). -/
def Entry.endPos (e : Entry) : Nat := e.start + e.advance

/-- An entry is QUEUED or STRUCK: on paper or about to be (R94, R98). -/
def Entry.onPaper (e : Entry) : Bool := e.strike == some .queued || e.strike == some .struck

/-- A SPACE entry. -/
def Entry.isSpace (e : Entry) : Bool := e.kind == .space

/-- A GAP entry. -/
def Entry.isGap (e : Entry) : Bool := e.kind == .gap

/-- A CHAR entry that is a letter (R55). -/
def Entry.isLetter (e : Entry) : Bool :=
  match e.kind with
  | .char c _ _ => Machine.isLetter c
  | _ => false

/-- A CHAR entry that is the joiner (R55). -/
def Entry.isApostrophe (e : Entry) : Bool := e.code? == some apostrophe

/-- The live entries of a line, in position order (R88). -/
def Line.live (l : Line) : List Entry := l.entries.filter Entry.live

/-- The end of the last of some live entries that begin at a line start (R63). -/
def endOf (start : Nat) (live : List Entry) : Nat :=
  match live.getLast? with
  | some e => e.endPos
  | none => start

/-- The end of a line's last live entry, or its line start (R63). -/
def Line.endPoint (l : Line) : Nat := endOf l.start l.live

/-- The point of a cursor index in a line: the end of the live entry before it (R63). -/
def Line.point (l : Line) (cursor : Nat) : Nat := endOf l.start (l.live.take cursor)

/-- The typing point (R63). -/
def State.typingPoint (s : State) : Nat := s.lines.current.endPoint

/-- The ring line at a view depth counted from the newest, 1 first (R85). -/
def LineStore.ringAt (ls : LineStore) (depth : Nat) : Option Line :=
  if depth = 0 then none else ls.ring.reverse[depth - 1]?

/-- The displayed line (R184). -/
def LineStore.displayed (ls : LineStore) : Line := (ls.ringAt ls.viewDepth).getD ls.current

/-- The cursor point p of the displayed line (R63). -/
def State.cursorPoint (s : State) : Nat := s.lines.displayed.point s.lines.cursor

/-- The line of a number that the Line Store holds (R86, R90). -/
def LineStore.find (ls : LineStore) (number : Word) : Option Line :=
  if ls.current.number = number then some ls.current
  else ls.ring.find? (·.number == number)

/-- The entry of an id in a line. -/
def Line.entry? (l : Line) (id : Nat) : Option Entry := l.entries.find? (·.id == id)

/-- The right limit of a line of this owner (R62). -/
def State.rightLimit (s : State) (owner : Owner) : Nat :=
  if owner == .keyboard && s.esc.marginRelease then s.esc.platen else s.esc.right

/-- A committed line is still feeding (R29, R101). -/
def State.lineFeeding (s : State) : Bool :=
  match s.lines.mark with
  | some m => m.final.isSome
  | none => false

/-! ### Keys (R27) -/

/-- The keys that need the line: printing and line keys of the table of R27. -/
def isPrintingKey (code : Nat) : Bool := 32 ≤ code && code ≤ 159

/-- A line key (R27): codes 1 to 11, HOLD, PAPER UP and PAPER DOWN. -/
def isLineKey (code : Nat) : Bool :=
  (1 ≤ code && code ≤ 11) || code == 18 || code == 27 || code == 28

/-- A key that is a keyboard claim at the head (R39). -/
def claimsLine (code : Nat) : Bool := isPrintingKey code || isLineKey code

/-- The code of CLEAR (R27). -/
def clearCode : Nat := 30
/-- The code of STOP JOB (R27). -/
def stopJobCode : Nat := 29
/-- The keys taken whoever owns the line, or decided by their own rule then (R31). -/
def allowedUnderSource (code : Nat) : Bool :=
  code == stopJobCode || code == clearCode || code == 31 || code == 27 || code == 28

/-! ### Standby (R200) -/

/-- The standby idle expiry runs: all the conditions of R200 hold. -/
def State.standbyIdleRunning (s : State) : Bool :=
  !s.stopped && s.supply.power == .run && !s.bus.conflict && s.seq.mech == .idle &&
    s.intake.keys.isEmpty && s.intake.src1.slot.isNone && s.intake.src2.slot.isNone &&
    s.seq.queue.isEmpty && s.lines.mark.isNone && s.store.inFlight.isNone

/-- COVER and TAPE NEW are watched while the mechanism is not PARKED (R126, R137). -/
def State.inputsWatched (s : State) : Bool := !s.stopped && s.seq.mech != .parked

/-- RIBBON KIND is watched while the machine is not in STANDBY (R56), so not during the wake, whose
machine state is STANDBY (R201); and not while the mechanism is PARKED in a power warning that came in
STANDBY (R129; DEDUCED, log 14). In a start whose load waits (R202) the mechanism is PARKED too: there,
STARTING or in a warning from it, it is watched by R56, although R129 says that in PARKED it is not
(DESIGN CHOICE, log 50). -/
def State.ribbonWatched (s : State) : Bool :=
  !s.stopped && s.machine != .standby &&
    !(s.seq.mech == .parked && s.supply.power == .powerWarn && s.supply.prior == .standby)

end Sys2Proof.Machine
end

