-- ==== Sys2Proof/Machine/Ops.lean ====
section
/-! DEFINITION. The shared operations on the state: changing one unit, REPORTs, alerts and messages,
the mechanism and power states, store writes, and the examination of the head of the print queue. -/

namespace Sys2Proof.Machine

/-! ### Changing one unit -/

/-- Change the unit `bus` alone. -/
def State.mapBus (s : State) (f : Bus → Bus) : State := { s with bus := f s.bus }
/-- Change the unit `intake` alone. -/
def State.mapIntake (s : State) (f : Intake → Intake) : State := { s with intake := f s.intake }
/-- Change the unit `wheel` alone. -/
def State.mapWheel (s : State) (f : WheelUnit → WheelUnit) : State := { s with wheel := f s.wheel }
/-- Change the unit `esc` alone. -/
def State.mapEsc (s : State) (f : Escapement → Escapement) : State := { s with esc := f s.esc }
/-- Change the unit `lines` alone. -/
def State.mapLines (s : State) (f : LineStore → LineStore) : State := { s with lines := f s.lines }
/-- Change the unit `seq` alone. -/
def State.mapSeq (s : State) (f : Sequencer → Sequencer) : State := { s with seq := f s.seq }
/-- Change the unit `corr` alone. -/
def State.mapCorr (s : State) (f : Correction → Correction) : State := { s with corr := f s.corr }
/-- Change the unit `spell` alone. -/
def State.mapSpell (s : State) (f : Spelling → Spelling) : State := { s with spell := f s.spell }
/-- Change the unit `disp` alone. -/
def State.mapDisp (s : State) (f : Display → Display) : State := { s with disp := f s.disp }
/-- Change the unit `alert` alone. -/
def State.mapAlert (s : State) (f : AlertUnit → AlertUnit) : State := { s with alert := f s.alert }
/-- Change the unit `store` alone. -/
def State.mapStore (s : State) (f : StoreUnit → StoreUnit) : State := { s with store := f s.store }
/-- Change the unit `supply` alone. -/
def State.mapSupply (s : State) (f : Supply → Supply) : State := { s with supply := f s.supply }
/-- Change the unit `pins` alone. -/
def State.mapPins (s : State) (f : Pins → Pins) : State := { s with pins := f s.pins }

/-- An operation that a stopped controller does not perform (R199, R202; log 13). -/
def State.whenRunning (s : State) (f : State → State) : State := if s.stopped then s else f s

/-- Change the record of one source (R33). -/
def Intake.mapSrc (i : Intake) (n : SourceNo) (f : SourceIntake → SourceIntake) : Intake :=
  match n with
  | .source1 => { i with src1 := f i.src1 }
  | .source2 => { i with src2 := f i.src2 }

/-! ### REPORT (R22, R23) -/

/-- A trigger that carries neither a tape change nor a stopped job. -/
def ReportCause.plain : ReportCause := ⟨false, none, none⟩

/-- Two triggers taken together; of two stops on one source the later stands (R23). -/
def ReportCause.merge (earlier later : ReportCause) : ReportCause :=
  ⟨earlier.tape || later.tape, later.stopped1 <|> earlier.stopped1,
    later.stopped2 <|> earlier.stopped2⟩

/-- What a queued REPORT that is replaced hands on to the new one (R23). -/
def Report.cause (r : Report) : ReportCause := ⟨r.tapeTold, r.stopped1, r.stopped2⟩

/-- The REPORT of the state as it stands, for these triggers, with the start cause of the REPORT it
replaces or of the start (R23). -/
def State.buildReport (s : State) (c : ReportCause) (start : Option StartCause) : Report where
  state := s.machine
  owner := s.intake.owner
  halt := if s.machine = .halted then s.seq.haltCause else none
  tape := if s.corr.tape ≤ 50 ∨ c.tape = true then some s.corr.tape else none
  start := start
  stopped1 := c.stopped1
  stopped2 := c.stopped2
  tapeTold := c.tape

/-- The queued REPORT and its place, if there is one (R21: at most one). -/
def queuedReport : List OutFrame → Option (Nat × Report)
  | [] => none
  | .report r :: _ => some (0, r)
  | _ :: q => (queuedReport q).map fun p => (p.1 + 1, p.2)

/-- A REPORT trigger (R22): discarded in CONFLICT; held while a REPORT is on the line; otherwise the
new REPORT replaces a queued one in its place, or joins at the newest end. -/
def State.triggerReport (s : State) (c : ReportCause) : State :=
  if s.bus.conflict then s
  else
    match queuedReport s.bus.queue with
    | some (i, old) =>
      if s.bus.sending = some i then
        s.mapBus fun b => { b with heldReport := some ((b.heldReport.getD .plain).merge c) }
      else
        s.mapBus fun b =>
          { b with queue := b.queue.set i (.report (s.buildReport (old.cause.merge c) old.start)) }
    | none => s.mapBus fun b => { b with queue := b.queue ++ [.report (s.buildReport c none)] }

/-- A frame joins the outgoing queue; in CONFLICT it is discarded (R21). -/
def State.enqueueFrame (s : State) (f : OutFrame) : State :=
  if s.bus.conflict then s else s.mapBus fun b => { b with queue := b.queue ++ [f] }

/-! ### Alerts and messages (R187 to R193) -/

/-- The severity of an alert (R190). -/
def Alert.severity : Alert → Nat
  | .bell => 1
  | .spell => 2
  | .refuse => 3
  | .fault => 4

/-- A request for an alert (R190): dropped in STANDBY and the wake (R193), dropped by silence unless a
FAULT, and heard only when the tone now sounding is of lower severity. Where two rows of R193 apply at
once, in a power warning that came in STANDBY or during the wake and in CONFLICT during the wake, the
machine state decides: in POWER-WARN the request is dealt with by R190, the FAULT of a wake's homing
that halts then among them (R201), and in STANDBY it is dropped, CONFLICT or not (DESIGN CHOICE,
log 42). -/
def State.requestAlert (s : State) (a : Alert) : State :=
  if s.machine = .standby then s
  else if a ≠ .fault ∧ s.alert.silence = true then s
  else
    match s.alert.current with
    | none => s.mapAlert fun u => { u with current := some a }
    | some c => if c.severity < a.severity then s.mapAlert fun u => { u with current := some a } else s

/-- A request for a transient message: dropped while the panel is not ON (R187) and while a standing
condition of rank 1 or 2 is set (R189). -/
def State.showMessage (s : State) (m : Message) : State :=
  if s.disp.panel = .on ∧ s.disp.standing.conflict = false ∧ s.disp.standing.halt = none then
    s.mapDisp fun d => { d with transient := some m }
  else s

/-- The transient message ends (R187). -/
def State.endMessage (s : State) : State := s.mapDisp fun d => { d with transient := none }

/-- The panel becomes ON, its blink phase LIT; a panel that is ON stays as it is (R180). -/
def State.panelOn (s : State) : State :=
  s.mapDisp fun d => if d.panel = .on then d else { d with panel := .on, lit := true }

/-- The keyboard condition of R188 follows the usability of the role KEYBOARD (R19). -/
def State.tellKeyboard (s : State) : State :=
  s.mapDisp fun d =>
    { d with standing := { d.standing with noKeyboard := !s.bus.usable .keyboard } }

/-! ### Mechanism state, power state and the machine state they make (R118, R198) -/

/-- A change of the machine state since `before` triggers a REPORT (R22). While a start's load waits
the roll call has not begun: the first REPORT after the start is the one that R12 enqueues (R23), and it
carries the state as it then stands (DEDUCED, log 34). -/
def State.reportIfChanged (s : State) (before : MachineState) : State :=
  if s.machine = before ∨ s.store.loadWaits = true then s else s.triggerReport .plain

/-- The mechanism enters a state. The Display Unit is told the cause of a pause and the wheel need,
each present only in its state (R118, R188). -/
def State.setMech (s : State) (m : MechState) (pause : Option PauseCause)
    (need : Option WheelNeed) : State :=
  ((s.mapSeq fun q => { q with mech := m }).mapDisp fun d =>
    { d with standing := { d.standing with pause := pause, wheel := need } }).reportIfChanged s.machine

/-- The power state changes (R198). -/
def State.setPower (s : State) (p : Power) : State :=
  (s.mapSupply fun u => { u with power := p }).reportIfChanged s.machine

/-! ### Store writes (R196) -/

/-- The contents of the settings block as they stand. -/
def State.settingsNow (s : State) : Settings where
  left := s.esc.left
  right := s.esc.right
  tabs := s.esc.tabs
  spacing := s.esc.spacing
  impression := s.seq.impression
  hold := s.lines.hold
  justify := s.esc.justify
  spelling := s.spell.isOn
  silence := s.alert.silence

/-- A Bool as a number, for a check value's input. -/
def flagNumber (b : Bool) : Nat := if b then 1 else 0

/-- The numbers of a settings block that its check value is computed over (log 6). -/
def Settings.numbers (c : Settings) : List Nat :=
  [c.left, c.right, c.spacing, c.impression, flagNumber c.hold, flagNumber c.justify,
    flagNumber c.spelling, flagNumber c.silence, c.tabs.length] ++ c.tabs

/-- The numbers of a user list block that its check value is computed over (log 6). -/
def userNumbers (words : List (List Nat)) : List Nat := words.flatMap fun w => w.length :: w

/-- The check value of settings contents (R194). -/
def Settings.checkValue (c : Settings) : Word := Config.blockCheck (0 :: c.numbers)
/-- The check value of tape contents (R194). -/
def tapeCheckValue (n : Nat) : Word := Config.blockCheck [1, n]
/-- The check value of user list contents (R194). -/
def userCheckValue (words : List (List Nat)) : Word := Config.blockCheck (2 :: userNumbers words)

/-- The first dirty block in the order settings, tape, user list (R196). -/
def StoreUnit.firstDirty (u : StoreUnit) : Option Block :=
  if u.dirtySettings then some .settings
  else if u.dirtyTape then some .tape
  else if u.dirtyUser then some .userList
  else none

/-- A write of a block starts: its mark is cleared, its contents are taken from the owners as they
stand, and its validity mark is cleared in the store until the write ends (R196). -/
def State.writeBlock (s : State) (b : Block) : State :=
  match b with
  | .settings => s.mapStore fun u =>
      { u with dirtySettings := false, inFlight := some .settings,
               settings := ⟨false, s.settingsNow.checkValue, s.settingsNow⟩ }
  | .tape => s.mapStore fun u =>
      { u with dirtyTape := false, inFlight := some .tape,
               tape := ⟨false, tapeCheckValue s.corr.tape, s.corr.tape⟩ }
  | .userList => s.mapStore fun u =>
      { u with dirtyUser := false, inFlight := some .userList,
               userList := ⟨false, userCheckValue s.spell.userWords, s.spell.userWords⟩ }

/-- A write is started when none is in flight and a mark is set (R196). A write that the store itself
still finishes (R202) holds it up, since blocks are written one at a time. -/
def State.startWrite (s : State) : State :=
  match s.store.inFlight, s.store.finishing, s.store.firstDirty with
  | none, none, some b => s.writeBlock b
  | _, _, _ => s

/-- The validity mark of a block is set at the end of its write (R196). -/
def StoreUnit.validate (u : StoreUnit) : Block → StoreUnit
  | .settings => { u with settings := { u.settings with valid := true } }
  | .tape => { u with tape := { u.tape with valid := true } }
  | .userList => { u with userList := { u.userList with valid := true } }

/-- The tape block is marked dirty and written when its turn comes (R196, R198, R200). -/
def State.markTapeDirty (s : State) : State :=
  (s.mapStore fun u => { u with dirtyTape := true }).startWrite

/-! ### Starting the head action (R117, R119 to R123) -/

/-- The shorter way round from one petal to another; 48 is turned forward (R122). -/
def wheelTurn (current target : Nat) : Turn :=
  let d := (target + 96 - current) % 96
  if d ≤ 48 then ⟨true, d⟩ else ⟨false, 96 - d⟩

/-- The base pulse of an impact class, in 0.01 ms (R123). -/
def basePulse : Nat → Nat
  | 1 => 60
  | 2 => 85
  | 3 => 110
  | _ => 135

/-- The percentage of an impression setting (R123). -/
def impressionPercent : Nat → Nat
  | 1 => 85
  | 2 => 100
  | _ => 120

/-- The percentage of a ribbon kind (R123). -/
def ribbonPercent : RibbonKind → Nat
  | .film => 90
  | _ => 100

/-- The exact product of a base and percentages, rounded once to the nearest multiple of 5, halves
up, then clamped to 40 to 200 (R123). -/
def pulseOf (base : Nat) (percents : List Nat) : Nat :=
  let product := percents.foldl (· * ·) base
  let unit := 100 ^ percents.length
  min 200 (max 40 ((2 * product + 5 * unit) / (10 * unit) * 5))

/-- The hammer pulse of a STRIKE (R123). -/
def strikePulse (impression : Nat) (ribbon : RibbonKind) (b : Blow) : Nat :=
  pulseOf (basePulse (impactClass b.code))
    [impressionPercent impression, ribbonPercent ribbon, if b.boldSecond then 90 else 100]

/-- The hammer pulse of a LIFT: no ribbon and no bold factor (R123). -/
def liftPulse (impression : Nat) (b : Blow) : Nat :=
  pulseOf (basePulse (impactClass b.code)) [impressionPercent impression, 125]

/-- The drive of a blow struck from a family's petal. -/
def Sequencer.drive (q : Sequencer) (f : Family) (code pulse : Nat) : Drive :=
  let t := (f.petal code).getD 0
  ⟨t, wheelTurn q.petal t, pulse⟩

/-- What keeps the head action from starting, or how it starts (R117). -/
inductive HeadCase where
  | wait (need : WheelNeed)
  | pauseRibbon
  | start (drive : Option Drive)
deriving DecidableEq, Repr

/-- The cases of R117 that depend on the head action. -/
def State.headCase (s : State) : Action → HeadCase
  | .strike b =>
    match s.wheel.mounted with
    | none => .wait .noWheel
    | some f =>
      if f.carries b.code = false then .wait (.code b.code)
      else if s.wheel.ribbon = .out then .pauseRibbon
      else .start (some (s.seq.drive f b.code (strikePulse s.seq.impression s.wheel.ribbon b)))
  | .lift b required =>
    match s.wheel.mounted with
    | none => .wait .noWheel
    | some f =>
      if f ≠ required then .wait (.family required)
      else .start (some (s.seq.drive f b.code (liftPulse s.seq.impression b)))
  | .move _ => .start none
  | .feed _ _ => .start none

/-- The head is examined (R117). Not while work is in execution, and not while PARKED. -/
def State.examineHead (s : State) : State :=
  if s.seq.work.isSome || s.seq.mech == .parked || s.seq.mech == .halted then s
  else if s.pins.coverOpen then s.setMech .paused (some .cover) none
  else if s.seq.hold then s.setMech .idle none none
  else if s.seq.readDue then
    (s.mapSeq fun q => { q with work := some .wheelRead }).setMech .running none none
  else
    match s.seq.queue with
    | [] => s.setMech .idle none none
    | a :: _ =>
      match s.headCase a with
      | .wait need => s.setMech .waitingWheel none (some need)
      | .pauseRibbon => s.setMech .paused (some .ribbon) none
      | .start d =>
        (s.mapSeq fun q => { q with work := some (.action d), headStarted := true }).setMech
          .running none none

/-- Actions join the tail of the print queue (R113). The unit that enqueues them has seen to their
places (R29, R102). -/
def State.enqueue (s : State) (as : List Action) : State :=
  s.mapSeq fun q => { q with queue := q.queue ++ as }

/-- Free places of the print queue (R113). -/
def State.freePlaces (s : State) : Nat := Config.printCapacity - s.seq.queue.length

/-- Homing starts (R125). -/
def State.startHoming (s : State) (why : HomingWhy) : State :=
  (s.mapSeq fun q => { q with work := some (.homing why) }).setMech .homing none none

/-! ### Tape (R138) -/

/-- The tape count changes; a crossing of the low mark and a fall to 0 are told (R138). -/
def State.setTape (s : State) (n : Nat) : State :=
  let old := s.corr.tape
  let s' := s.mapCorr fun c => { c with tape := n }
  if (51 ≤ old ∧ n ≤ 50) ∨ (old ≤ 50 ∧ 51 ≤ n) ∨ (n = 0 ∧ old ≠ 0) then
    s'.triggerReport ⟨true, none, none⟩
  else s'

end Sys2Proof.Machine
end

