-- ==== Sys2Proof/Machine/Lines.lean ====
section
/-! DEFINITION. The algebra of line records (Chapters 4, 5 and 6): making entries, their strikes,
their layout, gaps, the cursor, and the words of a line. -/

namespace Sys2Proof.Machine

/-! ### Making entries -/

/-- A new entry. It is HELD if it has strikes and plain otherwise (R87, R90). -/
def newEntry (id : Nat) (kind : EntryKind) (start advance : Nat) (underline : Bool) : Entry where
  id := id
  kind := kind
  start := start
  advance := advance
  underline := underline
  strike := if kind.isChar || underline then some .held else none
  total := 0
  done := 0
  underscore := none
  serial := none

/-- An entry can be made in the line (R89). -/
def Line.canMake (l : Line) : Bool := decide (l.entries.length < Config.entryCapacity) && l.nextId ≤ 255

/-! ### The strikes of an entry (R114, R115) -/

/-- The positions of the underscores of an entry of this start and advance (R115). -/
def underscorePositions (start advance uw : Nat) : List Nat :=
  if advance < uw then [start]
  else
    let n := min Config.maxStrikes ((advance + uw - 1) / uw)
    (List.range (n - 1)).map (fun k => start + k * uw) ++ [start + advance - uw]

/-- The strikes of an entry in sub-index order, as code, position, bold-second, underscore (R114). -/
def Entry.strikeList (e : Entry) (uw : Nat) : List (Nat × Nat × Bool × Bool) :=
  (match e.kind with
    | .char c _ bold =>
      (c, e.start, false, false) :: if bold then [(c, e.start + 1, true, false)] else []
    | _ => []) ++
  (if e.underline then
    (underscorePositions e.start e.advance uw).map fun p => (95, p, false, true)
   else [])

/-- The blows of an entry in sub-index order, built with the underscore width recorded in it (R114,
R115, R145). -/
def Entry.blows (e : Entry) (line : Word) : List Blow :=
  ((e.strikeList (e.underscore.getD 0)).zipIdx).map fun (b, i) =>
    ⟨line, e.id, i, b.1, b.2.1, b.2.2.1, b.2.2.2⟩

/-- The enqueueing of an entry's first action: QUEUED, with strikes total and underscore width
written (R90, R115). -/
def Entry.begin (e : Entry) (uw : Nat) : Entry :=
  { e with
    strike := some .queued
    underscore := if e.underline then some uw else none
    total := (e.strikeList uw).length }

/-- The underscore width for an entry whose first action is enqueued now (R115). With no wheel
mounted it is a free value of 8, 10 or 12 (log 7). -/
def State.underscoreWidth (s : State) (line : Word) (id : Nat) : Nat :=
  match s.wheel.mounted with
  | some f => f.underscoreWidth
  | none => 8 + 2 * (Config.noWheelUnderscore line id).val

/-- An entry with strikes becomes QUEUED; a plain one stays as it is. -/
def State.beginEntry (s : State) (line : Word) (e : Entry) : Entry :=
  if e.strike.isSome then e.begin (s.underscoreWidth line e.id) else e

/-- The actions of an entry made in a direct-mode line or a ring line, or filled into any line: its
STRIKEs, or one MOVE to its end for a plain one (R114). -/
def Entry.actions (e : Entry) (line : Word) : List Action :=
  if e.strike.isSome then (e.blows line).map .strike else [.move e.endPos]

/-! ### Layout (R72, R73, R88) -/

/-- The distance from a start to the first tab stop greater than it (R67, R73). -/
def tabDistance (tabs : List Nat) (start : Nat) : Option Nat :=
  (tabs.find? fun t => start < t).map fun t => t - start

/-- The advance of a tab of a hold or source line: to the stop, else the SPACE width, else none when
no wheel is mounted (R73, R58). -/
def holdTabAdvance (tabs : List Nat) (mounted : Option Family) (start : Nat) : Option Nat :=
  match tabDistance tabs start with
  | some d => some d
  | none => mounted.map Family.spaceWidth

/-- The live entries laid out from a position one after the other, the tabs of hold and source lines
recomputed from left to right (R72, R73); LIFTING entries stay where they are (R88). -/
def relayout (tabs : List Nat) (mounted : Option Family) : Nat → List Entry → List Entry
  | _, [] => []
  | pos, e :: es =>
    if e.live then
      let advance :=
        if e.kind = .tab false then (holdTabAdvance tabs mounted pos).getD e.advance else e.advance
      { e with start := pos, advance := advance } :: relayout tabs mounted (pos + advance) es
    else e :: relayout tabs mounted pos es

/-- The live entries laid out from a position with their advances kept (R70 step 4, R75 step 6). -/
def shiftFrom : Nat → List Entry → List Entry
  | _, [] => []
  | pos, e :: es =>
    if e.live then { e with start := pos } :: shiftFrom (pos + e.advance) es
    else e :: shiftFrom pos es

/-- Insert an entry before the live entry of this index, counted among live entries; at the end of
the record when there is none. -/
def insertAtLive (x : Entry) : Nat → List Entry → List Entry
  | _, [] => [x]
  | k, e :: es =>
    if e.live then
      match k with
      | 0 => x :: e :: es
      | k + 1 => e :: insertAtLive x k es
    else e :: insertAtLive x k es

/-! ### Gaps (R88) -/

/-- In a reversed record, add a width to the GAP that is the last live entry, if there is one. -/
def widenLastGap (width : Nat) : List Entry → Option (List Entry)
  | [] => none
  | e :: es =>
    if e.live then
      if e.isGap then some ({ e with advance := e.advance + width } :: es) else none
    else (widenLastGap width es).map (e :: ·)

/-- Merge side-by-side GAPs into the left one; the first list is the reversed record so far. -/
def mergeGaps : List Entry → List Entry → List Entry
  | acc, [] => acc.reverse
  | acc, e :: es =>
    if e.live && e.isGap then
      match widenLastGap e.advance acc with
      | some acc' => mergeGaps acc' es
      | none => mergeGaps (e :: acc) es
    else mergeGaps (e :: acc) es

/-- In a reversed record, remove the last live entry if it is a GAP. -/
def dropLastGap : List Entry → List Entry
  | [] => []
  | e :: es => if e.live then (if e.isGap then es else e :: es) else e :: dropLastGap es

/-- No GAP at the end, no two side by side (R88). -/
def tidyGaps (es : List Entry) : List Entry := (dropLastGap (mergeGaps [] es).reverse).reverse

/-- In a reversed record, drop every SPACE and every GAP at the end of the live content; the LIFTING
entries among them stay (R70 step 1, R88). -/
def dropTrailing : List Entry → List Entry
  | [] => []
  | e :: es =>
    if e.live then (if e.isSpace || e.isGap then dropTrailing es else e :: es)
    else e :: dropTrailing es

/-- A record without its trailing SPACE entries and without a GAP at its end (R70 step 1, R88). The GAP
that the run's removal or the dropping of SPACEs leaves last goes in the same change, and then the SPACEs
before it are trailing and go too (DEDUCED, log 48). -/
def trimLine (es : List Entry) : List Entry := (dropTrailing es.reverse).reverse

/-- In a reversed record, the longest run of CHARs at the end of the live content, in reversed
order, and what remains (R70). -/
def splitRun : List Entry → List Entry × List Entry
  | [] => ([], [])
  | e :: es =>
    if e.live then
      if e.kind.isChar then ((e :: (splitRun es).1), (splitRun es).2) else ([], e :: es)
    else ((splitRun es).1, e :: (splitRun es).2)

/-- The carried run of a line in position order, and the record without it (R70). -/
def Line.carriedRun (l : Line) : List Entry × List Entry :=
  ((splitRun l.entries.reverse).1.reverse, (splitRun l.entries.reverse).2.reverse)

/-! ### The cursor (R91) -/

/-- Where a cursor among old live entries stands among new ones (R91). -/
def keepCursor (old new : List Entry) (k : Nat) : Nat :=
  if old.length ≤ k then new.length
  else ((old.drop k).findSome? fun e => new.findIdx? (·.id == e.id)).getD new.length

/-! ### Words (R108 to R110) -/

/-- The live entries with the mark whether each stands in a word: a letter, or an apostrophe
directly between two letters (R108). The first argument says whether the entry before is a letter. -/
def markWords : Bool → List Entry → List (Entry × Bool)
  | _, [] => []
  | before, e :: es =>
    let after := (es.head?.map Entry.isLetter).getD false
    (e, e.isLetter || (e.isApostrophe && before && after)) :: markWords e.isLetter es

/-- A run of entries that form a word, with the live entries after it. -/
structure WordRun where
  entries : List Entry
  after : List Entry
deriving DecidableEq, Repr

/-- The maximal runs of marked entries in position order; the first list is the run being read, in
reversed order. -/
def wordRuns : List Entry → List (Entry × Bool) → List WordRun
  | [], [] => []
  | cur, [] => [⟨cur.reverse, []⟩]
  | cur, (e, true) :: r => wordRuns (e :: cur) r
  | [], (_, false) :: r => wordRuns [] r
  | cur, (e, false) :: r => ⟨cur.reverse, e :: r.map (·.1)⟩ :: wordRuns [] r

/-- The runs of a line's live entries (R108). -/
def Line.runs (l : Line) : List WordRun := wordRuns [] (markWords false l.live)

/-- A run is closed in an open line when a live entry follows it that is not an apostrophe ending the
line; in a committed line always (R108). -/
def WordRun.closed (r : WordRun) (committed : Bool) : Bool :=
  committed ||
    match r.after with
    | [] => false
    | [e] => !e.isApostrophe
    | _ => true

/-- The count of letters of a run (R108). -/
def letterCount (es : List Entry) : Nat := es.countP Entry.isLetter

/-- The record that a run keeps, if it is unchanged or lengthened (R109). -/
def keptWord (words : List WordRec) (run : List Entry) : Option WordRec :=
  match run with
  | [] => none
  | e :: _ =>
    match words.find? fun w => e.serial == some w.serial with
    | none => none
    | some w =>
      if w.firstId = e.id ∧ w.length = run.length ∧ run.all (·.serial == some w.serial) then some w
      else if w.state = .opened ∧ w.firstId = e.id ∧ w.length < run.length ∧
          (run.take w.length).all (·.serial == some w.serial) ∧
          (run.drop w.length).all (·.serial == none) then
        some { w with length := run.length, letters := letterCount run }
      else none

/-- A new word record for a run (R109). -/
def newWord (serial : Word) (run : List Entry) : WordRec where
  serial := serial
  firstId := (run.head?.map (·.id)).getD 0
  length := run.length
  letters := letterCount run
  capital := none
  state := .opened
  tag := none

/-- Words for runs in position order, with the serial counter moving on at each new one (R109). -/
def assignWords (words : List WordRec) : Word → List WordRun → List (WordRec × WordRun) × Word
  | counter, [] => ([], counter)
  | counter, r :: rs =>
    match keptWord words r.entries with
    | some w => (((w, r) :: (assignWords words counter rs).1), (assignWords words counter rs).2)
    | none =>
      (((newWord counter r.entries, r) :: (assignWords words (counter + 1) rs).1),
        (assignWords words (counter + 1) rs).2)

/-- The serials of the old words that some run keeps. -/
def keptSerials (words : List WordRec) (runs : List WordRun) : List Word :=
  runs.filterMap fun r => (keptWord words r.entries).map (·.serial)

/-- What segmenting a line gives (R108 to R110). -/
structure Segmented where
  line : Line
  counter : Word
  /-- the serials of the records removed -/
  removed : List Word
  /-- the serials of the OPEN words that are closed, to be handed in this order -/
  ready : List Word
deriving DecidableEq, Repr

/-- The serial an entry gets from the words of its line (R109). -/
def serialFor (ws : List (WordRec × WordRun)) (e : Entry) : Option Word :=
  (ws.find? fun p => e.live && p.2.entries.any (·.id == e.id)).map (·.1.serial)

/-- Segment a line (R108, R109), and find the words to hand (R110). -/
def Line.segment (l : Line) (counter : Word) : Segmented :=
  let ws := assignWords l.words counter l.runs
  let kept := keptSerials l.words l.runs
  { line := { l with
      entries := l.entries.map fun e => { e with serial := serialFor ws.1 e }
      words := ws.1.map (·.1) }
    counter := ws.2
    removed := (l.words.filter fun w => !kept.contains w.serial).map (·.serial)
    ready := (ws.1.filter fun p =>
      p.1.state == .opened && p.2.closed (l.state == .committed)).map (·.1.serial) }

/-- The folded form of a word of a line (R158). -/
def Line.foldedForm (l : Line) (serial : Word) : List Nat :=
  (l.live.filter (·.serial == some serial)).map fun e => fold (e.code?.getD 0)

/-- The codes of a word of a line, unfolded. -/
def Line.wordCodes (l : Line) (serial : Word) : List Nat :=
  (l.live.filter (·.serial == some serial)).map fun e => e.code?.getD 0

/-- The capital state of a word from its codes (R160). -/
def capitalOf (codes : List Nat) : Capital :=
  let letters := codes.filter isLetter
  if letters.all isUpper && 2 ≤ letters.length then .upper
  else if (letters.head?.map isUpper).getD false then .capital
  else .lower

/-! ### Justification (R74, R75) -/

/-- The ids of the stretch spaces: SPACEs after the last MOVE and before the last CHAR (R74). A MOVE
after the last CHAR leaves none. -/
def stretchSpaces (live : List Entry) : List Nat :=
  let tail := live.reverse.takeWhile fun e => !e.kind.isChar
  let beforeLastChar := (live.reverse.dropWhile fun e => !e.kind.isChar).drop 1
  if tail.any (·.kind.isMove) then []
  else ((beforeLastChar.takeWhile fun e => !e.kind.isMove).reverse.filter Entry.isSpace).map (·.id)

/-- A stretch space's growth by its place from the left (R75 step 5). -/
def stretchEntry (ids : List Nat) (share rest : Nat) (e : Entry) : Entry :=
  match ids.findIdx? (· == e.id) with
  | none => e
  | some i => { e with advance := e.advance + share + if i < rest then 1 else 0 }

/-- Justify a line whose commit is a wrap commit, or leave it ragged (R74, R75). -/
def justifyLine (justify : Bool) (right : Nat) (mounted : Option Family) (l : Line) : Line :=
  let ids := stretchSpaces l.live
  let ending := l.endPoint
  if justify = true ∧ ids ≠ [] ∧ ending ≤ right ∧
      l.entries.all (fun e => !e.onPaper && e.live && !e.isGap) = true then
    match mounted with
    | none => l
    | some f =>
      let share := (right - ending) / ids.length
      let rest := (right - ending) % ids.length
      if 2 * f.spaceWidth < share then l
      else { l with entries := shiftFrom l.start (l.entries.map (stretchEntry ids share rest)) }
  else l

end Sys2Proof.Machine
end

