-- ==== Sys2Proof/Machine/Spell.lean ====
section
/-! DEFINITION. The Spelling Unit (Chapter 8): classification, the pending list, the query table,
verdicts, and words that go away; with the unanswered counts of the Bus Interface (R20). -/

namespace Sys2Proof.Machine

/-! ### Line records by number -/

/-- Change the first line of a number in a list. -/
def updateFirst (number : Word) (f : Line → Line) : List Line → List Line
  | [] => []
  | l :: ls => if l.number = number then f l :: ls else l :: updateFirst number f ls

/-- Change the line of a number, the one that `LineStore.find` finds. -/
def LineStore.updateLine (ls : LineStore) (number : Word) (f : Line → Line) : LineStore :=
  if ls.current.number = number then { ls with current := f ls.current }
  else { ls with ring := updateFirst number f ls.ring }

/-- Change the line of a number. -/
def State.updateLine (s : State) (number : Word) (f : Line → Line) : State :=
  s.mapLines fun ls => ls.updateLine number f

/-- Write the state and the query tag of a word record (R110). -/
def State.setWord (s : State) (line serial : Word) (st : WordState) (tag : Option (Fin 4)) : State :=
  s.updateLine line fun l =>
    { l with words := l.words.map fun w =>
        if w.serial = serial then { w with state := st, tag := tag } else w }

/-- The folded form of a word by line number and serial (R158). -/
def State.foldedForm (s : State) (line serial : Word) : List Nat :=
  ((s.lines.find line).map fun l => l.foldedForm serial).getD []

/-! ### Query slots (R165 to R168) -/

/-- The four tags. -/
def allTags : List (Fin 4) := [0, 1, 2, 3]

/-- The FREE slot of lowest tag (R165). -/
def Spelling.freeTag (u : Spelling) : Option (Fin 4) := allTags.find? fun t => u.slots[t] == .free

/-- Set the slot of a tag. -/
def State.setSlot (s : State) (tag : Fin 4) (x : Slot) : State :=
  s.mapSpell fun u => { u with slots := u.slots.set tag x }

/-- The candidate role (R165): the first usable of PRIMARY and SECONDARY that is not excluded. -/
def State.candidate (s : State) (excluded1 excluded2 : Option DictRole) : Option DictRole :=
  [DictRole.primary, DictRole.secondary].find? fun r =>
    s.bus.usable r.role && excluded1 != some r && excluded2 != some r

/-- A slot takes a word for a candidate role, and its QUERY is enqueued (R167). -/
def State.slotTakes (s : State) (tag : Fin 4) (line serial : Word) (r : DictRole)
    (already : Option DictRole) : State :=
  let station := (s.bus.holder r.role).getD 0
  let q : Query := ⟨line, serial, station, r, already, .sending, false⟩
  (((s.setSlot tag (.asking q)).setWord line serial .asking (some tag))).enqueueFrame
    (.query station tag (s.foldedForm line serial))

/-- Take items from the pending list while it holds one and a slot is FREE (R165); in CONFLICT no
slot takes an item (R178). The number bounds the items taken. -/
def State.takeItemsUpTo (s : State) : Nat → State
  | 0 => s
  | n + 1 =>
    if s.bus.conflict then s
    else
      match s.spell.pending, s.spell.freeTag with
      | item :: rest, some tag =>
        let s' := s.mapSpell fun u => { u with pending := rest }
        match s.candidate item.already none with
        | some r => (s'.slotTakes tag item.line item.serial r item.already).takeItemsUpTo n
        | none => (s'.setWord item.line item.serial .uncheckable none).takeItemsUpTo n
      | _, _ => s

/-- Take items until the list is empty or no slot is FREE (R165). -/
def State.takeItems (s : State) : State := s.takeItemsUpTo s.spell.pending.length

/-- A slot becomes FREE and takes the next item (R165). -/
def State.freeSlot (s : State) (tag : Fin 4) : State := (s.setSlot tag .free).takeItems

/-! ### The pending list (R164) -/

/-- An item joins at the tail; a full list first loses its oldest item, whose word becomes
UNCHECKABLE (R164). -/
def State.appendPending (s : State) (item : PendingItem) : State :=
  match s.spell.pending with
  | oldest :: rest =>
    if Config.pendingCapacity ≤ s.spell.pending.length then
      (s.setWord oldest.line oldest.serial .uncheckable none).mapSpell fun u =>
        { u with pending := rest ++ [item] }
    else s.mapSpell fun u => { u with pending := u.pending ++ [item] }
  | [] => s.mapSpell fun u => { u with pending := [item] }

/-- An item joins at the head; a full list first loses its newest item, whose word becomes
UNCHECKABLE (R164). -/
def State.returnPending (s : State) (item : PendingItem) : State :=
  match s.spell.pending.getLast? with
  | some newest =>
    if Config.pendingCapacity ≤ s.spell.pending.length then
      (s.setWord newest.line newest.serial .uncheckable none).mapSpell fun u =>
        { u with pending := item :: u.pending.dropLast }
    else s.mapSpell fun u => { u with pending := item :: u.pending }
  | none => s.mapSpell fun u => { u with pending := [item] }

/-! ### Classification (R159, R160) -/

/-- A closed word is handed: its capital state is set, and then its state by the tests of R159. In
CONFLICT, in STANDBY and during a power warning no word is handed (R178): the word stays OPEN and the
pending list as it is, and the next segmentation of its line that finds the word closed outside them hands
it (R110; DEDUCED, logs 36 and 45). -/
def State.handWord (s : State) (line serial : Word) : State :=
  match s.lines.find line with
  | none => s
  | some l =>
    match l.words.find? (·.serial == serial) with
    | none => s
    | some w =>
      if s.handingSuspended then s else
      let s' := s.updateLine line fun l =>
        { l with words := l.words.map fun w =>
            if w.serial = serial then { w with capital := some (capitalOf (l.wordCodes serial)) }
            else w }
      if l.owner = .source1 ∨ l.owner = .source2 then s'.setWord line serial .skipped none
      else if s.spell.isOn = false then s'.setWord line serial .skipped none
      else if w.letters = 1 then s'.setWord line serial .skipped none
      else if 24 < w.length then s'.setWord line serial .uncheckable none
      else if s.spell.userWords.contains (l.foldedForm serial) then
        s'.setWord line serial .accepted none
      else if s.bus.usable .primary = false ∧ s.bus.usable .secondary = false then
        s'.setWord line serial .uncheckable none
      else
        ((s'.setWord line serial .pending none).appendPending ⟨line, serial, none⟩).takeItems

/-! ### Words that go away (R174) -/

/-- An ASKING slot of a word becomes DISCARDED; any other slot stays (R163, R174). -/
def Slot.discardWord (line serial : Word) : Slot → Slot
  | .asking q => if q.line = line ∧ q.serial = serial then .discarded q else .asking q
  | x => x

/-- The item of a word leaves the pending list, and its slot becomes DISCARDED (R163, R174). -/
def State.dropWord (s : State) (line serial : Word) : State :=
  s.mapSpell fun u =>
    { u with
      pending := u.pending.filter fun i => !(i.line == line && i.serial == serial)
      slots := u.slots.map (Slot.discardWord line serial) }

/-- Segment the line of a number, tell the Spelling Unit of the records removed, and hand the words
that are closed (R108 to R110). -/
def State.resegment (s : State) (number : Word) : State :=
  match s.lines.find number with
  | none => s
  | some l =>
    let g := l.segment s.lines.serialCounter
    let s1 := (s.updateLine number fun _ => g.line).mapLines fun ls =>
      { ls with serialCounter := g.counter }
    let s2 := g.removed.foldl (fun s serial => s.dropWord number serial) s1
    g.ready.foldl (fun s serial => s.handWord number serial) s2

/-! ### Outcomes of queries (R20, R168 to R170, R175) -/

/-- Write a record of the station table (R11). -/
def State.setStation (s : State) (n : StationNo) (r : Station) : State :=
  s.mapBus fun b => { b with table := b.table.set n r }

/-- One more query of a station unanswered; at 2 the record becomes LOST. A record that no longer
holds a dictionary role is not changed (R20). -/
def State.countUnanswered (s : State) (n : StationNo) : State :=
  let r := s.bus.table[n]
  if r.role = some .primary ∨ r.role = some .secondary then
    let count := min 2 (r.unanswered + 1)
    s.setStation n { r with unanswered := count, status := if count = 2 then .lost else r.status }
  else s

/-- A TAKEN outcome sets the count to 0 (R20). -/
def State.clearUnanswered (s : State) (n : StationNo) : State :=
  let r := s.bus.table[n]
  if r.role = some .primary ∨ r.role = some .secondary then
    s.setStation n { r with unanswered := 0 }
  else s

/-- An ASKING slot's query has failed: the word moves on to a candidate, or becomes UNCHECKABLE
(R170). -/
def State.queryFailed (s : State) (tag : Fin 4) (q : Query) : State :=
  match s.candidate (some q.stage) q.already with
  | some r => s.slotTakes tag q.line q.serial r (some q.stage)
  | none => (s.setWord q.line q.serial .uncheckable none).freeSlot tag

/-- A query has ended without an answer, by outcome or expiry: a DISCARDED slot becomes FREE (R175),
an ASKING one fails (R170). -/
def State.queryEnded (s : State) (tag : Fin 4) : State :=
  match s.spell.slots[tag] with
  | .free => s
  | .asking q => s.queryFailed tag q
  | .discarded _ => s.freeSlot tag

/-- The outcome of the QUERY of a slot (R20, then R168, R170, R175). -/
def State.queryOutcome (s : State) (dest : StationNo) (tag : Fin 4) : AnswerCode → State
  | .taken =>
    let s' := s.clearUnanswered dest
    match s'.spell.slots[tag] with
    | .free => s'
    | .asking q => s'.setSlot tag (.asking { q with phase := .waiting, expiryRunning := true })
    | .discarded q => s'.setSlot tag (.discarded { q with phase := .waiting, expiryRunning := true })
  | .busy =>
    match s.spell.slots[tag] with
    | .free => s
    | .asking q =>
      (((s.setSlot tag .free).setWord q.line q.serial .pending none).returnPending
        ⟨q.line, q.serial, q.already⟩).takeItems
    | .discarded _ => s.freeSlot tag
  | .refused => (s.countUnanswered dest).queryEnded tag
  | .absent => (s.countUnanswered dest).queryEnded tag

/-! ### Verdicts (R172, R173) -/

/-- Whether a verdict (1 KNOWN, 2 KNOWN-CAPITAL, 3 UNKNOWN) is acceptable for a capital state
(R172). -/
def acceptable (verdict : Nat) (c : Capital) : Bool :=
  verdict == 1 || (verdict == 2 && c != .lower)

/-- The capital state of a word by line number and serial. -/
def State.capitalState (s : State) (line serial : Word) : Capital :=
  (((s.lines.find line).bind fun l => l.words.find? (·.serial == serial)).bind (·.capital)).getD
    .lower

/-- A taken verdict for an ASKING slot (R172, R173). -/
def State.applyVerdict (s : State) (tag : Fin 4) (q : Query) (verdict : Nat) : State :=
  if acceptable verdict (s.capitalState q.line q.serial) then
    (s.setWord q.line q.serial .accepted none).freeSlot tag
  else
    match s.candidate (some q.stage) q.already with
    | some r => s.slotTakes tag q.line q.serial r (some q.stage)
    | none =>
      ((s.setWord q.line q.serial .flagged none).requestAlert .spell).freeSlot tag

/-- An ANSWER offered to the slot its tag names: the answer and the state after it (R171). -/
def State.offerAnswer (s : State) (sender : StationNo) (tag : Fin 4) (verdict : Nat) :
    AnswerCode × State :=
  match s.spell.slots[tag] with
  | .free => (.refused, s)
  | .asking q =>
    if q.station = sender ∧ q.phase = .waiting then (.taken, s.applyVerdict tag q verdict)
    else (.refused, s)
  | .discarded q =>
    if q.station = sender ∧ q.phase = .waiting then (.taken, s.freeSlot tag)
    else (.refused, s)

end Sys2Proof.Machine
end

