-- ==== Sys2Proof/Machine/Commit.lean ====
section
/-! DEFINITION. The Line Store at work (Chapter 5): the cursor and the window, the feeding mark,
commits and the ring, and the views of ring lines. -/

namespace Sys2Proof.Machine

/-! ### Cursor and window (R91, R184, R185) -/

/-- The window start brought to a cursor index (R185). -/
def windowFor (f c : Nat) : Nat :=
  if c < f then c - 8 else if f + 31 < c then c - 24 else f

/-- The cursor moves, and the window follows it (R185). -/
def State.setCursor (s : State) (c : Nat) : State :=
  (s.mapLines fun ls => { ls with cursor := c }).mapDisp fun d =>
    { d with window := windowFor d.window c }

/-- Another line record is displayed: the window start becomes 0, then follows the cursor (R184). -/
def State.showFrom (s : State) (depth c : Nat) : State :=
  ((s.mapLines fun ls => { ls with viewDepth := depth }).mapDisp fun d =>
    { d with window := 0 }).setCursor c

/-- Change the current line. -/
def State.mapCurrent (s : State) (f : Line → Line) : State :=
  s.mapLines fun ls => { ls with current := f ls.current }

/-- Give the line of a number new entries; the cursor keeps its place if that line is displayed
(R91). -/
def State.setEntries (s : State) (number : Word) (es : List Entry) : State :=
  let shown := s.lines.displayed
  let s' := s.updateLine number fun l => { l with entries := es }
  if shown.number = number then
    s'.setCursor (keepCursor shown.live (es.filter Entry.live) s.lines.cursor)
  else s'

/-- The bell check of the current line (R65). -/
def State.bellCheck (s : State) : State :=
  if s.lines.current.owner = .keyboard ∧ s.esc.bellRung = false ∧
      s.esc.right < s.typingPoint + Config.bellZone then
    (s.mapEsc fun e => { e with bellRung := true }).requestAlert .bell
  else s

/-! ### The feeding mark (R102) -/

/-- Set the feeding mark. -/
def State.setMark (s : State) (m : Option FeedMark) : State := s.mapLines fun ls => { ls with mark := m }

/-- The place of the mark after an entry is done: the next HELD entry, then the final FEED, for a
committed line; absent for a line not committed (R102). -/
def nextMark (m : FeedMark) (l : Line) : Option FeedMark :=
  match m.final with
  | none => none
  | some _ =>
    match l.entries.find? fun e => e.strike == some .held with
    | some e => some { m with place := .action e.id 0 }
    | none => some { m with place := .finalFeed }

/-- The mark moves on when the entry it names has gone or become LIFTING (R102). -/
def State.fixMark (s : State) : State :=
  match s.lines.mark with
  | none => s
  | some m =>
    match m.place with
    | .finalFeed => s
    | .action id _ =>
      match s.lines.find m.line with
      | none => s.setMark none
      | some l =>
        if ((l.entry? id).map Entry.live).getD false then s else s.setMark (nextMark m l)

/-- Enqueue the action that the mark names and move the mark on (R102). -/
def State.feedOne (s : State) (m : FeedMark) : State :=
  match m.place with
  | .finalFeed =>
    match m.final with
    | some (d, x) => (s.enqueue [.feed d x]).setMark none
    | none => s.setMark none
  | .action id sub =>
    match s.lines.find m.line with
    | none => s.setMark none
    | some l =>
      match l.entry? id with
      | none => s.setMark (nextMark m l)
      | some e =>
        let begun (x : Entry) : Entry :=
          if x.id = id ∧ x.strike = some .held then s.beginEntry l.number x else x
        let e' := begun e
        let l' := { l with entries := l.entries.map begun }
        let s' := s.updateLine l.number fun l => { l with entries := l.entries.map begun }
        match (e'.blows l.number)[sub]? with
        | none => s'.setMark (nextMark m l')
        | some b =>
          (s'.enqueue [.strike b]).setMark
            (if sub + 1 < e'.total then some { m with place := .action id (sub + 1) }
             else nextMark m l')

/-- While a place is free and the mark is present, feed; the number bounds the actions. -/
def State.pumpUpTo (s : State) : Nat → State
  | 0 => s
  | n + 1 =>
    match s.lines.mark with
    | none => s
    | some m => if s.freePlaces = 0 then s else (s.feedOne m).pumpUpTo n

/-- The Line Store enqueues from the feeding mark while places are free (R102). -/
def State.pump (s : State) : State := s.pumpUpTo (2 * Config.printCapacity)

/-- The mechanism stands before a head that it cannot start (R117). -/
def MechState.heldUp : MechState → Bool
  | .paused => true
  | .waitingWheel => true
  | _ => false

/-- An action has completed, homing or a WHEEL-READ has, or actions have joined: the mark feeds into
free places, and the head is examined if the mechanism has nothing in execution (R102, R113, R117). A
mechanism that is PAUSED or WAITING-WHEEL is not examined for actions that join: its queue is not empty,
or its open cover decides again, and what ends these states (a withdrawn head, the close of the cover,
the ribbon, the end of the hold) has the head examined by itself. -/
def State.settle (s : State) : State :=
  if s.seq.mech.heldUp then s.pump else s.pump.examineHead

/-- The strikes an entry has, or would get now (R102, R114). -/
def State.strikeCount (s : State) (line : Word) (e : Entry) : Nat :=
  (e.strikeList (e.underscore.getD (s.underscoreWidth line e.id))).length

/-- The outstanding count: the actions from the mark onward (R102). -/
def State.outstanding (s : State) : Nat :=
  match s.lines.mark with
  | none => 0
  | some m =>
    match m.place with
    | .finalFeed => 1
    | .action id sub =>
      match s.lines.find m.line with
      | none => 0
      | some l =>
        let here := ((l.entry? id).map fun e => s.strikeCount l.number e - sub).getD 0
        match m.final with
        | none => here
        | some _ =>
          here + 1 + ((l.entries.filter fun e => e.strike == some .held && e.id != id).map
            (s.strikeCount l.number)).sum

/-- The room available to a key (R102). -/
def State.room (s : State) : Nat := s.freePlaces - s.outstanding

/-! ### Commit and the ring (R99 to R103) -/

/-- The oldest line leaves a ring that holds more than three, and the Spelling Unit is told of each
of its words (R103). -/
def State.ringOverflow (s : State) : State :=
  match s.lines.ring with
  | [] => s
  | oldest :: rest =>
    if Config.ringCapacity < s.lines.ring.length then
      oldest.words.foldl (fun s w => s.dropWord oldest.number w.serial)
        (s.mapLines fun ls => { ls with ring := rest })
    else s

/-- The mode a keyboard line or a line without an owner takes (R93, R99). -/
def LineStore.keyboardMode (ls : LineStore) : Mode := if ls.hold then .hold else .direct

/-- The next entry id of a line that begins with carried entries (R70 step 4). -/
def carriedNextId : List Entry → Nat
  | [] => 0
  | e :: es => es.foldl (fun n x => max n x.id) e.id + 1

/-- The line opened by a commit, with the carried entries at its start (R70, R83, R99 step 5). -/
def State.openedLine (s : State) (old : Line) (carried : List Entry) : Line where
  number := s.lines.nextLine
  owner := old.owner
  start := s.esc.left
  offset := old.offset + BitVec.ofNat 16 s.esc.spacing
  mode := if old.owner.source.isSome then .hold else s.lines.keyboardMode
  state := .opened
  entries := shiftFrom s.esc.left carried
  words := []
  nextId := carriedNextId carried

/-- The place of the mark at a commit: kept if it already names an entry of the line, else the first
HELD entry or the final FEED (R102). -/
def commitPlace (mark : Option FeedMark) (l : Line) : MarkPlace :=
  match mark with
  | some m => if m.line = l.number then m.place else firstPlace
  | none => firstPlace
where
  /-- the first HELD entry's first action, or the final FEED -/
  firstPlace : MarkPlace :=
    match l.entries.find? fun e => e.strike == some .held with
    | some e => .action e.id 0
    | none => .finalFeed

/-- A commit (R99). The wrap or break has taken the carried run out of the line before it. -/
def State.commit (s : State) (carried : List Entry) : State :=
  let number := s.lines.current.number
  let s1 := (s.mapCurrent fun l => { l with state := .committed }).resegment number
  let old := s1.lines.current
  let fresh := s1.openedLine old carried
  let mark : FeedMark :=
    ⟨number, commitPlace s1.lines.mark old, some (Int.ofNat s1.esc.spacing, fresh.start)⟩
  let s2 := s1.mapLines fun ls =>
    { ls with mark := some mark, ring := ls.ring ++ [old], current := fresh,
              nextLine := ls.nextLine + 1 }
  let s3 := s2.mapEsc fun e => { e with paperOffset := fresh.offset, bellRung := false }
  (s3.ringOverflow.showFrom 0 fresh.live.length).settle

/-- A wrap commit by R69 or R70: trailing spaces are dropped (log 18), the line is justified when R74
allows, and committed. A trailing underlined SPACE of a reopened line that is QUEUED is dropped too: its
STRIKEs stay in the print queue and run, and their completions find no entry (R90). R70 says that dropped
spaces are not printed, and R113 gives withdrawal to the Correction Unit alone (DESIGN CHOICE, log 55). -/
def State.wrapCommit (s : State) (remaining carried : List Entry) : State :=
  (s.mapCurrent fun l =>
    justifyLine s.esc.justify s.esc.right s.wheel.mounted
      { l with entries := trimLine remaining }).commit carried

/-- A break (R71, R89): the line is committed as it stands, trailing spaces dropped, not
justified. A source's line is never reopened (R104), so the SPACEs it drops have no STRIKE in the print
queue but in a state that no run reaches (log 55). -/
def State.breakCommit (s : State) : State :=
  (s.mapCurrent fun l => { l with entries := trimLine l.entries }).commit []

/-! ### Views (R105 to R107) -/

/-- The cursor index in a line for a reference column: before the first live entry that ends beyond
it, or at the end (R105 step 3). -/
def Line.indexAt (l : Line) (x : Nat) : Nat :=
  (l.live.findIdx? fun e => x < e.endPos).getD l.live.length

/-- The view moves to a depth: the cursor at the reference column, a FEED and a MOVE (R105, R106). -/
def State.viewTo (s : State) (depth : Nat) : State :=
  let from_ := s.lines.displayed
  let x := s.cursorPoint
  let to_ := (s.lines.ringAt depth).getD s.lines.current
  let c := to_.indexAt x
  ((s.showFrom depth c).enqueue
    [.feed (signedDiff to_.offset from_.offset) x, .move (to_.point c)]).settle

/-- The actions that RELOCATE enqueues (R107). -/
def State.relocateActions (s : State) : List Action :=
  if s.lines.viewDepth = 0 then
    if s.lines.current.mode = .direct then [.move s.typingPoint] else []
  else
    [.feed (signedDiff s.lines.current.offset s.lines.displayed.offset) s.cursorPoint,
      .move s.typingPoint]

/-- RELOCATE, and CLEAR outside HALTED (R107). -/
def State.relocated (s : State) : State :=
  let s' :=
    if s.lines.viewDepth = 0 then s.setCursor s.lines.current.live.length
    else s.showFrom 0 s.lines.current.live.length
  (s'.enqueue s.relocateActions).settle

end Sys2Proof.Machine
end

