-- ==== Sys2Proof/Machine/Ownership.lean ====
section
/-! DEFINITION. Line ownership and the head of the key queue (Chapter 2): the arbiter, the lapse of
the keyboard, the close of a job, and how a key at the head is taken, refused or left to wait. -/

namespace Sys2Proof.Machine

/-! ### The arbiter (R39) -/

/-- The owner changes: it is written to the current line and told to the Bus Interface (R22, R39,
R41). A source's line is HOLD; with no owner the mode is that of the HOLD setting. -/
def State.setOwner (s : State) (o : Owner) : State :=
  let s' := (s.mapIntake fun i => { i with owner := o }).mapCurrent fun l =>
    { l with
      owner := o
      mode := match o with
        | .source1 => .hold
        | .source2 => .hold
        | .none => s.lines.keyboardMode
        | .keyboard => l.mode }
  s'.triggerReport .plain

/-- The head key claims the line for the keyboard (R39). -/
def Intake.keyboardClaims (i : Intake) : Bool := (i.keys.head?.map fun k => claimsLine k.code).getD false

/-- While the owner is none, grant the line to the first claimant in the order KEYBOARD, SOURCE-1,
SOURCE-2 (R39). -/
def State.arbitrate (s : State) : State :=
  if s.intake.owner ≠ .none then s
  else if s.intake.keyboardClaims then s.setOwner .keyboard
  else if s.intake.src1.slot.isSome then s.setOwner .source1
  else if s.intake.src2.slot.isSome then s.setOwner .source2
  else s

/-- An ownership ends: the owner becomes none and the claims are examined (R40, R41). -/
def State.releaseLine (s : State) : State := (s.setOwner .none).arbitrate

/-! ### The lapse of the keyboard (R40) -/

/-- The key queue holds a printing key (R40). -/
def Intake.hasPrintingKey (i : Intake) : Bool := i.keys.any fun k => isPrintingKey k.code

/-- The key queue holds a printing key or a line key (R40). -/
def Intake.hasLineWork (i : Intake) : Bool := i.keys.any fun k => claimsLine k.code

/-- The keyboard is left with an empty line and no key that would use it (R40, second case). -/
def State.lapsesEmpty (s : State) : Bool :=
  s.intake.owner == .keyboard && s.lines.current.entries.isEmpty && s.lines.viewDepth == 0 &&
    !s.intake.hasLineWork

/-- The keyboard has just committed, the new line is empty, and no printing key waits (R40, first
case). -/
def State.lapsesCommitted (s : State) : Bool :=
  s.intake.owner == .keyboard && s.lines.current.entries.isEmpty && !s.intake.hasPrintingKey

/-- The keyboard's role is not usable and no key of it would use the line (R40, third case). -/
def State.lapsesLost (s : State) : Bool :=
  s.intake.owner == .keyboard && !s.bus.usable .keyboard && !s.intake.hasLineWork

/-- The third case of R40 carried as far as it need not wait: the view is returned when there is
room, a line with entries is committed soft-ended when no other line is feeding, and then the lapse is
made. What waits is made by a later KEYBOARD_LAPSE (log 9). -/
def State.lapseLost (s : State) : State :=
  if s.lines.viewDepth ≠ 0 ∧ s.room < s.relocateActions.length then s
  else
    let s1 := if s.lines.viewDepth = 0 then s else s.relocated
    if s1.lines.current.entries.isEmpty then s1.releaseLine
    else if s1.lineFeeding then s1
    else (s1.commit []).releaseLine

/-- The lapses examined after a key has been consumed (R40), and then the claims (R39). -/
def State.afterKey (s : State) (committed : Bool) : State :=
  if committed && s.lapsesCommitted then s.releaseLine
  else if s.lapsesEmpty then s.releaseLine
  else if s.lapsesLost then s.lapseLost
  else s.arbitrate

/-! ### Jobs (R35, R38, R41) -/

/-- An ENDING job's close, if nothing makes it wait (R35): its line is committed soft-ended when it
has live entries, the job is recorded as closed, and its ownership ends. While another line is
feeding the commit waits for a later JOB_CLOSE (log 9). -/
def State.closeJob (s : State) (n : SourceNo) : State :=
  match (s.intake.src n).job with
  | .ending id last =>
    let closed (s : State) : State := s.mapIntake fun i =>
      i.mapSrc n fun r => { r with job := .idle, closedJob := some (id, last) }
    if s.intake.owner ≠ ownerOf n then closed s
    else if s.lines.current.live.isEmpty then (closed s).releaseLine
    else if s.lineFeeding then s
    else (closed (s.commit [])).releaseLine
  | _ => s

/-- A job becomes ENDING and closes if it need not wait (R35, R36, R37). -/
def State.endJob (s : State) (n : SourceNo) (id last : Nat) : State :=
  (s.mapIntake fun i => i.mapSrc n fun r =>
    { r with job := .ending id last, idleRunning := false }).closeJob n

/-- A source role has stopped being usable (R37). -/
def State.sourceLost (s : State) (n : SourceNo) : State :=
  let s' := s.mapIntake fun i => i.mapSrc n fun r => { r with slot := none, idleRunning := false }
  match (s'.intake.src n).job with
  | .opened id last =>
    if s'.intake.owner = ownerOf n then s'.endJob n id last
    else s'.mapIntake fun i => i.mapSrc n fun r => { r with job := .idle }
  | _ => s'

/-! ### The head key (R28 to R32) -/

/-- What examining the head key gives. -/
inductive KeyOutcome where
  /-- the key waits at the head (R29) -/
  | wait
  /-- the key is refused, with the message its chapter names (R32) -/
  | refuse (m : Option Message)
  /-- the key is taken; `committed` says that its effect committed a line -/
  | take (s : State) (committed : Bool)

/-- The head key leaves the queue and ends the transient message (R24, R187). -/
def State.popKey (s : State) : State :=
  (s.mapIntake fun i => { i with keys := i.keys.tail }).endMessage

/-- Show a message if one is named. -/
def State.showOptional (s : State) (m : Option Message) : State :=
  match m with
  | some m => s.showMessage m
  | none => s

/-- A key refused at the head (R32): REFUSE sounds unless it is a repeat, and its message is shown. -/
def State.refuseKey (s : State) (k : Keystroke) (m : Option Message) : State :=
  let s1 := s.popKey
  let s2 := if k.isRepeat then s1 else s1.requestAlert .refuse
  (s2.showOptional m).afterKey false

/-- The head key's outcome carried out. -/
def State.carryKey (s : State) (k : Keystroke) : KeyOutcome → State
  | .wait => s
  | .refuse m => s.refuseKey k m
  | .take t committed => t.afterKey committed

/-- A key that needs the line claims it while the owner is none (R28). -/
def State.claimLine (s : State) (k : Keystroke) : State :=
  if claimsLine k.code then s.arbitrate else s

/-- Intake examines the head key, for the row of the key codes `ours` and the effect `act` of the
key's chapter, which is worked out on the state without the key. In HALTED all keys but CLEAR are
refused (R30); while a source owns the line R31 decides. A head key of another row is not this row's
step, and while consumption is suspended no key is examined (R26): the state stays (log 2). -/
def State.examineKey (s : State) (ours : Nat → Bool) (act : Keystroke → State → KeyOutcome) : State :=
  match s.intake.keys with
  | [] => s
  | k :: _ =>
    if s.stopped || s.keysSuspended || !ours k.code then s
    else if s.machine = .halted ∧ k.code ≠ clearCode then s.refuseKey k none
    else if s.intake.owner.source.isSome ∧ allowedUnderSource k.code = false then s.refuseKey k none
    else
      let s1 := s.claimLine k
      s1.carryKey k (act k s1.popKey)

/-- A setting key that is always taken, with its effect. -/
def takeAlways (f : State → State) (_ : Keystroke) (s : State) : KeyOutcome := .take (f s) false

/-- Whether a key has room for the actions its effect enqueues; more than the queue holds need a
room of the whole queue (R29, R95). -/
def State.hasRoom (s : State) (n : Nat) : Bool := decide (min n Config.printCapacity ≤ s.room)

end Sys2Proof.Machine
end

