-- ==== Sys2Proof/Machine/Bus.lean ====
section
/-! DEFINITION. The commands of the station bus (Chapter 1), with the offers to Intake (R25, R34) and
to the Spelling Unit (R171): sending, receiving, the roll call, and the answer expiry. -/

namespace Sys2Proof.Machine

/-! ### The answer slot -/

/-- What the controller drives in the answer slot of the frame last received (R5, R7). -/
def State.answerWith (s : State) (a : AnswerCode) : State := s.mapBus fun b => { b with answer := a }

/-- A frame is received: in CONFLICT it is discarded without an answer (R7, R14), otherwise it is
dealt with. A stopped controller receives nothing (log 13). -/
def State.receive (s : State) (f : State → State) : State :=
  s.whenRunning fun s => if s.bus.conflict then s.answerWith .absent else f s

/-- The answer and the state after an offer to an owning unit (R9). -/
def answered (r : AnswerCode × State) : State := r.2.answerWith r.1

/-! ### CONFLICT (R14) -/

/-- The answer expiry of a slot stops (R178). -/
def Slot.stopExpiry : Slot → Slot
  | .free => .free
  | .asking q => .asking { q with expiryRunning := false }
  | .discarded q => .discarded { q with expiryRunning := false }

/-- The controller enters CONFLICT (R14, R178, R188, R189). -/
def State.enterConflict (s : State) : State :=
  ((s.mapBus fun b =>
      { b with
        queue := [], sending := none, heldReport := none, conflict := true
        window := if b.window = .closed then .closed else .abandoned }).mapSpell fun u =>
      { u with slots := u.slots.map Slot.stopExpiry }).mapDisp fun d =>
    { d with transient := none, standing := { d.standing with conflict := true } }

/-! ### Sending (R2, R3) -/

/-- FRAME_SEND_START (R2): the frame on offer is sent at the position that equals its wait. -/
def execFrameSendStart (position : Nat) (s : State) : Host.Outcome State Fault Refusal :=
  .next (s.whenRunning fun s =>
    if s.bus.conflict ∨ s.bus.sending.isSome then s
    else
      match frameOnOffer s.bus.queue with
      | none => s
      | some i =>
        match s.bus.queue[i]? with
        | none => s
        | some f =>
          if frameWait f.cls s.bus.own = position then
            s.mapBus fun b => { b with sending := some i }
          else s)

/-- What follows when a frame has been sent to its end (R3, R12, R20, R22). -/
def State.afterSent (s : State) (outcome : AnswerCode) : OutFrame → State
  | .roll =>
    s.mapBus fun b => { b with window := if b.window = .notOpen then .opened else b.window }
  | .summary _ => s
  | .query dest tag _ => s.queryOutcome dest tag outcome
  | .report _ =>
    match s.bus.heldReport with
    | none => s
    | some c => (s.mapBus fun b => { b with heldReport := none }).triggerReport c

/-- FRAME_SENT (R3): the frame leaves the queue, and its outcome goes to the unit that enqueued
it. -/
def execFrameSent (outcome : AnswerCode) (s : State) : Host.Outcome State Fault Refusal :=
  .next (s.whenRunning fun s =>
    match s.bus.sending with
    | none => s
    | some i =>
      match s.bus.queue[i]? with
      | none => s
      | some f =>
        (s.mapBus fun b => { b with queue := b.queue.eraseIdx i, sending := none }).afterSent outcome f)

/-- SEND_MISMATCH (R3, R14). -/
def execSendMismatch (s : State) : Host.Outcome State Fault Refusal :=
  .next (s.whenRunning fun s => if s.bus.sending.isSome then s.enterConflict else s)

/-! ### Frames that reach no unit (R6, R7, R8, R10) -/

/-- Bytes received: when the rules of Chapter 1 make them the command `c`, the answer slot carries
`a`; bytes that are another command's are not this row's step (log 2). -/
def State.received (s : State) (bytes : List Byte) (c : Instr) (a : AnswerCode) : State :=
  s.receive fun s => if commandOfFrame s.bus.own bytes = c then s.answerWith a else s

/-- FRAME_CHECK_FAILED (R6): discarded, the answer slot silent. -/
def execFrameCheckFailed (bytes : List Byte) (s : State) : Host.Outcome State Fault Refusal :=
  .next (s.received bytes (.frameCheckFailed bytes) .absent)

/-- REFUSED_FRAME (R8). -/
def execRefusedFrame (bytes : List Byte) (s : State) : Host.Outcome State Fault Refusal :=
  .next (s.received bytes (.refusedFrame bytes) .refused)

/-- DISCARDED_BROADCAST (R10). -/
def execDiscardedBroadcast (bytes : List Byte) (s : State) : Host.Outcome State Fault Refusal :=
  .next (s.received bytes (.discardedBroadcast bytes) .absent)

/-- QUERY_LEFT_TO_DICTIONARY (R7). -/
def execQueryLeftToDictionary (bytes : List Byte) (s : State) : Host.Outcome State Fault Refusal :=
  .next (s.received bytes (.queryLeftToDictionary bytes) .absent)

/-! ### The wake (R201) -/

/-- A key or a block taken in STANDBY starts the wake, once. -/
def State.startWake (s : State) : State :=
  if s.supply.power = .standby ∧ s.supply.wakeMark = false then
    (((s.mapSupply fun u => { u with wakeMark := true }).panelOn).mapWheel fun w =>
      { w with ribbon := s.pins.ribbon }).startHoming .wake
  else s

/-! ### KEY (R9, R25) -/

/-- A keystroke joins the tail of the key queue; one that reaches the head is a claim to examine
(R25, R39), and one taken in STANDBY starts the wake (R201). -/
def State.takeKeystroke (s : State) (k : Keystroke) : State :=
  let s1 := s.mapIntake fun i => { i with keys := i.keys ++ [k] }
  (if s.intake.keys.isEmpty then s1.arbitrate else s1).startWake

/-- The answer to a KEY frame, in the order of R8, R9 and R25. -/
def State.offerKey (s : State) (sender : StationNo) (code repeatFlag : Nat) : AnswerCode × State :=
  if keyFieldsOk code repeatFlag = false then (.refused, s)
  else if s.rolesUnsettled then (.busy, s)
  else if s.bus.adoptedRole sender ≠ some .keyboard then (.refused, s)
  else if s.machine = .powerWarn then (.busy, s)
  else if Config.keyCapacity ≤ s.intake.keys.length then (.busy, s)
  else (.taken, s.takeKeystroke ⟨code, repeatFlag == 1⟩)

/-- KEY (R25). -/
def execKey (sender : StationNo) (code repeatFlag : Nat) (s : State) :
    Host.Outcome State Fault Refusal :=
  .next (s.receive fun s => answered (s.offerKey sender code repeatFlag))

/-! ### TEXT (R9, R34) -/

/-- The source whose role the sender holds, adopted (R9). -/
def State.sourceOf (s : State) (sender : StationNo) : Option SourceNo :=
  match s.bus.adoptedRole sender with
  | some .source1 => some .source1
  | some .source2 => some .source2
  | _ => none

/-- A block is held in the slot of a source: the idle expiry stops, the claim is examined (R39), and
in STANDBY the wake starts (R34, R201). -/
def State.holdBlock (s : State) (n : SourceNo) (b : TextBlock) : State :=
  (s.mapIntake fun i => i.mapSrc n fun r =>
    { r with slot := some ⟨b, 0⟩, idleRunning := false }).arbitrate.startWake

/-- The record of a source with its job open at this block (R34 cases 6 and 9). -/
def State.jobAt (s : State) (n : SourceNo) (b : TextBlock) : State :=
  s.mapIntake fun i => i.mapSrc n fun r => { r with job := .opened b.job b.seq }

/-- A block offered to the slot and job of a source, by the ten cases of R34. A FIRST block of the closed
job's id with another sequence opens a job by case 9, although R35 has every such block refused (DESIGN
CHOICE, log 51). -/
def State.offerBlock (s : State) (n : SourceNo) (b : TextBlock) : AnswerCode × State :=
  let r := s.intake.src n
  if s.machine = .powerWarn then (.busy, s)
  else if b.job = r.stoppedJob then (.refused, s)
  else
    match r.job with
    | .ending _ _ => (.busy, s)
    | .opened id last =>
      if r.slot.isSome then (.busy, s)
      else if b.job = id ∧ b.seq = last then (.taken, s)
      else if b.job = id ∧ b.seq = (last + 1) % 256 then (.taken, (s.jobAt n b).holdBlock n b)
      else (.refused, s)
    | .idle =>
      if r.slot.isSome then (.busy, s)
      else if r.closedJob = some (b.job, b.seq) then (.taken, s)
      else if b.first then
        (.taken, ((s.jobAt n b).mapIntake fun i => i.mapSrc n fun r =>
          { r with bold := false, underline := false }).holdBlock n b)
      else (.refused, s)

/-- The answer to a TEXT frame, in the order of R8, R9 and R34. -/
def State.offerText (s : State) (sender : StationNo) (b : TextBlock) : AnswerCode × State :=
  if textFieldsOk b = false then (.refused, s)
  else if s.rolesUnsettled then (.busy, s)
  else
    match s.sourceOf sender with
    | none => (.refused, s)
    | some n => s.offerBlock n b

/-- TEXT (R34). -/
def execText (sender : StationNo) (b : TextBlock) (s : State) : Host.Outcome State Fault Refusal :=
  .next (s.receive fun s => answered (s.offerText sender b))

/-! ### ANSWER (R9, R171) -/

/-- Whether a sender is an adopted dictionary (R9). -/
def State.isDictionary (s : State) (sender : StationNo) : Bool :=
  s.bus.adoptedRole sender == some .primary || s.bus.adoptedRole sender == some .secondary

/-- ANSWER (R171). -/
def execAnswer (sender : StationNo) (tag verdict : Nat) (s : State) :
    Host.Outcome State Fault Refusal :=
  .next (s.receive fun s => answered (
    if answerFieldsOk tag verdict && s.isDictionary sender then
      s.offerAnswer sender (Fin.ofNat 4 tag) verdict
    else (.refused, s)))

/-! ### ROLL (R13, R14, R17, R18, R19) -/

/-- A record after a ROLL heard before the roll window closes (R13). -/
def Station.inWindow (r : Station) (kind first second : Nat) : Station :=
  match r.status, stationKindOf kind with
  | .absent, some k => ⟨some k, first, second, .adopted, none, 0⟩
  | .adopted, some k =>
    if r.kind = some k then { r with ability1 := first, ability2 := second }
    else { r with kind := none, status := .ignored }
  | .adopted, none => .unheard
  | _, _ => r

/-- A record after a ROLL heard after the window has closed (R17, R18). -/
def Station.afterWindow (r : Station) (kind first second : Nat) : Station :=
  match r.status, stationKindOf kind with
  | .absent, some k => ⟨some k, first, second, .late, none, 0⟩
  | .absent, none => r
  | .ignored, _ => r
  | .late, some k => { r with kind := some k, ability1 := first, ability2 := second }
  | .late, none => .unheard
  | _, some k =>
    if r.kind = some k ∧ r.ability1 = first ∧ r.ability2 = second then
      { r with status := .adopted, unanswered := 0 }
    else ⟨some k, first, second, .late, none, 0⟩
  | _, none => { r with status := .lost, unanswered := 2 }

/-- A role's usability has changed: the units concerned are told (R19). What the Spelling Unit and the
annunciators are told is read off the table when it is needed (log 26). A line that a lost keyboard or
source leaves is committed in STANDBY and in a power warning too (R37, R40); no word of it is handed there
(R178; DEDUCED, log 45). -/
def State.tellUsability (s : State) (old : Bus) : State :=
  let s1 :=
    if old.usable .keyboard = s.bus.usable .keyboard then s
    else
      let t := s.tellKeyboard
      if t.lapsesLost then t.lapseLost else t
  let s2 := if old.usable .source1 && !s.bus.usable .source1 then s1.sourceLost .source1 else s1
  if old.usable .source2 && !s.bus.usable .source2 then s2.sourceLost .source2 else s2

/-- A ROLL from another station changes its record, and the units concerned are told (R13, R17 to
R19). -/
def State.takeRoll (s : State) (sender : StationNo) (kind first second : Nat) : State :=
  let r := s.bus.table[sender]
  let r' :=
    if s.bus.window = .closed then r.afterWindow kind first second
    else r.inWindow kind first second
  (s.setStation sender r').tellUsability s.bus

/-- ROLL (R17): a broadcast has no answer slot; one from the controller's own number causes CONFLICT
whatever its contents (R14); one with fields out of range is discarded (R10). -/
def execRoll (sender : StationNo) (kind first second : Nat) (s : State) :
    Host.Outcome State Fault Refusal :=
  .next (s.receive fun s =>
    let s := s.answerWith .absent
    if sender = s.bus.own then s.enterConflict
    else if rollFieldsOk kind first second then s.takeRoll sender kind first second
    else s)

/-! ### The close of the roll window (R15, R16) -/

/-- The lowest-numbered record, other than the controller's own, of status ADOPTED and of a kind, that
a further test accepts (R15). -/
def Bus.lowestOf (b : Bus) (k : StationKind) (p : StationNo → Bool) : Option StationNo :=
  stationNumbers.find? fun n =>
    n != b.own && b.table[n].status == .adopted && b.table[n].kind == some k && p n

/-- The station that gets each role at the close of the window (R15). -/
def Bus.choose (b : Bus) : Role → Option StationNo
  | .keyboard => b.lowestOf .keyboard fun _ => true
  | .primary => b.lowestOf .dictionary fun _ => true
  | .secondary =>
    match b.lowestOf .dictionary fun _ => true with
    | none => none
    | some p => b.lowestOf .dictionary fun n =>
        n != p && b.table[n].ability1 == b.table[p].ability1
  | .source1 => b.lowestOf .source fun _ => true
  | .source2 =>
    match b.lowestOf .source fun _ => true with
    | none => none
    | some p => b.lowestOf .source fun n => n != p

/-- The five roles. -/
def allRoles : List Role := [.keyboard, .primary, .secondary, .source1, .source2]

/-- The role a station gets (R15). -/
def Bus.roleFor (b : Bus) (n : StationNo) : Option Role := allRoles.find? fun r => b.choose r == some n

/-- A record at the close of the window: every adopted record but the controller's own gets its role
or becomes IGNORED (R15). -/
def Bus.recordAtClose (b : Bus) (n : StationNo) : Station :=
  let r := b.table[n]
  if n = b.own ∨ r.status ≠ .adopted then r
  else
    match b.roleFor n with
    | some role => { r with role := some role, unanswered := 0 }
    | none => { r with status := .ignored }

/-- The table and the machine language after R15. -/
def Bus.giveRoles (b : Bus) : Bus :=
  { b with
    table := Vector.ofFn b.recordAtClose
    language := (b.choose .primary).map fun p => b.table[p].ability1
    window := .closed }

/-- The pairs of the SUMMARY, in increasing station number (R16). -/
def Bus.summaryPairs (b : Bus) : List (StationNo × Nat) :=
  stationNumbers.filterMap fun n =>
    if n = b.own then some (n, 0) else b.table[n].role.map fun r => (n, r.code)

/-- STARTING is left when the roll call and the homing are both complete (R16, R202 step 6). During a
power warning only the panel becomes ON. -/
def State.leaveStarting (s : State) : State :=
  if s.supply.rollCallDone && s.supply.homingDone then
    match s.supply.power with
    | .starting => (s.setPower .run).panelOn
    | .powerWarn => if s.supply.prior = .starting then s.panelOn else s
    | _ => s
  else s

/-- The roll call ends (R15, R16): the roles are given, a SUMMARY is enqueued, the Display Unit learns
whether there is a keyboard and the Spelling Unit which dictionaries there are, and Supply and Standby
is told. -/
def State.closeRollCall (s : State) : State :=
  let s1 := s.mapBus Bus.giveRoles
  let s2 := s1.enqueueFrame (.summary s1.bus.summaryPairs)
  let s3 := s2.mapSpell fun u =>
    { u with hadPrimary := s1.bus.usable .primary, hadSecondary := s1.bus.usable .secondary }
  (s3.tellKeyboard.mapSupply fun u => { u with rollCallDone := true }).leaveStarting

/-- ROLL_WINDOW_CLOSE (R15). -/
def execRollWindowClose (s : State) : Host.Outcome State Fault Refusal :=
  .next (s.whenRunning fun s => if s.bus.window = .opened then s.closeRollCall else s)

/-! ### ANSWER_EXPIRY (R169) -/

/-- The query of a slot whose answer expiry runs. -/
def Slot.expiring : Slot → Option Query
  | .free => none
  | .asking q => if q.phase = .waiting ∧ q.expiryRunning = true then some q else none
  | .discarded q => if q.phase = .waiting ∧ q.expiryRunning = true then some q else none

/-- ANSWER_EXPIRY (R169, R170, R175): the station's count grows first, then the slot is dealt with. -/
def execAnswerExpiry (tag : Fin 4) (s : State) : Host.Outcome State Fault Refusal :=
  .next (s.whenRunning fun s =>
    match s.spell.slots[tag].expiring with
    | none => s
    | some q =>
      ((s.setSlot tag s.spell.slots[tag].stopExpiry).countUnanswered q.station).queryEnded tag)

end Sys2Proof.Machine
end

