-- ==== Sys2Proof/Machine/Compose.lean ====
section
/-! DEFINITION. How an entry comes into a line (Chapters 4 and 5): appended in direct mode, appended
to a composed line, carried over by a wrap or a break, inserted, or filled; shared by keys and text. -/

namespace Sys2Proof.Machine

/-! ### Appending -/

/-- The cursor goes to the end of the current line (R95). -/
def State.cursorToEnd (s : State) : State := s.setCursor s.lines.current.live.length

/-- A HELD or plain entry is appended to the current composed line; the bell is checked and the line
segmented (R65, R69, R108). -/
def State.appendComposed (s : State) (kind : EntryKind) (advance : Nat) (underline : Bool) : State :=
  let s1 := s.mapCurrent fun l =>
    { l with
      entries := l.entries ++ [newEntry l.nextId kind l.endPoint advance underline]
      nextId := l.nextId + 1 }
  (s1.cursorToEnd.bellCheck).resegment s.lines.current.number

/-- The feeding mark for an entry of more actions than the print queue holds (R95). -/
def State.markRest (s : State) (number : Word) (id count : Nat) : State :=
  if Config.printCapacity < count then
    s.setMark (some ⟨number, .action id Config.printCapacity, none⟩)
  else s

/-- An entry with its actions is appended to the current line in direct mode (R95). -/
def State.appendPrinted (s : State) (e : Entry) : State :=
  let number := s.lines.current.number
  let as := e.actions number
  let s1 := s.mapCurrent fun l => { l with entries := l.entries ++ [e], nextId := l.nextId + 1 }
  let s2 := (s1.enqueue (as.take Config.printCapacity)).markRest number e.id as.length
  ((s2.cursorToEnd.bellCheck).resegment number).settle

/-- A key's entry at the end of a direct-mode line: the right limit (R66), the capacity (R89), the
room (R29, R95), then the append. -/
def appendDirect (kind : EntryKind) (advance : Nat) (s : State) : KeyOutcome :=
  let l := s.lines.current
  if s.rightLimit l.owner < s.typingPoint + advance then .refuse (some .lineFull)
  else if l.canMake = false then .refuse (some .lineFull)
  else
    let e := s.beginEntry l.number (newEntry l.nextId kind s.typingPoint advance s.seq.underline)
    if s.hasRoom (e.actions l.number).length then .take (s.appendPrinted e) false else .wait

/-! ### Wrap and break (R69 to R71) -/

/-- The sum of the advances of some entries. -/
def totalAdvance (es : List Entry) : Nat := (es.map (·.advance)).sum

/-- The carried run can be carried to a new line with a further CHAR of this advance (R71). -/
def State.canCarry (s : State) (advance : Nat) : Bool :=
  let l := s.lines.current
  let run := l.carriedRun.1
  run.length < l.live.length && run.all (fun e => e.strike == some .held && e.id < 255) &&
    s.esc.left + totalAdvance run + advance ≤ s.rightLimit l.owner

/-- The wrap of R70: the run is carried over, and the CHAR appended after it. The cursor is set once,
after both (R99 steps 5 and 6), so the window is brought from 0 to the end of the new line (R184). -/
def State.wrapWith (s : State) (kind : EntryKind) (advance : Nat) (underline : Bool) : State :=
  let run := s.lines.current.carriedRun
  let t := (s.wrapCommit run.2 run.1).appendComposed kind advance underline
  t.showFrom 0 t.lines.current.live.length

/-- A wrap commit that carries nothing and adds no entry (R69). -/
def State.wrapEmpty (s : State) : State := s.wrapCommit s.lines.current.entries []

/-- An entry of this advance would pass the right limit at the end of the current line (R62, R69). -/
def State.passesEnd (s : State) (advance : Nat) : Bool :=
  s.rightLimit s.lines.current.owner < s.typingPoint + advance

/-- A key's entry at the end of a hold line (R69, R71, R89). -/
def appendHold (kind : EntryKind) (advance : Nat) (s : State) : KeyOutcome :=
  if s.passesEnd advance then
    match kind with
    | .char _ _ _ =>
      if s.canCarry advance = false then .refuse (some .lineFull)
      else if s.lineFeeding then .wait
      else .take (s.wrapWith kind advance s.seq.underline) true
    | .space => if s.lineFeeding then .wait else .take s.wrapEmpty true
    | _ => .refuse (some .lineFull)
  else if s.lines.current.canMake = false then .refuse (some .lineFull)
  else .take (s.appendComposed kind advance s.seq.underline) false

/-! ### Insertion (R72, R96) -/

/-- The entries of the current line with one more at the cursor, laid out (R72, R96). -/
def State.withInserted (s : State) (kind : EntryKind) (advance : Nat) : List Entry :=
  let l := s.lines.current
  relayout s.esc.tabs s.wheel.mounted l.start
    (insertAtLive (newEntry l.nextId kind s.cursorPoint advance s.seq.underline) s.lines.cursor
      l.entries)

/-- A key's entry inserted into a hold line: the right limit first (R72), then the capacity (R89;
log 19). -/
def insertInHold (kind : EntryKind) (advance : Nat) (s : State) : KeyOutcome :=
  let l := s.lines.current
  let es := s.withInserted kind advance
  if s.rightLimit l.owner < endOf l.start (es.filter Entry.live) then .refuse (some .lineFull)
  else if l.canMake = false then .refuse (some .lineFull)
  else
    let s1 := (s.setEntries l.number es).mapCurrent fun l => { l with nextId := l.nextId + 1 }
    .take (s1.bellCheck.resegment l.number) false

/-! ### Fill (R97) -/

/-- An entry that a key of this width can be filled into (R97). -/
def Entry.fillable (e : Entry) (width : Nat) : Bool :=
  ((e.isSpace && e.strike.isNone) || e.isGap) && width ≤ e.advance

/-- The entries of a line with a new entry placed before the fillable entry of an id, which shrinks or
goes (R97 steps 1 and 2). -/
def fillEntries (x : Entry) (id : Nat) (es : List Entry) : List Entry :=
  es.flatMap fun e =>
    if e.id = id then
      if e.advance = x.advance then [x]
      else [x, { e with start := e.start + x.advance, advance := e.advance - x.advance }]
    else [e]

/-- A character or SPACE key filled at the cursor of the displayed line (R97). -/
def fillAtCursor (kind : EntryKind) (width : Nat) (s : State) : KeyOutcome :=
  let l := s.lines.displayed
  match l.live[s.lines.cursor]? with
  | none => .refuse (some .noRoom)
  | some f =>
    if f.fillable width = false then .refuse (some .noRoom)
    else if l.canMake = false then .refuse (some .lineFull)
    else
      let x := s.beginEntry l.number (newEntry l.nextId kind f.start width s.seq.underline)
      let as := x.actions l.number
      if s.room < as.length then .wait
      else
        let s1 := (s.setEntries l.number (fillEntries x f.id l.entries)).updateLine l.number fun l' =>
          { l' with nextId := l.nextId + 1 }
        .take (((s1.enqueue as).resegment l.number).settle) false

/-! ### Placement (R94) -/

/-- Where a key's entry goes (R94). -/
inductive Place where
  | appendedDirect | appendedHold | inserted | filled
deriving DecidableEq, Repr

/-- The placement of R94 by the displayed line, its mode and the cursor. Before a GAP of a current HOLD line
with nothing QUEUED or STRUCK at or after it a key is inserted, as the table of R94 has it, although R150
says that the key after a correction inside fills into the GAP (DESIGN CHOICE, log 52). -/
def State.place (s : State) : Place :=
  let l := s.lines.current
  if s.lines.viewDepth ≠ 0 then .filled
  else if l.live.length ≤ s.lines.cursor then
    match l.mode with
    | .direct => .appendedDirect
    | .hold => .appendedHold
  else if l.mode = .direct then .filled
  else if (l.live.drop s.lines.cursor).any Entry.onPaper then .filled
  else .inserted

/-- A key's entry of a known advance put where R94 says; a HALF SPACE is never filled (R67). -/
def placeKey (kind : EntryKind) (advance : Nat) (s : State) : KeyOutcome :=
  match s.place with
  | .appendedDirect => appendDirect kind advance s
  | .appendedHold => appendHold kind advance s
  | .inserted => insertInHold kind advance s
  | .filled => if kind.isMove then .refuse (some .noRoom) else fillAtCursor kind advance s

/-- The TAB key: to the next stop in direct mode (R67), by R73 in a hold line, never filled (R67, R94).
In a current line composed in HOLD mode the need for a wheel (R58) is judged first, before the
placement (R94), also where the TAB is then to be filled, in the struck part of a reopened line; a ring
line is no hold line for R58 (DEDUCED, log 49). The need of an inserted TAB is judged at the cursor point,
before the tabs to its left are laid out anew; when its final start then has no stop beyond it and no
wheel is mounted, it keeps that first advance, as R58 lets an entry in the line keep its own (DESIGN
CHOICE, log 43). -/
def placeTab (s : State) : KeyOutcome :=
  match s.place with
  | .appendedDirect =>
    match tabDistance s.esc.tabs s.typingPoint with
    | none => .refuse (some .noTabStop)
    | some d => appendDirect (.tab true) d s
  | .appendedHold =>
    match holdTabAdvance s.esc.tabs s.wheel.mounted s.typingPoint with
    | none => .refuse (some .noWheel)
    | some d => appendHold (.tab false) d s
  | .inserted =>
    match holdTabAdvance s.esc.tabs s.wheel.mounted s.cursorPoint with
    | none => .refuse (some .noWheel)
    | some d => insertInHold (.tab false) d s
  | .filled =>
    if s.lines.viewDepth = 0 ∧ s.lines.current.mode = .hold ∧
        holdTabAdvance s.esc.tabs s.wheel.mounted s.cursorPoint = none then
      .refuse (some .noWheel)
    else .refuse (some .noRoom)

/-! ### Text of a source (R42 to R44) -/

/-- Whether a STOP JOB at the head of the key queue would be taken, and so goes before a text
character that commits the line (R38; log 25). -/
def State.stopJobFirst (s : State) : Bool :=
  (s.intake.keys.head?.map (·.code)) == some stopJobCode

/-- A text character that commits the line waits while another line feeds and while STOP JOB goes
first (R38, R42). -/
def State.textCommitWaits (s : State) : Bool := s.lineFeeding || s.stopJobFirst

/-- A text entry made as the first of the next line after a break (R44, R71, R89). -/
def State.breakWith (s : State) (kind : EntryKind) (advance : Nat) (underline : Bool) : State :=
  let s1 := s.breakCommit
  let advance' :=
    if kind = .tab false then
      (holdTabAdvance s1.esc.tabs s1.wheel.mounted s1.typingPoint).getD advance
    else advance
  s1.appendComposed kind advance' underline

/-- A text entry at the end of a source line: appended, or the line wraps or breaks (R69, R71, R89);
none while it waits. -/
def State.composeText (s : State) (kind : EntryKind) (advance : Nat) (underline : Bool) :
    Option State :=
  if s.passesEnd advance then
    if s.textCommitWaits then none
    else
      match kind with
      | .char _ _ _ =>
        if s.canCarry advance then some (s.wrapWith kind advance underline)
        else some (s.breakWith kind advance underline)
      | _ => some s.wrapEmpty
  else if s.lines.current.canMake then some (s.appendComposed kind advance underline)
  else if s.textCommitWaits then none
  else some (s.breakWith kind advance underline)

end Sys2Proof.Machine
end

