-- ==== Sys2Proof/Machine/LineKeys.lean ====
section
/-! DEFINITION. The printing keys, the line keys but for the correcting ones, and the two keys that
are taken whoever owns the line (R27): PRINTING_CHARACTER, SPACE, RETURN, TAB, HALF SPACE, the cursor
and view keys, HOLD, the paper keys, STOP JOB and CLEAR. -/

namespace Sys2Proof.Machine

/-! ### Printing keys -/

/-- The effect of a character key (R57, R64, R94). -/
def actCharacter (k : Keystroke) (s : State) : KeyOutcome :=
  match wheelCheckChar s.wheel.mounted k.code with
  | .error m => .refuse (some m)
  | .ok (f, w) => placeKey (.char k.code f s.seq.bold) w s

/-- PRINTING_CHARACTER (R94). -/
def execPrintingCharacter (s : State) : Host.Outcome State Fault Refusal :=
  .next (s.examineKey isCharCode actCharacter)

/-- The effect of SPACE (R57, R64, R94). -/
def actSpace (_ : Keystroke) (s : State) : KeyOutcome :=
  match wheelCheckSpace s.wheel.mounted with
  | .error m => .refuse (some m)
  | .ok w => placeKey .space w s

/-- SPACE (R64). -/
def execSpace (s : State) : Host.Outcome State Fault Refusal :=
  .next (s.examineKey (· == 32) actSpace)

/-- The effect of HALF SPACE (R57, R64, R94). -/
def actHalfSpace (_ : Keystroke) (s : State) : KeyOutcome :=
  match wheelCheckHalf s.wheel.mounted with
  | .error m => .refuse (some m)
  | .ok w => placeKey .halfSpace w s

/-- HALF_SPACE (R64). -/
def execHalfSpace (s : State) : Host.Outcome State Fault Refusal :=
  .next (s.examineKey (· == 8) actHalfSpace)

/-- TAB (R67). -/
def execTab (s : State) : Host.Outcome State Fault Refusal :=
  .next (s.examineKey (· == 2) fun _ s => placeTab s)

/-! ### RETURN (R100) -/

/-- A hard-ended commit: the margin-release flag becomes off (R68, R100). -/
def State.returnCommit (s : State) : State :=
  (s.commit []).mapEsc fun e => { e with marginRelease := false }

/-- The effect of RETURN (R100). -/
def actReturn (_ : Keystroke) (s : State) : KeyOutcome :=
  if s.lines.viewDepth ≠ 0 then .refuse (some .relocateFirst)
  else if s.lineFeeding then .wait
  else .take s.returnCommit true

/-- RETURN (R100). -/
def execReturn (s : State) : Host.Outcome State Fault Refusal :=
  .next (s.examineKey (· == 1) actReturn)

/-! ### Cursor keys (R92) -/

/-- A cursor move to an index: with a MOVE in a ring line and in a direct-mode line (R92). -/
def State.moveCursor (s : State) (c : Nat) : KeyOutcome :=
  if s.lines.viewDepth ≠ 0 ∨ s.lines.current.mode = .direct then
    if s.hasRoom 1 then
      .take (((s.setCursor c).enqueue [.move (s.lines.displayed.point c)]).settle) false
    else .wait
  else .take (s.setCursor c) false

/-- The effect of BACKSPACE (R92). -/
def actBackspace (_ : Keystroke) (s : State) : KeyOutcome :=
  if s.lines.cursor = 0 then .refuse (some .lineStart) else s.moveCursor (s.lines.cursor - 1)

/-- BACKSPACE (R92). -/
def execBackspace (s : State) : Host.Outcome State Fault Refusal :=
  .next (s.examineKey (· == 3) actBackspace)

/-- The effect of CURSOR RIGHT (R92). -/
def actCursorRight (_ : Keystroke) (s : State) : KeyOutcome :=
  if s.lines.displayed.live.length ≤ s.lines.cursor then .refuse (some .lineEnd)
  else s.moveCursor (s.lines.cursor + 1)

/-- CURSOR_RIGHT (R92). -/
def execCursorRight (s : State) : Host.Outcome State Fault Refusal :=
  .next (s.examineKey (· == 4) actCursorRight)

/-! ### View keys (R105 to R107) -/

/-- The effect of LINE UP (R105). -/
def actLineUp (_ : Keystroke) (s : State) : KeyOutcome :=
  if s.lines.viewDepth = 0 ∧ s.lines.current.mode = .hold ∧ s.lines.current.entries ≠ [] then
    .refuse (some .lineNotEmpty)
  else if s.lines.ring.length ≤ s.lines.viewDepth then .refuse (some .noLineAbove)
  else if s.lineFeeding ∨ s.hasRoom 2 = false then .wait
  else .take (s.viewTo (s.lines.viewDepth + 1)) false

/-- LINE_UP (R105). -/
def execLineUp (s : State) : Host.Outcome State Fault Refusal :=
  .next (s.examineKey (· == 5) actLineUp)

/-- The effect of LINE DOWN (R106). -/
def actLineDown (_ : Keystroke) (s : State) : KeyOutcome :=
  if s.lines.viewDepth = 0 then .refuse (some .noLineBelow)
  else if s.hasRoom 2 then .take (s.viewTo (s.lines.viewDepth - 1)) false
  else .wait

/-- LINE_DOWN (R106). -/
def execLineDown (s : State) : Host.Outcome State Fault Refusal :=
  .next (s.examineKey (· == 6) actLineDown)

/-- The effect of RELOCATE, and of CLEAR outside HALTED (R107, R132). -/
def actRelocate (_ : Keystroke) (s : State) : KeyOutcome :=
  if s.hasRoom s.relocateActions.length then .take s.relocated false else .wait

/-- RELOCATE (R107). -/
def execRelocate (s : State) : Host.Outcome State Fault Refusal :=
  .next (s.examineKey (· == 7) actRelocate)

/-! ### HOLD (R93) -/

/-- The hold setting changes, and the mode of the empty current line with it (R93). -/
def State.toggleHold (s : State) : State :=
  s.mapLines fun ls =>
    { ls with
      hold := !ls.hold
      current := { ls.current with mode := if ls.hold then .direct else .hold } }

/-- The effect of HOLD (R93). -/
def actHold (_ : Keystroke) (s : State) : KeyOutcome :=
  if s.lines.current.entries = [] ∧ s.lines.viewDepth = 0 then .take s.toggleHold false
  else .refuse (some .lineNotEmpty)

/-- HOLD (R93). -/
def execHold (s : State) : Host.Outcome State Fault Refusal :=
  .next (s.examineKey (· == 18) actHold)

/-! ### Paper keys (R84) -/

/-- The paper offset changes by a signed distance, in the Escapement Unit and in the current line, and
a FEED of it is enqueued (R84). -/
def State.movePaper (s : State) (d : Int) : State :=
  (((s.mapEsc fun e => { e with paperOffset := e.paperOffset.move d }).mapCurrent fun l =>
    { l with offset := l.offset.move d }).enqueue [.feed d s.lines.current.start]).settle

/-- The effect of a paper key (R84). -/
def actPaper (d : Int) (_ : Keystroke) (s : State) : KeyOutcome :=
  if s.lines.current.entries ≠ [] ∨ s.lines.viewDepth ≠ 0 then .refuse (some .lineNotEmpty)
  else if s.hasRoom 1 then .take (s.movePaper d) false
  else .wait

/-- PAPER_UP (R84). -/
def execPaperUp (s : State) : Host.Outcome State Fault Refusal :=
  .next (s.examineKey (· == 27) (actPaper 1))

/-- PAPER_DOWN (R84). -/
def execPaperDown (s : State) : Host.Outcome State Fault Refusal :=
  .next (s.examineKey (· == 28) (actPaper (-1)))

/-! ### STOP JOB (R38) -/

/-- The REPORT trigger of a job stopped on a source (R22, R23). -/
def stoppedCause (n : SourceNo) (id : Nat) : ReportCause :=
  match n with
  | .source1 => ⟨false, some id, none⟩
  | .source2 => ⟨false, none, some id⟩

/-- The job of the owning source is stopped (R38 steps 1 to 5). -/
def State.stopJob (s : State) (n : SourceNo) (id : Nat) : State :=
  let s1 := if s.lines.current.live.isEmpty then s else s.commit []
  ((s1.mapIntake fun i => i.mapSrc n fun r =>
    { r with slot := none, idleRunning := false, stoppedJob := id, job := .idle }).triggerReport
      (stoppedCause n id)).releaseLine

/-- The effect of STOP JOB (R38). -/
def actStopJob (_ : Keystroke) (s : State) : KeyOutcome :=
  match s.intake.owner.source with
  | none => .refuse none
  | some n =>
    match (s.intake.src n).job with
    | .opened id _ =>
      if s.lines.current.live ≠ [] ∧ s.lineFeeding = true then .wait
      else .take (s.stopJob n id) false
    | _ => .refuse none

/-- STOP_JOB (R38). -/
def execStopJob (s : State) : Host.Outcome State Fault Refusal :=
  .next (s.examineKey (· == stopJobCode) actStopJob)

/-! ### CLEAR (R132 to R134) -/

/-- A discarded STRIKE marks this entry of this line (R132). -/
def marked (discarded : List Action) (line : Word) (id : Nat) : Bool :=
  discarded.any fun a =>
    match a with
    | .strike b => b.line == line && b.entry == id
    | _ => false

/-- The LIFTs among some actions. -/
def liftCount (actions : List Action) : Nat :=
  actions.countP fun a =>
    match a with
    | .lift _ _ => true
    | _ => false

/-- The LIFTs of one entry among some actions. -/
def liftsOf (actions : List Action) (line : Word) (id : Nat) : Nat :=
  actions.countP fun a =>
    match a with
    | .lift b _ => b.line == line && b.entry == id
    | _ => false

/-- A line after the cleaning of R133 steps 1 to 3: truncated before its first marked entry, without
its LIFTING entries, its GAPs tidy. A bold entry whose first strike completed and whose second was discarded
is marked by R132 and goes, although the last sentence of step 1, read to the letter, lets it stay (DESIGN
CHOICE, log 54). -/
def Line.cleaned (l : Line) (discarded : List Action) : Line :=
  { l with
    entries := tidyGaps ((l.entries.takeWhile fun e => !marked discarded l.number e.id).filter
      Entry.live) }

/-- Clean the line of a number, and segment it if it has changed (R133 steps 1 to 4). -/
def State.cleanLine (s : State) (discarded : List Action) (number : Word) : State :=
  match s.lines.find number with
  | none => s
  | some l =>
    if (l.cleaned discarded).entries = l.entries then s
    else (s.updateLine number fun l => l.cleaned discarded).resegment number

/-- The queue is emptied: reservations and lift records are released, the retry mark and the halt
cause cleared (R132, R154). -/
def State.discardQueue (s : State) : State :=
  (s.mapSeq fun q =>
    { q with queue := [], headStarted := false, retry := false, haltCause := none }).mapCorr fun c =>
    { c with
      reserved := c.reserved - liftCount s.seq.queue
      lifts := (c.lifts.map fun r =>
        { r with outstanding := r.outstanding - liftsOf s.seq.queue r.line r.entry }).filter
          fun r => 0 < r.outstanding }

/-- The recovery target: the offset of the line that the feeding mark names, or of the current line
(R134 step 1). -/
def State.recoveryTarget (s : State) : Word :=
  match s.lines.mark.bind fun m => s.lines.find m.line with
  | some l => l.offset
  | none => s.lines.current.offset

/-- The mechanism is restarted: the recovery FEED is the first action, homing starts, and the halt
message ends (R134). -/
def State.restart (s : State) : State :=
  (((s.enqueue [.feed (signedDiff s.recoveryTarget s.seq.paperCount) s.typingPoint]).mapDisp fun d =>
    { d with standing := { d.standing with halt := none } }).startHoming .clear).settle

/-- The recovery of CLEAR in HALTED (R132 to R134): the ring lines are cleaned from the oldest to the
newest and then the current line (log 22). The bell is checked when the live content of the current line
has changed (R65; log 29). -/
def State.recover (s : State) : State :=
  let discarded := s.seq.queue
  let numbers := s.lines.ring.map (·.number) ++ [s.lines.current.number]
  let s1 := numbers.foldl (fun s n => s.cleanLine discarded n) s.discardQueue
  let s2 :=
    if (s.lines.current.cleaned discarded).live = s.lines.current.live then s1 else s1.bellCheck
  let s3 := s2.fixMark
  (s3.showFrom 0 s3.lines.current.live.length).restart

/-- The effect of CLEAR (R132). -/
def actClear (k : Keystroke) (s : State) : KeyOutcome :=
  if s.machine = .halted then .take s.recover false else actRelocate k s

/-- CLEAR (R132). -/
def execClear (s : State) : Host.Outcome State Fault Refusal :=
  .next (s.examineKey (· == clearCode) actClear)

end Sys2Proof.Machine
end

