-- ==== Sys2Proof/Machine/SettingKeys.lean ====
section
/-! DEFINITION. The setting keys (R27): margins and tab stops, the settings that change from off to on
and back, impression, line spacing, ADD WORD, STORE SETTINGS and TONE. -/

namespace Sys2Proof.Machine

/-! ### Margins and tab stops (R68, R77 to R81) -/

/-- MARGIN_RELEASE (R68). -/
def execMarginRelease (s : State) : Host.Outcome State Fault Refusal :=
  .next (s.examineKey (· == 12) (takeAlways fun s =>
    s.mapEsc fun e => { e with marginRelease := !e.marginRelease }))

/-- The effect of SET LEFT MARGIN (R77, R80). -/
def actSetLeftMargin (_ : Keystroke) (s : State) : KeyOutcome :=
  let p := s.cursorPoint
  if p + Config.marginGap ≤ s.esc.right then
    .take (s.mapEsc fun e => { e with left := p, tabs := e.tabs.filter fun t => p < t }) false
  else .refuse (some .marginTooNarrow)

/-- SET_LEFT_MARGIN (R80). -/
def execSetLeftMargin (s : State) : Host.Outcome State Fault Refusal :=
  .next (s.examineKey (· == 13) actSetLeftMargin)

/-- The effect of SET RIGHT MARGIN (R77, R81). -/
def actSetRightMargin (_ : Keystroke) (s : State) : KeyOutcome :=
  let p := s.cursorPoint
  if s.esc.left + Config.marginGap ≤ p then
    .take (s.mapEsc fun e => { e with right := p, tabs := e.tabs.filter fun t => t < p }) false
  else .refuse (some .marginTooNarrow)

/-- SET_RIGHT_MARGIN (R81). -/
def execSetRightMargin (s : State) : Host.Outcome State Fault Refusal :=
  .next (s.examineKey (· == 14) actSetRightMargin)

/-- A stop in its place among rising stops (R77). -/
def insertStop (p : Nat) (tabs : List Nat) : List Nat :=
  tabs.takeWhile (· < p) ++ p :: tabs.dropWhile (· < p)

/-- The effect of SET TAB (R78). -/
def actSetTab (_ : Keystroke) (s : State) : KeyOutcome :=
  let p := s.cursorPoint
  if p ≤ s.esc.left ∨ s.esc.right ≤ p then .refuse (some .tabOutOfRange)
  else if s.esc.tabs.contains p then .refuse (some .tabAlreadySet)
  else if Config.tabCapacity ≤ s.esc.tabs.length then .refuse (some .tabsFull)
  else .take (s.mapEsc fun e => { e with tabs := insertStop p e.tabs }) false

/-- SET_TAB (R78). -/
def execSetTab (s : State) : Host.Outcome State Fault Refusal :=
  .next (s.examineKey (· == 15) actSetTab)

/-- The effect of CLEAR TAB (R79). -/
def actClearTab (_ : Keystroke) (s : State) : KeyOutcome :=
  let p := s.cursorPoint
  if s.esc.tabs.contains p then
    .take (s.mapEsc fun e => { e with tabs := e.tabs.filter fun t => t != p }) false
  else .refuse (some .noTabHere)

/-- CLEAR_TAB (R79). -/
def execClearTab (s : State) : Host.Outcome State Fault Refusal :=
  .next (s.examineKey (· == 16) actClearTab)

/-- CLEAR_ALL_TABS (R79). -/
def execClearAllTabs (s : State) : Host.Outcome State Fault Refusal :=
  .next (s.examineKey (· == 17) (takeAlways fun s => s.mapEsc fun e => { e with tabs := [] }))

/-! ### Settings that toggle or cycle -/

/-- JUSTIFY (R76). -/
def execJustify (s : State) : Host.Outcome State Fault Refusal :=
  .next (s.examineKey (· == 19) (takeAlways fun s =>
    s.mapEsc fun e => { e with justify := !e.justify }))

/-- BOLD (R116). -/
def execBold (s : State) : Host.Outcome State Fault Refusal :=
  .next (s.examineKey (· == 20) (takeAlways fun s => s.mapSeq fun q => { q with bold := !q.bold }))

/-- UNDERLINE (R116). -/
def execUnderline (s : State) : Host.Outcome State Fault Refusal :=
  .next (s.examineKey (· == 21) (takeAlways fun s =>
    s.mapSeq fun q => { q with underline := !q.underline }))

/-- The impression after this one (R124). -/
def nextImpression (n : Nat) : Nat := if n = 1 then 2 else if n = 2 then 3 else 1

/-- IMPRESSION (R124). -/
def execImpression (s : State) : Host.Outcome State Fault Refusal :=
  .next (s.examineKey (· == 22) (takeAlways fun s =>
    s.mapSeq fun q => { q with impression := nextImpression q.impression }))

/-- The line spacing after this one (R82). -/
def nextSpacing (n : Nat) : Nat := if n = 2 then 3 else if n = 3 then 4 else 2

/-- LINE_SPACING (R82). -/
def execLineSpacing (s : State) : Host.Outcome State Fault Refusal :=
  .next (s.examineKey (· == 23) (takeAlways fun s =>
    s.mapEsc fun e => { e with spacing := nextSpacing e.spacing }))

/-- SPELL (R177). -/
def execSpell (s : State) : Host.Outcome State Fault Refusal :=
  .next (s.examineKey (· == 24) (takeAlways fun s =>
    s.mapSpell fun u => { u with isOn := !u.isOn }))

/-! ### ADD WORD (R162, R163) -/

/-- The newer of two words by their distance back from the serial counter (R142, R162). -/
def newerWord (counter : Word) (a b : WordRec) : WordRec :=
  if (counter - b.serial).toNat < (counter - a.serial).toNat then b else a

/-- The newest FLAGGED word of a line (R142, R162). -/
def Line.newestFlagged (l : Line) (counter : Word) : Option WordRec :=
  match l.words.filter (·.state == .flagged) with
  | [] => none
  | w :: ws => some (ws.foldl (newerWord counter) w)

/-- The lines in the order that ADD WORD looks through: the current line, then the ring from its
newest line (R162). -/
def LineStore.newestFirst (ls : LineStore) : List Line := ls.current :: ls.ring.reverse

/-- The folded form of the target of ADD WORD (R162). -/
def State.addWordTarget (s : State) : Option (List Nat) :=
  s.lines.newestFirst.findSome? fun l =>
    (l.newestFlagged s.lines.serialCounter).map fun w => l.foldedForm w.serial

/-- A word is accepted by an equal form that is added (R163 step 2). -/
def WordRec.acceptedBy (w : WordRec) : Bool :=
  w.state == .flagged || w.state == .pending || w.state == .asking

/-- The words of a line that a new form accepts. -/
def Line.equalWords (l : Line) (form : List Nat) : List Word :=
  (l.words.filter fun w => w.acceptedBy && l.foldedForm w.serial == form).map (·.serial)

/-- One line's words equal to the new form are ACCEPTED; an item leaves the pending list and a slot
becomes DISCARDED (R163 step 2). -/
def State.acceptEqual (s : State) (form : List Nat) (l : Line) : State :=
  (l.equalWords form).foldl
    (fun s serial => (s.setWord l.number serial .accepted none).dropWord l.number serial) s

/-- The user list block is marked dirty, and written when its turn comes (R163 step 4, R196). -/
def State.markUserDirty (s : State) : State :=
  (s.mapStore fun u => { u with dirtyUser := true }).startWrite

/-- A form is added to the user word list (R163). -/
def State.addForm (s : State) (form : List Nat) : State :=
  let s1 := s.mapSpell fun u => { u with userWords := u.userWords ++ [form] }
  (s.lines.newestFirst.foldl (fun s l => s.acceptEqual form l) s1).markUserDirty

/-- The effect of ADD WORD (R162, R163). -/
def actAddWord (_ : Keystroke) (s : State) : KeyOutcome :=
  match s.addWordTarget with
  | none => .refuse (some .noFlaggedWord)
  | some form =>
    if Config.userCapacity ≤ s.spell.userWords.length then .refuse (some .listFull)
    else .take (s.addForm form) false

/-- ADD_WORD (R163). -/
def execAddWord (s : State) : Host.Outcome State Fault Refusal :=
  .next (s.examineKey (· == 25) actAddWord)

/-! ### STORE SETTINGS and TONE -/

/-- STORE_SETTINGS (R196, R197). -/
def execStoreSettings (s : State) : Host.Outcome State Fault Refusal :=
  .next (s.examineKey (· == 26) (takeAlways fun s =>
    (s.mapStore fun u => { u with dirtySettings := true, dirtyTape := true }).startWrite))

/-- The silence setting changes; when it goes on it cuts off any tone but a FAULT (R192). -/
def State.toggleSilence (s : State) : State :=
  let s1 := s.mapAlert fun u =>
    { silence := !u.silence
      current := if u.silence = false ∧ u.current ≠ some .fault then none else u.current }
  s1.showMessage (if s.alert.silence then .toneOn else .toneOff)

/-- TONE (R192). -/
def execTone (s : State) : Host.Outcome State Fault Refusal :=
  .next (s.examineKey (· == 31) (takeAlways State.toggleSilence))

end Sys2Proof.Machine
end

