-- ==== Sys2Proof/Machine/Correct.lean ====
section
/-! DEFINITION. The correcting keys (Chapter 7): the choice of the targets, their fates, the checks,
and the correction carried out as one change, with the reopen of a ring line (R104). -/

namespace Sys2Proof.Machine

/-! ### The choice of the targets (R139 to R142) -/

/-- What looking for the targets gives: the line acted on as it would stand, with its targets. -/
inductive Choice where
  /-- the key waits (R104) -/
  | wait
  | refuse (m : Message)
  | targets (reopen : Bool) (line : Line) (entries : List Entry)
deriving DecidableEq, Repr

/-- The CHARs that stand directly before an index, in position order. -/
def charsBefore (live : List Entry) (i : Nat) : List Entry :=
  ((live.take i).reverse.takeWhile fun e => e.kind.isChar).reverse

/-- The CHARs from an index on. -/
def charsFrom (live : List Entry) (i : Nat) : List Entry :=
  (live.drop i).takeWhile fun e => e.kind.isChar

/-- The trailing SPACE and MOVE entries of a line, in position order (R141). -/
def trailingBlanks (live : List Entry) : List Entry :=
  (live.reverse.takeWhile fun e => e.isSpace || e.kind.isMove).reverse

/-- The target of CORRECT: the reference entry, unless it is a GAP (R140). -/
def charTargets (live : List Entry) (i : Nat) : List Entry :=
  match live[i]? with
  | some e => if e.isGap then [] else [e]
  | none => []

/-- The targets of WORD CORRECT, with the cursor at the end or inside, for the reference entry of an
index (R141). -/
def wordTargets (live : List Entry) (atEnd : Bool) (i : Nat) : List Entry :=
  if atEnd then
    let blanks := trailingBlanks live
    charsBefore live (live.length - blanks.length) ++ blanks
  else
    match live[i]? with
    | some e => if e.kind.isChar then charsBefore live i ++ charsFrom live i else []
    | none => []

/-- Targets in a line, or the refusal when there are none (R140, R141, R146 check 1). -/
def chosen (reopen : Bool) (l : Line) (targets : List Entry) : Choice :=
  if targets.isEmpty then .refuse .nothingToCorrect else .targets reopen l targets

/-- The newest ring line as a reopen makes it: REOPENED, in the mode of the hold setting (R104
step 2). -/
def State.asReopened (s : State) (l : Line) : Line :=
  { l with state := .reopened, mode := s.lines.keyboardMode }

/-- The cases of R104 up to the correction itself. R104 does not say which case decides where a wait and
a refusal both hold (a line feeding with a source's newest ring line, LIFTING entries with an empty ring);
R29 would consume a refused key at once. The waits are tried first (DESIGN CHOICE, log 56). -/
def State.chooseReopen (s : State) (word : Bool) : Choice :=
  if s.lines.current.entries ≠ [] then .wait
  else if s.lineFeeding then .wait
  else
    match s.lines.ringAt 1 with
    | none => .refuse .nothingToCorrect
    | some r =>
      if r.owner.source.isSome then .refuse .cannotReopen
      else
        let live := r.live
        chosen true (s.asReopened r)
          (if word then wordTargets live true (live.length - 1)
           else charTargets live (live.length - 1))

/-- The reference entry and the targets of CORRECT and WORD CORRECT (R139 to R141). A ring line with
no live entries holds nothing to correct (log 20). -/
def State.chooseAround (s : State) (word : Bool) : Choice :=
  let l := s.lines.displayed
  let live := l.live
  let c := s.lines.cursor
  let pick (i : Nat) : Choice :=
    chosen false l
      (if word then wordTargets live (decide (live.length ≤ c)) i else charTargets live i)
  if s.lines.viewDepth = 0 ∧ live = [] then s.chooseReopen word
  else if s.lines.viewDepth = 0 ∧ l.mode = .hold then
    if c = 0 then .refuse .lineStart else pick (c - 1)
  else pick (min c (live.length - 1))

/-- The targets of SPELL CORRECT (R142). -/
def State.chooseFlagged (s : State) : Choice :=
  if s.lines.viewDepth ≠ 0 then .refuse .relocateFirst
  else
    let l := s.lines.current
    match l.newestFlagged s.lines.serialCounter with
    | none => .refuse .noFlaggedWord
    | some w => .targets false l (l.live.filter (·.serial == some w.serial))

/-! ### Fates (R143, R144) -/

/-- The STRIKE of this entry is the action in execution (R144). -/
def State.inExecution (s : State) (line : Word) (id : Nat) : Bool :=
  s.seq.headStarted &&
    match s.seq.queue with
    | .strike b :: _ => b.line == line && b.entry == id
    | _ => false

/-- The lifts of a target: d + e for an entry that is QUEUED or STRUCK, none for any other (R144). -/
def State.liftsFor (s : State) (line : Word) (e : Entry) : Nat :=
  if e.onPaper then e.done + if s.inExecution line e.id then 1 else 0 else 0

/-- The lift count k of a correction (R144). -/
def State.liftTotal (s : State) (line : Word) (targets : List Entry) : Nat :=
  (targets.map (s.liftsFor line)).sum

/-- An entry is one of some entries, by id. -/
def isTarget (targets : List Entry) (e : Entry) : Bool := targets.any (·.id == e.id)

/-- The targets stand at the end of the line (R143). -/
def atEnd (live targets : List Entry) : Bool :=
  (live.getLast?.map (·.id)) == (targets.getLast?.map (·.id))

/-- The live entries from the first target on. -/
def fromFirst (live targets : List Entry) : List Entry :=
  live.dropWhile fun e => (targets.head?.map (·.id)) != some e.id

/-- The live entry before the first target. -/
def beforeFirst (live targets : List Entry) : Option Entry :=
  (live.takeWhile fun e => (targets.head?.map (·.id)) != some e.id).getLast?

/-- The correction is a deletion by R98: in the current line composed in HOLD mode, with no target on
paper and nothing on paper from the first target on. -/
def State.isDeletion (s : State) (l : Line) (targets : List Entry) : Bool :=
  s.lines.viewDepth == 0 && l.mode == .hold && (fromFirst l.live targets).all fun e => !e.onPaper

/-! ### The change of the line (R98, R147 step 4, R149, R150) -/

/-- The entries with the targets removed, or LIFTING if they need lifts (R144). -/
def State.withoutTargets (s : State) (l : Line) (targets : List Entry) : List Entry :=
  l.entries.filterMap fun e =>
    if isTarget targets e then
      if s.liftsFor l.number e = 0 then none else some { e with strike := some .lifting }
    else some e

/-- The GAP made in place of the targets (R150 step 2). -/
def gapFor (l : Line) (targets : List Entry) : Entry where
  id := l.nextId
  kind := .gap
  start := (targets.head?.map (·.start)).getD l.start
  advance := totalAdvance targets
  underline := false
  strike := none
  total := 0
  done := 0
  underscore := none
  serial := none

/-- Put an entry before the entry of an id. -/
def insertBefore (x : Entry) (id : Nat) : List Entry → List Entry
  | [] => [x]
  | e :: es => if e.id = id then x :: e :: es else e :: insertBefore x id es

/-- A live GAP stands before the first target (R150 step 1). -/
def gapBefore (l : Line) (targets : List Entry) : Bool :=
  ((beforeFirst l.live targets).map Entry.isGap).getD false

/-- The line after a deletion (R98): the targets gone, the GAPs tidy, the line laid out anew. -/
def State.afterDeletion (s : State) (l : Line) (targets : List Entry) : Line :=
  { l with
    entries := relayout s.esc.tabs s.wheel.mounted l.start (tidyGaps (s.withoutTargets l targets)) }

/-- The line after a correction at the end (R149). -/
def State.afterEnd (s : State) (l : Line) (targets : List Entry) : Line :=
  { l with entries := tidyGaps (s.withoutTargets l targets) }

/-- The line after a correction inside (R150). A GAP is put before the first target and merges with a
GAP on either side of it into the leftmost one, whose id stays. -/
def State.afterInside (s : State) (l : Line) (targets : List Entry) : Line :=
  let gap := gapFor l targets
  let first := (targets.head?.map (·.id)).getD 0
  let l' := { l with entries := insertBefore gap first l.entries }
  { l with
    entries := tidyGaps (s.withoutTargets l' targets)
    nextId := if gapBefore l targets then l.nextId else l.nextId + 1 }

/-- The line after the correction (R147 step 4). -/
def State.correctedLine (s : State) (l : Line) (targets : List Entry) : Line :=
  if s.isDeletion l targets then s.afterDeletion l targets
  else if atEnd l.live targets then s.afterEnd l targets
  else s.afterInside l targets

/-- The cursor after the correction: before the GAP of a correction inside (R150), and by R91
otherwise. -/
def State.correctedCursor (s : State) (l : Line) (targets : List Entry) (old : Nat) : Nat :=
  let live := (s.correctedLine l targets).live
  if s.isDeletion l targets || atEnd l.live targets then keepCursor l.live live old
  else
    let id := ((beforeFirst l.live targets).bind fun e =>
      if e.isGap then some e.id else none).getD l.nextId
    (live.findIdx? (·.id == id)).getD live.length

/-! ### The change of the print queue (R145, R147 steps 2 and 3) -/

/-- A STRIKE of a target (R144). -/
def isTargetStrike (line : Word) (targets : List Entry) : Action → Bool
  | .strike b => b.line == line && targets.any (·.id == b.entry)
  | _ => false

/-- The queue without the targets' STRIKEs that have not started (R113, R144). -/
def State.withdrawnQueue (s : State) (line : Word) (targets : List Entry) : List Action :=
  match s.seq.queue with
  | [] => []
  | a :: rest =>
    let rest' := rest.filter fun a => !isTargetStrike line targets a
    if s.seq.headStarted || !isTargetStrike line targets a then a :: rest' else rest'

/-- What a LIFT of a sub-index strikes: as the STRIKE of that sub-index is built from the entry as it
stands, with the underscore width recorded in it (R114, R115, R145). An underlined tab on paper that a
later layout has made shorter has strikes done beyond those; for them R145 states no position, and the
underscore stands at a free value within the platen (log 47). -/
def State.liftedBlow (s : State) (line : Word) (e : Entry) (sub : Nat) : Blow :=
  ((e.blows line)[sub]?).getD
    ⟨line, e.id, sub, 95, Config.lostUnderscore line e.id sub % (s.esc.platen + 1), false, true⟩

/-- The LIFTs of a target, one for each sub-index from 0 to d + e - 1 (R145). -/
def State.liftActions (s : State) (line : Word) (e : Entry) : List Action :=
  let family :=
    match e.kind with
    | .char _ f _ => f
    | _ => s.wheel.mounted.getD .f1
  (List.range (s.liftsFor line e)).map fun i => .lift (s.liftedBlow line e i) family

/-- The lift records of the targets that become LIFTING (R147 step 3). -/
def State.liftRecords (s : State) (line : Word) (targets : List Entry) : List LiftRec :=
  (targets.filter fun e => s.liftsFor line e != 0).map fun e => ⟨line, e.id, s.liftsFor line e⟩

/-! ### Reopen (R104) -/

/-- The reopen of the newest ring line in place of the empty current line, without its FEED (R104
steps 1 to 4). -/
def State.reopened (s : State) (l : Line) : State :=
  let s1 := s.mapLines fun ls => { ls with current := l, ring := ls.ring.dropLast }
  let s2 := s1.mapEsc fun e =>
    { e with
      paperOffset := l.offset
      bellRung := decide (e.right < l.endPoint + Config.bellZone) }
  s2.showFrom 0 l.live.length

/-- The reverse FEED of a reopen (R104 step 3). -/
def State.reverseFeed (s : State) (l : Line) : Action :=
  .feed (signedDiff l.offset s.lines.current.offset) l.endPoint

/-! ### The checks (R146) -/

/-- A target that needs a lift and was made under another family (R146 check 3). -/
def State.mismatched (s : State) (line : Word) (e : Entry) : Bool :=
  s.liftsFor line e != 0 &&
    match e.kind with
    | .char _ f _ => s.wheel.mounted != some f
    | _ => false

/-- The line cannot hold the new GAP of a correction inside (R146 check 5, R150). -/
def State.noPlaceForGap (s : State) (l : Line) (targets : List Entry) : Bool :=
  !s.isDeletion l targets && !atEnd l.live targets && !gapBefore l targets &&
    (Config.entryCapacity ≤ (s.withoutTargets l targets).length || 255 < l.nextId)

/-- A deletion moves the end of the line to the right and past the right limit (R72, R146 check 6). -/
def State.deletionPasses (s : State) (l : Line) (targets : List Entry) : Bool :=
  let ending := (s.afterDeletion l targets).endPoint
  s.isDeletion l targets && l.endPoint < ending && s.rightLimit l.owner < ending

/-- The first check of R146 that fails, from the second on. -/
def State.checkFails (s : State) (reopen : Bool) (l : Line) (targets : List Entry) :
    Option Message :=
  let k := s.liftTotal l.number targets
  if 1 ≤ k ∧ s.wheel.mounted = none then some .noWheel
  else if targets.any (s.mismatched l.number) then some .wheelMismatch
  else if s.corr.tape - s.corr.reserved < k then some .tapeEmpty
  else if s.noPlaceForGap l targets then some .lineFull
  else if s.deletionPasses l targets then some .lineFull
  else if Config.printCapacity < k + (if reopen then 1 else 0) then some .tooManyLifts
  else none

/-! ### The correction carried out (R147) -/

/-- The actions that a correction enqueues: the reverse FEED of a reopen, then the LIFTs (R147). -/
def State.correctionActions (s : State) (reopen : Bool) (l : Line) (targets : List Entry) :
    List Action :=
  (if reopen then [s.reverseFeed l] else []) ++ targets.flatMap (s.liftActions l.number)

/-- The state after the reopen, the withdrawals and the change of the line, before anything is
enqueued: the room is counted on it (R146; log 21). -/
def State.withdrawn (s : State) (reopen : Bool) (l : Line) (targets : List Entry) : State :=
  let s1 := if reopen then s.reopened l else s
  let s2 := s1.mapSeq fun q => { q with queue := s.withdrawnQueue l.number targets }
  let s3 := s2.updateLine l.number fun _ => s.correctedLine l targets
  (s3.setCursor (s.correctedCursor l targets s1.lines.cursor)).fixMark

/-- The head STRIKE has not started and is one of those withdrawn (R144). -/
def State.headWithdrawn (s : State) (line : Word) (targets : List Entry) : Bool :=
  !s.seq.headStarted && (s.seq.queue.head?.map (isTargetStrike line targets)).getD false

/-- The correction carried out (R147). When the head STRIKE was withdrawn the new head is examined
(R117, R148). -/
def State.correct (s : State) (reopen : Bool) (l : Line) (targets : List Entry) : State :=
  let s1 := (s.withdrawn reopen l targets).enqueue (s.correctionActions reopen l targets)
  let s2 := s1.mapCorr fun c =>
    { c with
      reserved := c.reserved + s.liftTotal l.number targets
      lifts := c.lifts ++ s.liftRecords l.number targets }
  let s3 := s2.resegment l.number
  if s.headWithdrawn l.number targets then s3.pump.examineHead else s3.settle

/-- A correction: the targets, the checks, the room, and the change (R139 to R147). -/
def actCorrection (choice : State → Choice) (s : State) : KeyOutcome :=
  match choice s with
  | .wait => .wait
  | .refuse m => .refuse (some m)
  | .targets reopen l targets =>
    match s.checkFails reopen l targets with
    | some m => .refuse (some m)
    | none =>
      if (s.correctionActions reopen l targets).length ≤ (s.withdrawn reopen l targets).room then
        .take (s.correct reopen l targets) false
      else .wait

/-- CORRECT (R140). -/
def execCorrect (s : State) : Host.Outcome State Fault Refusal :=
  .next (s.examineKey (· == 9) fun _ => actCorrection fun s => s.chooseAround false)

/-- WORD_CORRECT (R141). -/
def execWordCorrect (s : State) : Host.Outcome State Fault Refusal :=
  .next (s.examineKey (· == 10) fun _ => actCorrection fun s => s.chooseAround true)

/-- SPELL_CORRECT (R142). -/
def execSpellCorrect (s : State) : Host.Outcome State Fault Refusal :=
  .next (s.examineKey (· == 11) fun _ => actCorrection State.chooseFlagged)

end Sys2Proof.Machine
end

