-- ==== Sys2Proof/Machine/Text.lean ====
section
/-! DEFINITION. The text of a source (R42 to R44), the end of a job (R35, R36) and the lapse of the
keyboard as a command of its own (R40). -/

namespace Sys2Proof.Machine

/-- The block of the source that owns the line, and the code of its next character (R42). -/
def State.nextText (s : State) : Option (SourceNo × HeldBlock × Nat) :=
  match s.intake.owner.source with
  | none => none
  | some n =>
    match (s.intake.src n).slot with
    | none => none
    | some h => (h.block.codes[h.next]?).map fun c => (n, h, c)

/-- A character has been consumed: the next one is due, or the slot becomes empty and the job goes on
by R35. -/
def State.textConsumed (s : State) (n : SourceNo) (h : HeldBlock) : State :=
  if h.next + 1 < h.block.codes.length then
    s.mapIntake fun i => i.mapSrc n fun r => { r with slot := some { h with next := h.next + 1 } }
  else
    let s1 := s.mapIntake fun i => i.mapSrc n fun r => { r with slot := none }
    match (s1.intake.src n).job with
    | .opened id last =>
      if h.block.last then s1.endJob n id last
      else s1.mapIntake fun i => i.mapSrc n fun r => { r with idleRunning := true }
    | _ => s1

/-- Consume the next text character, for the row of the codes `ours` and the effect `act`, which gives
none while the character waits (R42). Another row's character, and a suspended consumption, leave the
state (log 2). -/
def State.consumeText (s : State) (ours : Nat → Bool) (act : SourceIntake → Nat → State → Option State) :
    State :=
  if s.stopped || s.textSuspended then s
  else
    match s.nextText with
    | none => s
    | some (n, h, code) =>
      if ours code = false then s
      else
        match act (s.intake.src n) code s with
        | none => s
        | some t => t.textConsumed n h

/-- The codes of the TEXT rows other than TEXT_CHARACTER (R43). -/
def isTextFunction (code : Nat) : Bool :=
  code == 1 || code == 2 || code == 8 || code == 20 || code == 21

/-- The effect of a character, a SPACE or a skipped code (R43, R44). -/
def textCharacter (r : SourceIntake) (code : Nat) (s : State) : Option State :=
  match s.wheel.mounted with
  | none => none
  | some f =>
    if code < 32 ∨ 159 < code then some s
    else
      match f.width code with
      | some w => s.composeText (.char code f r.bold) w r.underline
      | none => s.composeText .space f.spaceWidth r.underline

/-- TEXT_CHARACTER (R43). -/
def execTextCharacter (s : State) : Host.Outcome State Fault Refusal :=
  .next (s.consumeText (fun c => !isTextFunction c) textCharacter)

/-- TEXT_RETURN (R43): a hard-ended commit, under the same owner (R41, R68). -/
def execTextReturn (s : State) : Host.Outcome State Fault Refusal :=
  .next (s.consumeText (· == 1) fun _ _ s =>
    if s.textCommitWaits then none else some s.returnCommit)

/-- TEXT_TAB (R43), by the hold-line tab rule (R73). -/
def execTextTab (s : State) : Host.Outcome State Fault Refusal :=
  .next (s.consumeText (· == 2) fun r _ s =>
    match holdTabAdvance s.esc.tabs s.wheel.mounted s.typingPoint with
    | none => none
    | some d => s.composeText (.tab false) d r.underline)

/-- TEXT_HALF_SPACE (R43). -/
def execTextHalfSpace (s : State) : Host.Outcome State Fault Refusal :=
  .next (s.consumeText (· == 8) fun r _ s =>
    match s.wheel.mounted with
    | none => none
    | some f => s.composeText .halfSpace f.halfSpaceWidth r.underline)

/-- Change the job attributes of the source that owns the line (R44). -/
def State.mapOwnerSource (s : State) (f : SourceIntake → SourceIntake) : State :=
  match s.intake.owner.source with
  | none => s
  | some n => s.mapIntake fun i => i.mapSrc n f

/-- TEXT_BOLD (R43, R44). -/
def execTextBold (s : State) : Host.Outcome State Fault Refusal :=
  .next (s.consumeText (· == 20) fun _ _ s =>
    some (s.mapOwnerSource fun r => { r with bold := !r.bold }))

/-- TEXT_UNDERLINE (R43, R44). -/
def execTextUnderline (s : State) : Host.Outcome State Fault Refusal :=
  .next (s.consumeText (· == 21) fun _ _ s =>
    some (s.mapOwnerSource fun r => { r with underline := !r.underline }))

/-! ### The end of a job and of the keyboard's ownership -/

/-- JOB_IDLE_EXPIRY (R36): held during a power warning; otherwise the open job becomes ENDING. -/
def execJobIdleExpiry (n : SourceNo) (s : State) : Host.Outcome State Fault Refusal :=
  .next (s.whenRunning fun s =>
    let r := s.intake.src n
    if r.idleRunning = false ∨ s.supply.power = .powerWarn then s
    else
      match r.job with
      | .opened id last => s.endJob n id last
      | _ => s)

/-- JOB_CLOSE (R35): the job of either source that is ENDING closes, if its commit need not wait. -/
def execJobClose (s : State) : Host.Outcome State Fault Refusal :=
  .next (s.whenRunning fun s => (s.closeJob .source1).closeJob .source2)

/-- KEYBOARD_LAPSE (R40). -/
def execKeyboardLapse (s : State) : Host.Outcome State Fault Refusal :=
  .next (s.whenRunning fun s =>
    if s.lapsesEmpty then s.releaseLine else if s.lapsesLost then s.lapseLost else s)

end Sys2Proof.Machine
end

