-- ==== Sys2Proof/Machine/Mechanism.lean ====
section
/-! DEFINITION. The print mechanism's commands (Chapter 6): completions, expiries and halts, and the
cover, ribbon and tape inputs (Chapters 3, 6 and 7). -/

namespace Sys2Proof.Machine

/-! ### Completions of actions (R119 to R121, R152) -/

/-- The head action has completed and leaves the queue; the carriage stands at a position (R113,
R130). -/
def State.headDone (s : State) (carriage petal : Nat) : State :=
  s.mapSeq fun q =>
    { q with
      queue := q.queue.tail, work := none, headStarted := false, retry := false
      carriage := carriage, petal := petal }

/-- The petal after an action with this drive. -/
def Sequencer.petalAfter (q : Sequencer) (d : Option Drive) : Nat := (d.map (·.petal)).getD q.petal

/-- One more strike done on an entry; a QUEUED entry whose strikes are all done is STRUCK (R90). -/
def Entry.counted (e : Entry) : Entry :=
  { e with
    done := e.done + 1
    strike := if e.strike = some .queued ∧ e.done + 1 = e.total then some .struck else e.strike }

/-- The completion of a STRIKE counted on its entry; a line or an entry that is gone is not changed
(R90). -/
def State.countStrike (s : State) (b : Blow) : State :=
  s.updateLine b.line fun l =>
    { l with entries := l.entries.map fun e => if e.id = b.entry then e.counted else e }

/-- STRIKE_COMPLETE (R119). -/
def execStrikeComplete (s : State) : Host.Outcome State Fault Refusal :=
  .next (s.whenRunning fun s =>
    match s.seq.work, s.seq.queue with
    | some (.action d), .strike b :: _ =>
      ((s.headDone b.position (s.seq.petalAfter d)).countStrike b).settle
    | _, _ => s)

/-- One lift of an entry is done in the lift table (R152 step 2). -/
def liftRecordsAfter (line : Word) (id : Nat) (lifts : List LiftRec) : List LiftRec :=
  (lifts.map fun r =>
    if r.line = line ∧ r.entry = id then { r with outstanding := r.outstanding - 1 } else r).filter
      fun r => 0 < r.outstanding

/-- The entry of a LIFT has its last lift done: its record has one lift outstanding (R152 step 3). -/
def lastLift (line : Word) (id : Nat) (lifts : List LiftRec) : Bool :=
  lifts.any fun r => r.line == line && r.entry == id && r.outstanding == 1

/-- A LIFTING entry is deleted from its line; an emptied current line may end the keyboard's ownership
(R40, R152 step 3). -/
def State.deleteLifted (s : State) (line : Word) (id : Nat) : State :=
  let s1 := s.updateLine line fun l => { l with entries := l.entries.filter (·.id != id) }
  if s1.lines.current.entries ≠ s.lines.current.entries ∧ s1.lapsesEmpty = true then s1.releaseLine
  else s1

/-- A LIFT completes at the Correction Unit and the Line Store (R120, R152). -/
def State.countLift (s : State) (b : Blow) : State :=
  let s1 := s.mapCorr fun c => { c with reserved := c.reserved - 1 }
  let s2 := s1.setTape (s1.corr.tape - 1)
  let s3 := s2.mapCorr fun c => { c with lifts := liftRecordsAfter b.line b.entry c.lifts }
  if lastLift b.line b.entry s.corr.lifts then s3.deleteLifted b.line b.entry else s3

/-- LIFT_COMPLETE (R152). -/
def execLiftComplete (s : State) : Host.Outcome State Fault Refusal :=
  .next (s.whenRunning fun s =>
    match s.seq.work, s.seq.queue with
    | some (.action d), .lift b _ :: _ =>
      ((s.headDone b.position (s.seq.petalAfter d)).countLift b).settle
    | _, _ => s)

/-- MOVE_COMPLETE (R121). -/
def execMoveComplete (s : State) : Host.Outcome State Fault Refusal :=
  .next (s.whenRunning fun s =>
    match s.seq.work, s.seq.queue with
    | some (.action _), .move x :: _ => (s.headDone x s.seq.petal).settle
    | _, _ => s)

/-- FEED_COMPLETE (R121). -/
def execFeedComplete (s : State) : Host.Outcome State Fault Refusal :=
  .next (s.whenRunning fun s =>
    match s.seq.work, s.seq.queue with
    | some (.action _), .feed d x :: _ =>
      ((s.headDone x s.seq.petal).mapSeq fun q =>
        { q with paperCount := q.paperCount.move d }).settle
    | _, _ => s)

/-! ### Homing and the wheel read (R46, R125) -/

/-- The wheel is home and its code read: the petal is 0, read due is cleared and the mounted family is
set (R46, R125). -/
def State.wheelRead (s : State) (code : Nat) : State :=
  (s.mapSeq fun q => { q with work := none, petal := 0, readDue := false }).mapWheel fun w =>
    { w with mounted := Family.ofNumber code }

/-- The wake ends: the power state becomes RUN (R201). During a power warning it waits for the
recovery (R199). -/
def State.endWake (s : State) : State :=
  if s.supply.power = .standby then
    (s.mapSupply fun u => { u with wakeMark := false }).setPower .run
  else s

/-- The MOVE to the cursor point at the end of a wake's homing (R129), if the print queue has a place
for it (R113; log 39). -/
def State.wakeMove (s : State) : State :=
  if s.freePlaces = 0 then s else s.enqueue [.move s.cursorPoint]

/-- What Supply and Standby is told when a homing of this purpose has completed (R125, R129, R201,
R202). -/
def State.homed (s : State) : HomingWhy → State
  | .start => (s.mapSupply fun u => { u with homingDone := true }).leaveStarting
  | .wake => s.wakeMove.endWake
  | .recovery => s
  | .clear => s

/-- HOMING_COMPLETE (R125): the retry mark is cleared unless an action is in execution (R130). -/
def execHomingComplete (code : Fin 8) (s : State) : Host.Outcome State Fault Refusal :=
  .next (s.whenRunning fun s =>
    match s.seq.work with
    | some (.homing why) =>
      (((s.wheelRead code).mapSeq fun q =>
        { q with carriage := 0, retry := q.retry && q.headStarted }).homed why).settle
    | _ => s)

/-- WHEEL_READ_COMPLETE (R46). -/
def execWheelReadComplete (code : Fin 8) (s : State) : Host.Outcome State Fault Refusal :=
  .next (s.whenRunning fun s =>
    match s.seq.work with
    | some .wheelRead => (s.wheelRead code).settle
    | _ => s)

/-! ### The limit (R130, R131) -/

/-- The halt cause by the work and the part that had not settled (R131). -/
def haltCauseOf (w : Work) (head : Option Action) (parts : Unsettled) : HaltCause :=
  match w, head with
  | .action _, some (.move _) => .carriage
  | .action _, some (.feed _ _) => if parts.paper then .feed else .carriage
  | .action _, _ => if parts.carriage then .carriage else if parts.wheel then .wheel else .hammer
  | _, _ => if parts.carriage then .carriage else .wheel

/-- The mechanism enters HALTED with a cause (R131, R188, R189). -/
def State.halt (s : State) (c : HaltCause) : State :=
  (((s.mapSeq fun q => { q with work := none, haltCause := some c }).mapDisp fun d =>
    { d with transient := none, standing := { d.standing with halt := some c } }).setMech
      .halted none none).requestAlert .fault

/-- What Supply and Standby is told when a homing of this purpose has halted (R201, R202). -/
def State.homingHalted (s : State) : HomingWhy → State
  | .start => (s.mapSupply fun u => { u with homingDone := true }).leaveStarting
  | .wake => s.endWake
  | .recovery => s
  | .clear => s

/-- The homing that recovers a first expiry: that homing once more, or one of its own (R130). -/
def recoveryOf : Work → HomingWhy
  | .homing why => why
  | _ => .recovery

/-- A first expiry: the retry mark is set and homing runs (R130). -/
def State.firstExpiry (s : State) (w : Work) : State :=
  (s.mapSeq fun q => { q with retry := true }).startHoming (recoveryOf w)

/-- An expiry while the retry mark is set: the mechanism halts (R131). -/
def State.secondExpiry (s : State) (w : Work) (parts : Unsettled) : State :=
  let t := s.halt (haltCauseOf w s.seq.queue.head? parts)
  match w with
  | .homing why => t.homingHalted why
  | _ => t

/-- ACTION_LIMIT_EXPIRY (R130). -/
def execActionLimitExpiry (parts : Unsettled) (s : State) : Host.Outcome State Fault Refusal :=
  .next (s.whenRunning fun s =>
    match s.seq.work with
    | none => s
    | some w => if s.seq.retry then s.secondExpiry w parts else s.firstExpiry w)

/-! ### Cover, ribbon and tape (R56, R126, R127, R137) -/

/-- The cover opens while it is watched: a tape exchanged in STANDBY is seen, and the head is examined
(R126, R137). -/
def State.coverOpened (s : State) : State :=
  ((s.mapCorr fun c => { c with newTape := c.newTape || s.pins.freshTape }).mapPins fun p =>
    { p with freshTape := false }).examineHead

/-- COVER_OPEN (R126). -/
def execCoverOpen (s : State) : Host.Outcome State Fault Refusal :=
  let t := s.mapPins fun p => { p with coverOpen := true }
  .next (if s.inputsWatched then t.coverOpened else t)

/-- The cover closes while it is watched: read due is set, and a new tape counts 900 (R126, R137). -/
def State.coverClosed (s : State) : State :=
  let s1 := s.mapSeq fun q => { q with readDue := true }
  let s2 :=
    if s.corr.newTape then
      (s1.mapCorr fun c => { c with newTape := false }).setTape Config.newTapeCount
    else s1
  s2.examineHead

/-- COVER_CLOSE (R126). A cover that is closed already does not close (log 2). -/
def execCoverClose (s : State) : Host.Outcome State Fault Refusal :=
  let t := s.mapPins fun p => { p with coverOpen := false }
  .next (if s.pins.coverOpen && s.inputsWatched then t.coverClosed else t)

/-- RIBBON_KIND_CHANGE (R56). -/
def execRibbonKindChange (kind : RibbonKind) (s : State) : Host.Outcome State Fault Refusal :=
  let t := s.mapPins fun p => { p with ribbon := kind }
  .next (
    if s.ribbonWatched = true ∧ s.wheel.ribbon ≠ kind then
      (t.mapWheel fun w => { w with ribbon := kind }).examineHead
    else t)

/-- TAPE_NEW (R137): ignored while the cover is closed. While the mechanism is PARKED the input is not
watched, and the exchange is seen when the cover next opens and closes after the wake (log 41). -/
def execTapeNew (s : State) : Host.Outcome State Fault Refusal :=
  .next (
    if s.stopped || !s.pins.coverOpen then s
    else if s.seq.mech = .parked then s.mapPins fun p => { p with freshTape := true }
    else s.mapCorr fun c => { c with newTape := true })

end Sys2Proof.Machine
end

