-- ==== Sys2Proof/Machine/Power.lean ====
section
/-! DEFINITION. The panel's and the tone's expiries (Chapter 9), the store, the supply, the starts and
standby (Chapter 10). -/

namespace Sys2Proof.Machine

/-! ### Panel and tone (R180, R187, R190) -/

/-- MESSAGE_TIME_EXPIRY (R187). -/
def execMessageTimeExpiry (s : State) : Host.Outcome State Fault Refusal :=
  .next (s.whenRunning State.endMessage)

/-- BLINK (R180): the phase runs while the panel is ON. -/
def execBlink (s : State) : Host.Outcome State Fault Refusal :=
  .next (s.whenRunning fun s =>
    s.mapDisp fun d => if d.panel = .on then { d with lit := !d.lit } else d)

/-- TONE_PATTERN_END (R190). -/
def execTonePatternEnd (s : State) : Host.Outcome State Fault Refusal :=
  .next (s.whenRunning fun s => s.mapAlert fun u => { u with current := none })

/-! ### The load at a start (R195) -/

/-- A list of numbers is strictly rising. -/
def rising : List Nat → Bool
  | a :: b :: r => a < b && rising (b :: r)
  | _ => true

/-- Every value of a settings block lies in its range (R195). -/
def Settings.inRange (c : Settings) : Bool :=
  c.left ≤ 1680 && c.left + Config.marginGap ≤ c.right && c.right ≤ 1800 && rising c.tabs &&
    c.tabs.length ≤ Config.tabCapacity && 2 ≤ c.spacing && c.spacing ≤ 4 && 1 ≤ c.impression &&
    c.impression ≤ 3

/-- A code that a folded form can hold (R195). -/
def isFormCode (c : Nat) : Bool :=
  (97 ≤ c && c ≤ 122) || c == 131 || c == 133 || c == 135 || c == 137 || c == 139 || c == 39

/-- No two forms of a list are equal. -/
def allDistinct : List (List Nat) → Bool
  | [] => true
  | w :: ws => !ws.contains w && allDistinct ws

/-- Every value of a user list block lies in its range (R195). -/
def userListInRange (words : List (List Nat)) : Bool :=
  words.length ≤ Config.userCapacity &&
    words.all (fun w => 2 ≤ w.length && w.length ≤ 24 && w.all isFormCode) && allDistinct words

/-- A block is valid: its mark is set, its check value matches and its values are in range (R195). -/
def StoredBlock.isValid {α : Type} (b : StoredBlock α) (check : α → Word) (inRange : α → Bool) : Bool :=
  b.valid && decide (b.check = check b.contents) && inRange b.contents

/-- The margins and stops of a valid block clamped against the platen width (R195). -/
def Settings.clamp (c : Settings) (platen : Nat) : Settings :=
  let right := if platen < c.right then platen - 120 else c.right
  let left := if right < c.left + 120 then right - 120 else c.left
  { c with left := left, right := right, tabs := c.tabs.filter fun t => left < t && t < right }

/-- The settings that a start takes from the store (R195). -/
def StoreUnit.loadSettings (u : StoreUnit) (platen : Nat) : Settings :=
  if u.settings.isValid Settings.checkValue Settings.inRange then u.settings.contents.clamp platen
  else Settings.default platen

/-- The tape count that a start takes from the store (R195). -/
def StoreUnit.loadTape (u : StoreUnit) : Nat :=
  if u.tape.isValid tapeCheckValue (fun n => n ≤ 900) then u.tape.contents else 0

/-- The user word list that a start takes from the store (R195). -/
def StoreUnit.loadUserList (u : StoreUnit) : List (List Nat) :=
  if u.userList.isValid userCheckValue userListInRange then u.userList.contents else []

/-! ### The start sequence (R202) -/

/-- The platen width of a strap (R60). -/
def platenOf (t : Straps) : Nat := if t.wide then 1800 else 1560

/-- Steps 1 and 2 of a start: every unit at its after-start value, with the defaults standing for the
values not loaded yet, the straps and the ribbon kind sampled. The roll call and the homing have not
begun. The store keeps its blocks. -/
def State.fresh (s : State) (cause : StartCause) (t : Straps) : State :=
  let c := Settings.default (platenOf t)
  { State.reset with
    bus := { State.reset.bus with own := t.station, table := freshTable t.station, queue := [] }
    wheel := ⟨none, s.pins.ribbon⟩
    esc := { State.reset.esc with platen := platenOf t, right := c.right }
    seq := { State.reset.seq with mech := .parked, work := none }
    store :=
      { s.store with
        dirtySettings := false, dirtyTape := false, dirtyUser := false, inFlight := none
        loadWaits := false }
    supply := { State.reset.supply with startCause := cause }
    pins := s.pins
    pending := s.pending }

/-- Step 3 of a start: the loaded values are handed to their owners (R195). -/
def State.load (s : State) : State :=
  let c := s.store.loadSettings s.esc.platen
  let mode : Mode := if c.hold then .hold else .direct
  { s with
    esc := { s.esc with
      left := c.left, right := c.right, tabs := c.tabs, spacing := c.spacing, justify := c.justify }
    lines := { s.lines with
      hold := c.hold
      current := { s.lines.current with start := c.left, mode := mode } }
    seq := { s.seq with impression := c.impression }
    corr := { s.corr with tape := s.store.loadTape }
    spell := { s.spell with isOn := c.spelling, userWords := s.store.loadUserList }
    alert := { s.alert with silence := c.silence }
    store := { s.store with loadWaits := false } }

/-- The two frames that the roll call enqueues, ROLL and then the first REPORT (R12, R23). The queue is
emptied before the ROLL (R21); it holds nothing yet, since no frame is enqueued before the roll call
begins (log 34). A controller that has entered CONFLICT while its load waited enqueues nothing (R14). -/
def State.beginRollCall (s : State) : State :=
  if s.bus.conflict then s
  else
    s.mapBus fun b =>
      { b with
        queue := [.roll, .report (s.buildReport .plain (some s.supply.startCause))]
        sending := none, heldReport := none }

/-- Step 4 of a start: the roll call and the homing begin (R12, R125). A homing begins although the hold
is on, when a load that waited ends in a power warning: R129 lets no action and no WHEEL-READ start then
and does not name homing (DESIGN CHOICE, log 44). -/
def State.beginStart (s : State) : State := s.beginRollCall.startHoming .start

/-- A start (R202). A write that the store is still finishing holds up the load (log 34). -/
def State.start (s : State) (cause : StartCause) (t : Straps) : State :=
  let f := s.fresh cause t
  if f.store.finishing.isSome then f.mapStore fun u => { u with loadWaits := true }
  else f.load.beginStart

/-- COLD_START (R202): the supply has risen above the reset level. While RESET is held the controller
stays stopped; a start while the controller runs stands for a stop and a start (log 12). -/
def execColdStart (t : Straps) (s : State) : Host.Outcome State Fault Refusal :=
  .next (
    if s.supply.resetHeld then s.mapSupply fun u => { u with low := false }
    else (s.mapStore fun u => { u with finishing := none }).start .cold t)

/-- A write in flight is left to the store itself to finish (R202). -/
def State.leaveWrite (s : State) : State :=
  s.mapStore fun u =>
    { u with
      finishing := match u.inFlight with
        | some b => some b
        | none => u.finishing
      inFlight := none, loadWaits := false }

/-- LINE_START (R202): RESET is released. While the supply is low the controller stays stopped; a start
while the controller runs stands for a stop and a start (log 12). -/
def execLineStart (t : Straps) (s : State) : Host.Outcome State Fault Refusal :=
  .next (
    if s.supply.low then s.mapSupply fun u => { u with resetHeld := false }
    else s.leaveWrite.start .line t)

/-! ### Stops (R199, R202) -/

/-- The drives are released, the bus left undriven and the tone and panel undriven with the rest
(R199): nothing is in execution or on the line. -/
def State.release (s : State) : State :=
  (s.mapSeq fun q => { q with work := none }).mapBus fun b =>
    { b with sending := none, answer := .absent }

/-- SUPPLY_RESET (R196, R199): a write is cut off, its block not valid. -/
def execSupplyReset (s : State) : Host.Outcome State Fault Refusal :=
  .next ((s.release.mapStore fun u =>
    { u with inFlight := none, finishing := none, loadWaits := false }).mapSupply fun u =>
      { u with low := true })

/-- RESET_ASSERTED (R202): a write that has begun is finished by the store itself. -/
def execResetAsserted (s : State) : Host.Outcome State Fault Refusal :=
  .next (s.release.leaveWrite.mapSupply fun u => { u with resetHeld := true })

/-! ### The store's completion report (R196, R202) -/

/-- STORE_WRITE_COMPLETE (R196): the block is valid, and the next dirty block is started. For a write
that was left to the store, the load that waits for it goes on first (R202; log 34). -/
def execStoreWriteComplete (s : State) : Host.Outcome State Fault Refusal :=
  .next (
    match s.store.finishing with
    | some b =>
      let t := s.mapStore fun u => { u.validate b with finishing := none }
      if s.stopped then t
      else (if s.store.loadWaits then t.load.beginStart else t).startWrite
    | none =>
      s.whenRunning fun s =>
        match s.store.inFlight with
        | none => s
        | some b => (s.mapStore fun u => { u.validate b with inFlight := none }).startWrite)

/-! ### The power warning (R198, R199) -/

/-- SUPPLY_WARNING (R198). -/
def execSupplyWarning (s : State) : Host.Outcome State Fault Refusal :=
  .next (s.whenRunning fun s =>
    if s.supply.power = .powerWarn then s
    else
      let s1 := (s.mapSupply fun u => { u with prior := u.power }).mapSeq fun q =>
        { q with hold := true }
      (s1.setPower .powerWarn).markTapeDirty)

/-- What the return to a prior state carries on with (R199): the leaving of STARTING, or the end of a
wake whose homing is over. -/
def State.resume (s : State) : State :=
  match s.supply.power with
  | .starting => s.leaveStarting
  | .standby =>
    if s.supply.wakeMark = true ∧ s.seq.work ≠ some (.homing .wake) then s.endWake else s
  | _ => s

/-- SUPPLY_RECOVERY (R199). -/
def execSupplyRecovery (s : State) : Host.Outcome State Fault Refusal :=
  .next (s.whenRunning fun s =>
    if s.supply.power = .powerWarn then
      ((s.mapSeq fun q => { q with hold := false }).setPower s.supply.prior).resume.examineHead
    else s)

/-! ### Standby (R200) -/

/-- The machine enters STANDBY (R129, R179, R193, R200). -/
def State.enterStandby (s : State) : State :=
  let s1 := s.setPower .standby
  let s2 := s1.mapSeq fun q => { q with mech := .parked, readDue := false, retry := false }
  let s3 := s2.mapDisp fun d => { d with panel := .off, lit := true, transient := none }
  (s3.mapAlert fun u => { u with current := none }).markTapeDirty

/-- STANDBY_IDLE_EXPIRY (R200). -/
def execStandbyIdleExpiry (s : State) : Host.Outcome State Fault Refusal :=
  .next (if s.standbyIdleRunning then s.enterStandby else s)

end Sys2Proof.Machine
end

