-- ==== Sys2Proof/Machine/Display.lean ====
section
/-! DEFINITION. What the panel shows and the tone output sounds, computed from the state (Chapter 9):
annunciators, messages, the 32 cells, and the hammer and wheel drives of Chapter 6. -/

namespace Sys2Proof.Machine

/-! ### Annunciators (R186) -/

/-- The eight annunciators (R186). -/
inductive Annunciator where
  | hold | just | spell | tape | wheel | bold | under | job
deriving DecidableEq, Repr

/-- What a source makes a segment do (R186). -/
inductive Segment where
  | dark | lit | blinking
deriving DecidableEq, Repr

/-- Lit for on, dark for off. -/
def litWhen (b : Bool) : Segment := if b then .lit else .dark

/-- The source of each annunciator (R186). In a power warning that comes while the mechanism is
WAITING-WHEEL the machine state is POWER-WARN, and WHEEL stops blinking, as the table of R186 asks for the
machine state, although R179 keeps every item of the panel in a power warning (DESIGN CHOICE, log 46). -/
def State.segmentSource (s : State) : Annunciator → Segment
  | .hold => litWhen s.lines.hold
  | .just => litWhen s.esc.justify
  | .spell =>
    if s.spell.isOn = false then .dark else if s.dictionaryMissing then .blinking else .lit
  | .tape =>
    if s.corr.tape = 0 then .blinking else if s.corr.tape ≤ 50 then .lit else .dark
  | .wheel =>
    if s.machine = .waitingWheel then .blinking else litWhen s.wheel.mounted.isNone
  | .bold => litWhen s.seq.bold
  | .under => litWhen s.seq.underline
  | .job => litWhen s.intake.owner.source.isSome

/-- Whether a segment is lit now: only while the panel is ON, and a blinking one in the LIT phase
(R180, R186). -/
def State.segmentLit (s : State) (a : Annunciator) : Bool :=
  s.disp.panel == .on &&
    match s.segmentSource a with
    | .dark => false
    | .lit => true
    | .blinking => s.disp.lit

/-! ### Glyphs and cells (R181 to R183) -/

/-- What the glyph rows of a cell show (R181). -/
inductive Glyph where
  | blank
  | code (code : Nat)
  | hollowBox
  | tabArrow
  | halfSpaceMark
  | gapDot
deriving DecidableEq, Repr

/-- A cell: its glyph rows and its two bottom rows, the lower of which is the underline row (R181 to
R183). -/
structure Cell where
  glyph : Glyph
  upperRow : Bool
  underlineRow : Bool
deriving DecidableEq, Repr

/-- A blank cell. -/
def Cell.blank : Cell := ⟨.blank, false, false⟩

/-- The character generator (R181). -/
def glyphOf (code : Nat) : Glyph :=
  if inCharset1 code || (130 ≤ code && code ≤ 139) then .code code else .hollowBox

/-- The glyph of an entry (R181). -/
def Entry.glyph (e : Entry) : Glyph :=
  match e.kind with
  | .char code _ _ => glyphOf code
  | .space => .blank
  | .tab _ => .tabArrow
  | .halfSpace => .halfSpaceMark
  | .gap => .gapDot

/-- An entry of a FLAGGED word of its line (R182). -/
def Line.isFlagged (l : Line) (e : Entry) : Bool :=
  l.words.any fun w => w.state == .flagged && e.serial == some w.serial

/-- The cell of a live entry, in the blink phase (R181, R182). -/
def entryCell (l : Line) (lit : Bool) (e : Entry) : Cell :=
  ⟨if l.isFlagged e && !lit then .blank else e.glyph, false, e.underline⟩

/-- The cell of an index with the cursor in it, in the blink phase (R183). -/
def Cell.withCursor (c : Cell) (lit : Bool) : Cell :=
  if lit then { c with upperRow := true, underlineRow := true } else c

/-- Cell k of the displayed line (R181 to R183). -/
def State.lineCell (s : State) (k : Nat) : Cell :=
  let l := s.lines.displayed
  let i := s.disp.window + k
  let c := (l.live[i]?.map (entryCell l s.disp.lit)).getD .blank
  if i = s.lines.cursor then c.withCursor s.disp.lit else c

/-! ### Messages (R187 to R189) -/

/-- The text of a transient message (R187). -/
def Message.text : Message → String
  | .noWheel => "NO WHEEL"
  | .notOnWheel => "NOT ON WHEEL"
  | .lineFull => "LINE FULL"
  | .noTabStop => "NO TAB STOP"
  | .noRoom => "NO ROOM"
  | .tabOutOfRange => "TAB OUT OF RANGE"
  | .tabAlreadySet => "TAB ALREADY SET"
  | .tabsFull => "TABS FULL"
  | .noTabHere => "NO TAB HERE"
  | .marginTooNarrow => "MARGIN TOO NARROW"
  | .lineNotEmpty => "LINE NOT EMPTY"
  | .lineStart => "LINE START"
  | .lineEnd => "LINE END"
  | .relocateFirst => "RELOCATE FIRST"
  | .noLineAbove => "NO LINE ABOVE"
  | .noLineBelow => "NO LINE BELOW"
  | .nothingToCorrect => "NOTHING TO CORRECT"
  | .cannotReopen => "CANNOT REOPEN"
  | .noFlaggedWord => "NO FLAGGED WORD"
  | .wheelMismatch => "WHEEL MISMATCH"
  | .tapeEmpty => "TAPE EMPTY"
  | .tooManyLifts => "TOO MANY LIFTS"
  | .listFull => "LIST FULL"
  | .toneOff => "TONE OFF"
  | .toneOn => "TONE ON"

/-- A text as glyphs. -/
def glyphsOf (text : String) : List Glyph :=
  text.toList.map fun c => if c = ' ' then .blank else .code c.toNat

/-- The halt message (R188). -/
def HaltCause.text : HaltCause → String
  | .carriage => "HALT: CARRIAGE"
  | .wheel => "HALT: WHEEL"
  | .hammer => "HALT: HAMMER"
  | .feed => "HALT: FEED"

/-- The wheel message (R188). -/
def WheelNeed.glyphs : WheelNeed → List Glyph
  | .code c => glyphsOf "WHEEL NEEDED FOR " ++ [glyphOf c]
  | .family f => glyphsOf "MOUNT WHEEL FAMILY " ++ [.code (48 + f.number)]
  | .noWheel => glyphsOf "NO WHEEL MOUNTED"

/-- The pause message (R188). -/
def PauseCause.text : PauseCause → String
  | .cover => "COVER OPEN"
  | .ribbon => "RIBBON OUT"

/-- The standing message of rank 1 or 2, if one is set (R188, R189). -/
def Standing.urgent (c : Standing) : Option (List Glyph) :=
  if c.conflict then some (glyphsOf "STATION CONFLICT") else c.halt.map fun h => glyphsOf h.text

/-- The standing message of rank 3, 4 or 5, if one is set (R188). -/
def Standing.ordinary (c : Standing) : Option (List Glyph) :=
  match c.wheel, c.pause with
  | some need, _ => some need.glyphs
  | none, some cause => some (glyphsOf cause.text)
  | none, none => if c.noKeyboard then some (glyphsOf "NO KEYBOARD") else none

/-- The message over the cells while the panel is ON (R189 cases 1 to 3). -/
def Display.message (d : Display) : Option (List Glyph) :=
  d.standing.urgent <|> (d.transient.map fun m => glyphsOf m.text) <|> d.standing.ordinary

/-- Cell k of a message: its text starts in cell 0 (R189). -/
def messageCell (text : List Glyph) (k : Nat) : Cell := ⟨text[k]?.getD .blank, false, false⟩

/-- Cell k of the panel, for k from 0 to 31 (R180, R189). -/
def State.cell (s : State) (k : Nat) : Cell :=
  match s.disp.panel with
  | .off => .blank
  | .blank =>
    if s.disp.standing.conflict then messageCell (glyphsOf "STATION CONFLICT") k else .blank
  | .on =>
    match s.disp.message with
    | some text => messageCell text k
    | none => s.lineCell k

/-- The 32 cells of the panel. -/
def State.cells (s : State) : List Cell := (List.range 32).map s.cell

/-! ### The tone output (R190) -/

/-- What the tone output plays for an alert (R190). -/
inductive Pattern where
  | oneLongTone | oneShortTone | twoShortTones | bellStroke
deriving DecidableEq, Repr

/-- The pattern of each alert (R190). -/
def Alert.pattern : Alert → Pattern
  | .fault => .oneLongTone
  | .refuse => .oneShortTone
  | .spell => .twoShortTones
  | .bell => .bellStroke

/-- The pattern that the tone output plays: that of the current tone (R190). -/
def State.tone (s : State) : Option Pattern := s.alert.current.map Alert.pattern

/-! ### Drives (R119 to R123) -/

/-- The hammer pulse and the turn of the action in execution, as worked out at its start. -/
def State.drive (s : State) : Option Drive :=
  match s.seq.work with
  | some (.action d) => d
  | _ => none

end Sys2Proof.Machine
end

