-- ==== Sys2Proof/Machine/Dispatch.lean ====
section
/-! DEFINITION. The meaning of every command, one arm per constructor of Instr. -/

namespace Sys2Proof.Machine

/-- What a command does to everything but the queue of commands. -/
def exec (i : Instr) (s : State) : Host.Outcome State Fault Refusal :=
  match i with
  | .frameSendStart position => Sys2Proof.Machine.execFrameSendStart position s
  | .frameSent outcome => Sys2Proof.Machine.execFrameSent outcome s
  | .sendMismatch => Sys2Proof.Machine.execSendMismatch s
  | .frameCheckFailed bytes => Sys2Proof.Machine.execFrameCheckFailed bytes s
  | .key sender code repeatFlag => Sys2Proof.Machine.execKey sender code repeatFlag s
  | .text sender block => Sys2Proof.Machine.execText sender block s
  | .answer sender tag verdict => Sys2Proof.Machine.execAnswer sender tag verdict s
  | .roll sender kind first second => Sys2Proof.Machine.execRoll sender kind first second s
  | .refusedFrame bytes => Sys2Proof.Machine.execRefusedFrame bytes s
  | .discardedBroadcast bytes => Sys2Proof.Machine.execDiscardedBroadcast bytes s
  | .queryLeftToDictionary bytes => Sys2Proof.Machine.execQueryLeftToDictionary bytes s
  | .rollWindowClose => Sys2Proof.Machine.execRollWindowClose s
  | .answerExpiry tag => Sys2Proof.Machine.execAnswerExpiry tag s
  | .returnKey => Sys2Proof.Machine.execReturn s
  | .tab => Sys2Proof.Machine.execTab s
  | .backspace => Sys2Proof.Machine.execBackspace s
  | .cursorRight => Sys2Proof.Machine.execCursorRight s
  | .lineUp => Sys2Proof.Machine.execLineUp s
  | .lineDown => Sys2Proof.Machine.execLineDown s
  | .relocate => Sys2Proof.Machine.execRelocate s
  | .halfSpace => Sys2Proof.Machine.execHalfSpace s
  | .correct => Sys2Proof.Machine.execCorrect s
  | .wordCorrect => Sys2Proof.Machine.execWordCorrect s
  | .spellCorrect => Sys2Proof.Machine.execSpellCorrect s
  | .marginRelease => Sys2Proof.Machine.execMarginRelease s
  | .setLeftMargin => Sys2Proof.Machine.execSetLeftMargin s
  | .setRightMargin => Sys2Proof.Machine.execSetRightMargin s
  | .setTab => Sys2Proof.Machine.execSetTab s
  | .clearTab => Sys2Proof.Machine.execClearTab s
  | .clearAllTabs => Sys2Proof.Machine.execClearAllTabs s
  | .hold => Sys2Proof.Machine.execHold s
  | .justify => Sys2Proof.Machine.execJustify s
  | .bold => Sys2Proof.Machine.execBold s
  | .underline => Sys2Proof.Machine.execUnderline s
  | .impression => Sys2Proof.Machine.execImpression s
  | .lineSpacing => Sys2Proof.Machine.execLineSpacing s
  | .spell => Sys2Proof.Machine.execSpell s
  | .addWord => Sys2Proof.Machine.execAddWord s
  | .storeSettings => Sys2Proof.Machine.execStoreSettings s
  | .paperUp => Sys2Proof.Machine.execPaperUp s
  | .paperDown => Sys2Proof.Machine.execPaperDown s
  | .stopJob => Sys2Proof.Machine.execStopJob s
  | .clear => Sys2Proof.Machine.execClear s
  | .tone => Sys2Proof.Machine.execTone s
  | .space => Sys2Proof.Machine.execSpace s
  | .printingCharacter => Sys2Proof.Machine.execPrintingCharacter s
  | .textCharacter => Sys2Proof.Machine.execTextCharacter s
  | .textReturn => Sys2Proof.Machine.execTextReturn s
  | .textTab => Sys2Proof.Machine.execTextTab s
  | .textHalfSpace => Sys2Proof.Machine.execTextHalfSpace s
  | .textBold => Sys2Proof.Machine.execTextBold s
  | .textUnderline => Sys2Proof.Machine.execTextUnderline s
  | .jobIdleExpiry source => Sys2Proof.Machine.execJobIdleExpiry source s
  | .jobClose => Sys2Proof.Machine.execJobClose s
  | .keyboardLapse => Sys2Proof.Machine.execKeyboardLapse s
  | .strikeComplete => Sys2Proof.Machine.execStrikeComplete s
  | .liftComplete => Sys2Proof.Machine.execLiftComplete s
  | .moveComplete => Sys2Proof.Machine.execMoveComplete s
  | .feedComplete => Sys2Proof.Machine.execFeedComplete s
  | .homingComplete code => Sys2Proof.Machine.execHomingComplete code s
  | .wheelReadComplete code => Sys2Proof.Machine.execWheelReadComplete code s
  | .actionLimitExpiry parts => Sys2Proof.Machine.execActionLimitExpiry parts s
  | .coverOpen => Sys2Proof.Machine.execCoverOpen s
  | .coverClose => Sys2Proof.Machine.execCoverClose s
  | .ribbonKindChange kind => Sys2Proof.Machine.execRibbonKindChange kind s
  | .tapeNew => Sys2Proof.Machine.execTapeNew s
  | .messageTimeExpiry => Sys2Proof.Machine.execMessageTimeExpiry s
  | .blink => Sys2Proof.Machine.execBlink s
  | .tonePatternEnd => Sys2Proof.Machine.execTonePatternEnd s
  | .storeWriteComplete => Sys2Proof.Machine.execStoreWriteComplete s
  | .supplyWarning => Sys2Proof.Machine.execSupplyWarning s
  | .supplyRecovery => Sys2Proof.Machine.execSupplyRecovery s
  | .supplyReset => Sys2Proof.Machine.execSupplyReset s
  | .resetAsserted => Sys2Proof.Machine.execResetAsserted s
  | .coldStart straps => Sys2Proof.Machine.execColdStart straps s
  | .lineStart straps => Sys2Proof.Machine.execLineStart straps s
  | .standbyIdleExpiry => Sys2Proof.Machine.execStandbyIdleExpiry s

end Sys2Proof.Machine
end

