-- ==== Sys2Proof/Safety.lean ====
section
/-! DEFINITION. What counts as a sound state of the controller, and the words that claims about it use:
the laws every step keeps, the head key, and what a change of ownership alone may change. -/

namespace Sys2Proof.Machine

/-! ### Laws that every step keeps -/

/-- The capacity and the ids of a line record (R86, R87, R89). -/
structure Line.Sized (l : Line) : Prop where
  entries : l.entries.length ≤ 160
  nextId : l.nextId ≤ 256
  below : ∀ e ∈ l.entries, e.id < l.nextId
  unique : (l.entries.map (·.id)).Nodup

/-- What holds while a start's load waits (R202): the machine is STARTING, in a power warning or not, the
roll call has not begun and no LIFT is reserved. -/
structure State.LoadWaiting (s : State) : Prop where
  power : s.supply.power = .starting ∨ (s.supply.power = .powerWarn ∧ s.supply.prior = .starting)
  notDone : s.supply.rollCallDone = false
  window : s.bus.window ≠ .opened
  noRoll : OutFrame.roll ∉ s.bus.queue
  noLift : s.corr.reserved = 0

/-- Capacities and ranges that the manual states (R24, R60, R77, R86, R87, R89, R103, R111, R113, R135,
R136, R161, R164, R183). -/
structure State.Bounded (s : State) : Prop where
  keys : s.intake.keys.length ≤ 32
  actions : s.seq.queue.length ≤ 48
  ring : s.lines.ring.length ≤ 3
  items : s.spell.pending.length ≤ 8
  words : s.spell.userWords.length ≤ 48
  tape : s.corr.tape ≤ 900
  platen : s.esc.platen = 1560 ∨ s.esc.platen = 1800
  margins : s.esc.left + 120 ≤ s.esc.right
  stops : s.esc.tabs.length ≤ 16
  rising : s.esc.tabs.Pairwise (· < ·)
  between : ∀ t ∈ s.esc.tabs, s.esc.left < t ∧ t < s.esc.right
  spacing : 2 ≤ s.esc.spacing ∧ s.esc.spacing ≤ 4
  impression : 1 ≤ s.seq.impression ∧ s.seq.impression ≤ 3
  current : s.lines.current.Sized
  ringLines : ∀ l ∈ s.lines.ring, l.Sized
  window : s.disp.window ≤ s.lines.cursor ∧ s.lines.cursor ≤ s.disp.window + 31
  petal : s.seq.petal < 96 ∧ ∀ d, s.seq.work = some (.action (some d)) → d.petal < 96
  reserved : s.corr.reserved = liftCount s.seq.queue ∧ s.corr.reserved ≤ s.corr.tape
  loadWaits : s.store.loadWaits = true → s.LoadWaiting

/-- A queued frame is the QUERY of a tag. -/
def OutFrame.asks (tag : Fin 4) : OutFrame → Bool
  | .query _ t _ => t == tag
  | _ => false

/-- A queued frame is a SUMMARY. -/
def OutFrame.isSummary : OutFrame → Bool
  | .summary _ => true
  | _ => false

/-- A slot's QUERY is in the outgoing queue or on the line (R166). -/
def Slot.isSending : Slot → Bool
  | .free => false
  | .asking q => q.phase == .sending
  | .discarded q => q.phase == .sending

/-- The laws of the bus: in CONFLICT no frame waits or is sent (R14); at most one REPORT waits, one ROLL,
one SUMMARY, after the close of the window, and one QUERY for each slot in phase SENDING, so at most 8
frames (R21, R166, R167). -/
structure State.BusLawful (s : State) : Prop where
  silent : s.bus.conflict = true → s.bus.queue = [] ∧ s.bus.sending = none
  oneReport : s.bus.queue.countP OutFrame.isReport ≤ 1
  oneRoll : s.bus.queue.count .roll ≤ 1
  oneSummary : s.bus.queue.countP OutFrame.isSummary ≤ if s.bus.window = .closed then 1 else 0
  queries : ∀ tag : Fin 4, s.bus.queue.countP (OutFrame.asks tag) ≤
    if s.spell.slots[tag].isSending then 1 else 0
  frames : s.bus.queue.length ≤ 8

/-- The laws of the power state: the hold is on exactly in POWER-WARN, whose prior state is another
(R129, R198), and the wake mark is set only in STANDBY or in a warning that came in STANDBY (R199,
R201). -/
structure State.PowerLawful (s : State) : Prop where
  hold : s.seq.hold = true ↔ s.supply.power = .powerWarn
  prior : s.supply.power = .powerWarn → s.supply.prior ≠ .powerWarn
  wake : s.supply.wakeMark = true →
    s.supply.power = .standby ∨ (s.supply.power = .powerWarn ∧ s.supply.prior = .standby)

/-! ### The head key -/

/-- The row of a key code (R27). -/
def keyCommand (code : Nat) : Option Instr :=
  [(1, Instr.returnKey), (2, .tab), (3, .backspace), (4, .cursorRight), (5, .lineUp), (6, .lineDown),
    (7, .relocate), (8, .halfSpace), (9, .correct), (10, .wordCorrect), (11, .spellCorrect),
    (12, .marginRelease), (13, .setLeftMargin), (14, .setRightMargin), (15, .setTab),
    (16, .clearTab), (17, .clearAllTabs), (18, .hold), (19, .justify), (20, .bold),
    (21, .underline), (22, .impression), (23, .lineSpacing), (24, .spell), (25, .addWord),
    (26, .storeSettings), (27, .paperUp), (28, .paperDown), (29, .stopJob), (30, .clear),
    (31, .tone), (32, .space)].lookup code <|>
    if isCharCode code then some .printingCharacter else none

/-- The controller runs and consumes keys, and `k` is the head of the key queue with `rest` behind it
(R26). -/
structure State.HeadKey (s : State) (k : Keystroke) (rest : List Keystroke) : Prop where
  keys : s.intake.keys = k :: rest
  running : s.stopped = false
  consuming : s.keysSuspended = false

/-- The head key is decided by its own chapter: no halt and no source owning the line (R30, R31). -/
structure State.KeyDue (s : State) (k : Keystroke) (rest : List Keystroke) : Prop
    extends State.HeadKey s k rest where
  notHalted : s.machine ≠ .halted
  noSource : s.intake.owner.source = none

/-- The keyboard is there to keep what it owns: its ownership does not lapse by the loss of its role
(R40, third case). -/
def State.keyboardHeld (s : State) : Prop :=
  s.bus.usable .keyboard = true ∨ s.intake.owner ≠ .keyboard

/-- The state without its head key and without the transient message that the key ends (R24, R187). -/
def State.withoutKey (s : State) (rest : List Keystroke) : State :=
  { s with
    intake := { s.intake with keys := rest }
    disp := { s.disp with transient := none } }

/-- The source `n` owns the line and text is consumed, and `code` is the next character of the block `h`
in its slot (R42). -/
structure State.TextDue (s : State) (n : SourceNo) (h : HeldBlock) (code : Nat) : Prop where
  running : s.stopped = false
  consuming : s.textSuspended = false
  owns : s.intake.owner = ownerOf n
  held : (s.intake.src n).slot = some h
  next : h.block.codes[h.next]? = some code

/-! ### What a change of ownership alone may change -/

/-- `t` is `s` but for the ownership of the line (R39 to R41): with the owner it had, nothing has changed;
with another, the line was granted to it, or given up first and then granted, and each change has
triggered a REPORT (R22). -/
def OwnershipOnly (s t : State) : Prop :=
  (t.intake.owner = s.intake.owner → t = s) ∧
    (t.intake.owner ≠ s.intake.owner →
      t = s.setOwner t.intake.owner ∨ t = (s.setOwner .none).setOwner t.intake.owner)

/-- `t` is what a key leaves that commits no line and whose effect is `u` (R39, R40): with no owner the
claims are examined; a keyboard that owns the line lapses, or keeps it, as KEYBOARD_LAPSE makes it (O41),
also when its role is lost (R19, R40 third case); a source keeps the line. So while the keyboard is there
the ownership alone may change, and it does not while the line is owned and has a use. -/
def KeyLeaves (u t : State) : Prop :=
  (u.intake.owner = .none → t = u.arbitrate) ∧
    (u.intake.owner = .keyboard → exec .keyboardLapse u = .next t) ∧
    (u.keyboardHeld →
      OwnershipOnly u t ∧ (u.intake.owner ≠ .none → u.lapsesEmpty = false → t = u))

/-- `t` is what a key leaves that commits a line and whose effect is `u`: a keyboard that owns a new line
without entries, with no printing key waiting, gives it up, and the claims are examined (R40 first case);
in every other case `t` is what any key leaves. -/
def KeyCommits (u t : State) : Prop :=
  let lapses := u.intake.owner = .keyboard ∧ u.lines.current.entries = [] ∧
    ∀ x ∈ u.intake.keys, x.code < 32 ∨ 159 < x.code
  (lapses → t = (u.setOwner .none).arbitrate) ∧ (¬ lapses → KeyLeaves u t)

/-- The state with the head key refused (R32): REFUSE is asked for unless the key is a repeat, and then
the message of the refusal, if it has one. -/
def State.refusedAs (s : State) (k : Keystroke) (rest : List Keystroke) (m : Option Message) : State :=
  let s1 := s.withoutKey rest
  (if k.isRepeat then s1 else s1.requestAlert .refuse).showOptional m

/-- An entry but for the word it belongs to. -/
def Entry.bare (e : Entry) : Entry := { e with serial := none }

/-- What an entry puts on the line and where: the entry but for its word and the state of its strikes. -/
def Entry.shape (e : Entry) : Entry :=
  { e with strike := none, total := 0, done := 0, underscore := none, serial := none }

/-! ### Words and the bell -/

/-- A queued frame is a QUERY. -/
def OutFrame.isQuery : OutFrame → Bool
  | .query _ _ _ => true
  | _ => false

/-- What a state says about words (R108 to R110, R164 to R167): the words and the word serials of every
line, the serial counter, the Spelling Unit, and the QUERY frames that wait. -/
def State.wordView (s : State) :
    List (Word × List WordRec × List (Option Word)) × Word × Spelling × List OutFrame :=
  ((s.lines.current :: s.lines.ring).map fun l => (l.number, l.words, l.entries.map (·.serial)),
    s.lines.serialCounter, s.spell, s.bus.queue.filter OutFrame.isQuery)

/-- `s` after the bell check with the typing point at `x` (R65): on a line of the keyboard whose typing
point passes R - 60 for the first time the bell mark is set and BELL is asked for. -/
def State.rungAt (s : State) (x : Nat) : State :=
  if s.lines.current.owner = .keyboard ∧ s.esc.bellRung = false ∧ s.esc.right < x + 60 then
    { s with esc := { s.esc with bellRung := true }, alert := (s.requestAlert .bell).alert }
  else s

/-! ### What a commit, a store write and a query do -/

/-- What a commit feeds (R99 step 3, R101, R102). In a state `u` the current line of `s`, with these
entries, stands at the newest end of the ring, nothing more is enqueued, and the feeding mark is set: it
keeps the place it already had in the line, and otherwise names the first action of the line's first HELD
entry, or the final FEED if there is none; the final FEED is by the line spacing, to the left margin.
The print queue, the mark and the committed lines of `t` are those that `u` has once it is settled. -/
def FeedsCommitted (s t : State) (entries : List Entry) : Prop :=
  ∃ (u : State) (l : Line) (place : MarkPlace),
    u.seq = s.seq ∧ u.wheel = s.wheel ∧ u.corr = s.corr ∧ u.pins = s.pins ∧ u.supply = s.supply ∧
    u.store = s.store ∧ u.lines.current.number = s.lines.nextLine ∧
    u.lines.ring.getLast? = some l ∧ l.number = s.lines.current.number ∧ l.state = .committed ∧
    l.entries.map Entry.bare = entries.map Entry.bare ∧
    u.lines.mark = some ⟨l.number, place, some (Int.ofNat s.esc.spacing, s.esc.left)⟩ ∧
    (∀ m, s.lines.mark = some m → m.line = l.number → place = m.place) ∧
    ((∀ m, s.lines.mark = some m → m.line ≠ l.number) →
      (∀ before e after, entries = before ++ e :: after → e.strike = some .held →
        (∀ x ∈ before, x.strike ≠ some .held) → place = .action e.id 0) ∧
      ((∀ e ∈ entries, e.strike ≠ some .held) → place = .finalFeed)) ∧
    t.seq = u.settle.seq ∧ t.lines.mark = u.settle.lines.mark ∧
    t.lines.ring.map (fun x => (x.number, x.entries.map Entry.bare)) =
      u.settle.lines.ring.map fun x => (x.number, x.entries.map Entry.bare)

/-- `s` with its current line committed with the entries given (R99 step 2, R103, R110, R174): the line is
segmented as a committed line, which closes its OPEN words and hands them; it joins the ring; of a full ring
the oldest line goes, the pending items of its words leave the list and the slots that ask for them become
DISCARDED; a line that begins with the entries given, and has no words yet, is the current one. Only the
words are meant: the settings, the mark and the print queue are those of `s`. -/
def State.lineClosed (s : State) (entries begins : List Entry) : State :=
  let l := s.lines.current
  let closed := State.resegment { s with
    lines := { s.lines with current := { l with entries := entries, state := .committed } } } l.number
  let ringFull := s.lines.ring.length = 3
  let gone (line serial : Word) : Prop :=
    ringFull ∧ ∃ o ∈ s.lines.ring.head?, o.number = line ∧ ∃ w ∈ o.words, w.serial = serial
  { closed with
    lines := { closed.lines with
      ring := (if ringFull then closed.lines.ring.tail else closed.lines.ring) ++ [closed.lines.current]
      current := { closed.lines.current with
        number := s.lines.nextLine, state := .opened, entries := begins, words := [] } }
    spell := { closed.spell with
      pending := closed.spell.pending.filter fun i => ¬ gone i.line i.serial
      slots := closed.spell.slots.map fun x =>
        match x with
        | .asking q => if gone q.line q.serial then .discarded q else .asking q
        | other => other } }

/-- In `t` the line that was current in `s` stands at the newest end of the ring, committed as it was,
the ring has kept 3 lines, an empty line with the next number is the current one, the committed line is fed,
its words are closed and handed, and those of a line pushed out of the ring are dropped (R99, R101 to R103,
R110, R174). -/
structure CommitsLine (s t : State) : Prop where
  feeds : FeedsCommitted s t s.lines.current.entries
  words : t.wordView = (s.lineClosed s.lines.current.entries []).wordView
  number : t.lines.current.number = s.lines.nextLine
  empty : t.lines.current.entries = []
  ring : t.lines.ring.map (·.number) =
    (if s.lines.ring.length = 3 then s.lines.ring.tail else s.lines.ring).map (·.number) ++
      [s.lines.current.number]
  newest : ∃ l, t.lines.ring.getLast? = some l ∧ l.state = .committed ∧
    l.start = s.lines.current.start ∧ l.offset = s.lines.current.offset ∧
    l.entries.map Entry.shape = s.lines.current.entries.map Entry.shape

/-- The store unit `v` is `u` after the next write has been started, if one can be (R196): none is in
flight, none is left to the store, and the first dirty block in the order settings, tape, user list loses
its mark and is written, not valid yet, with the contents that stand in `s`. -/
structure NextWrite (s : State) (u v : StoreUnit) : Prop where
  busy : u.inFlight ≠ none ∨ u.finishing ≠ none → v = u
  settings : u.inFlight = none → u.finishing = none → u.dirtySettings = true → v = { u with
    dirtySettings := false, inFlight := some .settings
    settings := ⟨false, s.settingsNow.checkValue, s.settingsNow⟩ }
  tape : u.inFlight = none → u.finishing = none → u.dirtySettings = false → u.dirtyTape = true →
    v = { u with
      dirtyTape := false, inFlight := some .tape, tape := ⟨false, tapeCheckValue s.corr.tape, s.corr.tape⟩ }
  userList : u.inFlight = none → u.finishing = none → u.dirtySettings = false →
    u.dirtyTape = false → u.dirtyUser = true → v = { u with
      dirtyUser := false, inFlight := some .userList
      userList := ⟨false, userCheckValue s.spell.userWords, s.spell.userWords⟩ }
  clean : u.dirtySettings = false → u.dirtyTape = false → u.dirtyUser = false → v = u

/-- A ROLL heard after the window has closed makes the record `r` of a station that holds a role the
record `r'`, which the role is not usable with: LOST when the station is leaving, LATE and without the role
when its kind or its abilities have changed (R17). -/
def Vacates (r : Station) (kind first second : Nat) (r' : Station) : Prop :=
  (kind = 0 ∧ r' = { r with status := .lost, unanswered := 2 }) ∨
    ∃ k, stationKindOf kind = some k ∧
      ¬ (r.kind = some k ∧ r.ability1 = first ∧ r.ability2 = second) ∧
      r' = ⟨some k, first, second, .late, none, 0⟩

/-- The slot of a tag asks: its word is ASKING with that tag, and a QUERY of the word's folded form to
the station asked joins the outgoing frames (R167). -/
def State.asks (s : State) (tag : Fin 4) (q : Query) : State :=
  { s.setWord q.line q.serial .asking (some tag) with
    spell := { s.spell with slots := s.spell.slots.set tag (.asking q) }
    bus := { s.bus with
      queue := s.bus.queue ++ [.query q.station tag (s.foldedForm q.line q.serial)] } }

end Sys2Proof.Machine
end

