-- ==== Sys2Proof/WellFormed.lean ====
section
/-! DEFINITION. When a command's operands are such as its row can have: positions of an idle round,
fields in range, and bytes that Chapter 1 makes that command. -/

namespace Sys2Proof

open Machine

/-- A command's operands are in range, for the controller of a station number. A ROLL with the
controller's own number may have any bytes as its contents (R14). -/
def Instr.wellFormed (own : StationNo) : Instr → Bool
  | .frameSendStart position => decide (position < 40)
  | .frameCheckFailed bytes => decide (commandOfFrame own bytes = .frameCheckFailed bytes)
  | .key _ code repeatFlag => keyFieldsOk code repeatFlag
  | .text _ block => textFieldsOk block
  | .answer _ tag verdict => answerFieldsOk tag verdict
  | .roll sender kind first second =>
    if sender = own then decide (kind < 256) && decide (first < 256) && decide (second < 256)
    else rollFieldsOk kind first second
  | .refusedFrame bytes => decide (commandOfFrame own bytes = .refusedFrame bytes)
  | .discardedBroadcast bytes => decide (commandOfFrame own bytes = .discardedBroadcast bytes)
  | .queryLeftToDictionary bytes => decide (commandOfFrame own bytes = .queryLeftToDictionary bytes)
  | _ => true

end Sys2Proof
end

