-- ==== Sys2Proof/Certificates/Slice0/Obligations.lean ====
section
/-! DEFINITION. The statements about the controller, in the order of OBLIGATIONS.json. -/

open Sys2Proof Sys2Proof.Machine

/-! ### The block and its queue of commands -/

/-- O1. A step carries out the command at the front of the queue on the state with the queue's rest, and
idles on an empty queue (the model's form of a block, log 1). -/
def Obligations.StepRunsFrontCommand : Prop :=
  (∀ (c : Instr) (s : State) (rest : List Instr), s.pending = c :: rest →
    step s = exec c { s with pending := rest }) ∧
  ∀ s : State, s.pending = [] → step s = .next s

/-- O2. Every command completes and leaves the queue of commands as it is (logs 1 and 2). -/
def Obligations.CommandsKeepTheQueue : Prop :=
  ∀ (c : Instr) (s : State), ∃ t, exec c s = .next t ∧ t.pending = s.pending

/-! ### Frames on the bus (Chapter 1) -/

/-- O3. A well-formed KEY, TEXT, ANSWER or ROLL, written as a frame by R4 and R5, is read back as that
command with every operand (the reading of R6 to R10). -/
def Obligations.FramesReadBack : Prop :=
  ∀ (own : StationNo) (c : Instr) (bytes : List Byte), c.wellFormed own = true →
    frameOfCommand own c = some bytes → commandOfFrame own bytes = c

/-- O4. Whatever bytes arrive, the command they are has its operands in range: the ranges are those of R5,
and with them a KEY has a code up to 159 (log 10) and a ROLL has the byte 0 where R5 gives 0 (log 11),
but for a ROLL from the controller's own number, which is taken whatever it holds (log 37). -/
def Obligations.ReadCommandsAreWellFormed : Prop :=
  ∀ (own : StationNo) (bytes : List Byte), (commandOfFrame own bytes).wellFormed own = true

/-- O5. The conditions of R8, one by one, on a non-broadcast frame that the controller answers and that
is no ROLL from its own number (R14 takes that one, log 37): exactly these refuse it. A KEY code above
159 is among them by the range of R5 (log 10). -/
def Obligations.RefusedFrameConditions : Prop :=
  ∀ (own : StationNo) (f : RxFrame), ¬ (f.kind = 5 ∧ f.dest ≠ own) →
    (readAddressed own f = none ↔
      f.spare = true ∨ f.kind = 0 ∨ 8 ≤ f.kind ∨ f.dest ≠ own ∨
      f.kind = 1 ∨ f.kind = 2 ∨ f.kind = 5 ∨ f.kind = 7 ∨
      (f.kind = 3 ∧ f.cls ≠ 0) ∨ (f.kind = 4 ∧ f.cls ≠ 2) ∨ (f.kind = 6 ∧ f.cls ≠ 1) ∨
      f.tag ≠ 0 ∨
      (f.kind = 3 ∧ ¬ ∃ code flag, f.payload = [code, flag] ∧ 1 ≤ code ∧ code ≤ 159 ∧ flag ≤ 1) ∨
      (f.kind = 4 ∧ ¬ ∃ job seq flags codes, f.payload = job :: seq :: flags :: codes ∧
        1 ≤ job ∧ job ≤ 255 ∧ seq ≤ 255 ∧ flags ≤ 3 ∧ 1 ≤ codes.length ∧ codes.length ≤ 16 ∧
        ∀ c ∈ codes, c ≤ 255) ∨
      (f.kind = 6 ∧ ¬ ∃ tag verdict, f.payload = [tag, verdict] ∧ tag ≤ 3 ∧ 1 ≤ verdict ∧
        verdict ≤ 3))

/-- O6. FRAME_SEND_START at a position of an idle round (R2): the frame on offer, the oldest of the
lowest class, is sent at the position class × 8 + own number + 2, and nothing happens at any other; no
two pairs of class and station number have the same wait. FRAME_SENT (R3, R12, R22): the frame leaves
the queue; the controller's ROLL opens the roll window; the triggers held while a REPORT was on the line
make a new REPORT at the newest end. -/
def Obligations.FramesAreSent : Prop :=
  ((∀ (s : State) (position i : Nat) (f : OutFrame),
    s.stopped = false → s.bus.conflict = false → s.bus.sending = none →
    s.bus.queue[i]? = some f →
    (∀ j g, s.bus.queue[j]? = some g → f.cls ≤ g.cls ∧ (g.cls = f.cls → i ≤ j)) →
    exec (.frameSendStart position) s = .next
      (if position = f.cls * 8 + s.bus.own.val + 2 then
        { s with bus := { s.bus with sending := some i } }
      else s)) ∧
  ∀ (c d : Nat) (m n : StationNo), c ≤ 3 → d ≤ 3 → frameWait c m = frameWait d n → c = d ∧ m = n) ∧
  ∀ (s : State) (i : Nat) (f : OutFrame) (outcome : AnswerCode),
    s.stopped = false → s.bus.sending = some i → s.bus.queue[i]? = some f →
    let b : Bus := { s.bus with queue := s.bus.queue.eraseIdx i, sending := none }
    (f = .roll → exec (.frameSent outcome) s = .next { s with
      bus := { b with window := if s.bus.window = .notOpen then .opened else s.bus.window } }) ∧
    (∀ pairs, f = .summary pairs → exec (.frameSent outcome) s = .next { s with bus := b }) ∧
    (∀ r, f = .report r → s.bus.heldReport = none →
      exec (.frameSent outcome) s = .next { s with bus := b }) ∧
    (∀ r c, f = .report r → s.bus.heldReport = some c → s.bus.conflict = false →
      (∀ g ∈ s.bus.queue.eraseIdx i, g.isReport = false) →
      exec (.frameSent outcome) s = .next { s with
        bus := { b with
          heldReport := none
          queue := s.bus.queue.eraseIdx i ++ [.report (s.buildReport c none)] } })

/-- O7. FRAME_SENT for a QUERY (R20, R168, R170, R175): the outcome is counted on the record asked while
it holds a dictionary role, and no other record changes. TAKEN leaves the slot WAITING with its answer
expiry running. BUSY returns the word, PENDING, to the head of the pending list, from which a full list
first loses its newest item (R164), and the freed slot takes the head (R165). ABSENT and REFUSED move the
word on to the other dictionary with the same tag, or leave it UNCHECKABLE and free the slot. A DISCARDED
slot becomes FREE by all three. What a freed slot takes is said by O12. -/
def Obligations.QueryOutcomeCounted : Prop :=
  (∀ (s : State) (i : Nat) (dest : StationNo) (tag : Fin 4) (letters : List Nat)
    (outcome : AnswerCode),
    s.stopped = false → s.bus.sending = some i → s.bus.queue[i]? = some (.query dest tag letters) →
    let r := s.bus.table[dest]
    let dictionary := r.role = some .primary ∨ r.role = some .secondary
    let r' : Station :=
      match outcome with
      | .taken => { r with unanswered := 0 }
      | .busy => r
      | _ =>
        { r with
          unanswered := min 2 (r.unanswered + 1)
          status := if 1 ≤ r.unanswered then .lost else r.status }
    ∃ t, exec (.frameSent outcome) s = .next t ∧
      (dictionary → t.bus.table = s.bus.table.set dest r') ∧
      (¬ dictionary → t.bus.table = s.bus.table) ∧
      (outcome = .taken → ∀ q, s.spell.slots[tag] = .asking q → t.spell = { s.spell with
        slots := s.spell.slots.set tag (.asking { q with phase := .waiting, expiryRunning := true }) }) ∧
      (outcome = .taken → ∀ q, s.spell.slots[tag] = .discarded q → t.spell = { s.spell with
        slots := s.spell.slots.set tag
          (.discarded { q with phase := .waiting, expiryRunning := true }) })) ∧
  ∀ (s : State) (i : Nat) (dest : StationNo) (tag : Fin 4) (letters : List Nat)
    (outcome : AnswerCode),
    s.stopped = false → s.bus.sending = some i → s.bus.queue[i]? = some (.query dest tag letters) →
    let r := s.bus.table[dest]
    let left : Bus := { s.bus with queue := s.bus.queue.eraseIdx i, sending := none }
    let sent : State := { s with bus := left }
    let counted : State :=
      if r.role = some .primary ∨ r.role = some .secondary then
        { s with bus := { left with table := s.bus.table.set dest { r with
            unanswered := min 2 (r.unanswered + 1)
            status := if 1 ≤ r.unanswered then .lost else r.status } } }
      else sent
    let freed (u : State) : State :=
      { u with spell := { u.spell with slots := u.spell.slots.set tag .free } }
    let ends (t : State) : Prop := exec (.frameSent outcome) s = .next t
    (outcome = .busy →
      (∀ q, s.spell.slots[tag] = .asking q →
        let u := freed (sent.setWord q.line q.serial .pending none)
        let item : PendingItem := ⟨q.line, q.serial, q.already⟩
        (s.spell.pending.length < 8 → ends (State.takeItems
          { u with spell := { u.spell with pending := item :: s.spell.pending } })) ∧
        (∀ others newest, s.spell.pending = others ++ [newest] → 8 ≤ s.spell.pending.length →
          ends (State.takeItems { u.setWord newest.line newest.serial .uncheckable none with
            spell := { u.spell with pending := item :: others } }))) ∧
      (∀ q, s.spell.slots[tag] = .discarded q → ends (freed sent).takeItems)) ∧
    (outcome = .absent ∨ outcome = .refused →
      (∀ q, s.spell.slots[tag] = .discarded q → ends (freed counted).takeItems) ∧
      (∀ q, s.spell.slots[tag] = .asking q →
        (counted.candidate (some q.stage) q.already = none →
          ends (freed (counted.setWord q.line q.serial .uncheckable none)).takeItems) ∧
        (s.bus.conflict = false → ∀ role station,
          counted.candidate (some q.stage) q.already = some role →
          counted.bus.holder role.role = some station →
          ends (counted.asks tag
            ⟨q.line, q.serial, station, role, some q.stage, .sending, false⟩))))

/-- O8. CONFLICT is entered by SEND_MISMATCH while sending and by a ROLL from the controller's own
number, whatever its contents (R3, R14, R178): the queue of frames is emptied with the held triggers
(log 30), an open window is abandoned, the answer expiries stop, and the display is told. In CONFLICT
every received frame is discarded in silence, and nothing is sent (R14). -/
def Obligations.ConflictIsSilent : Prop :=
  (∀ (s : State) (kind first second : Nat), s.stopped = false →
    let u (answer : AnswerCode) : State := { s with
      bus := { s.bus with
        queue := [], sending := none, heldReport := none, conflict := true, answer := answer
        window := if s.bus.window = .closed then .closed else .abandoned }
      spell := { s.spell with slots := s.spell.slots.map fun x =>
        match x with
        | .free => .free
        | .asking q => .asking { q with expiryRunning := false }
        | .discarded q => .discarded { q with expiryRunning := false } }
      disp := { s.disp with
        transient := none, standing := { s.disp.standing with conflict := true } } }
    (s.bus.sending.isSome = true → exec .sendMismatch s = .next (u s.bus.answer)) ∧
    (s.bus.conflict = false → exec (.roll s.bus.own kind first second) s = .next (u .absent))) ∧
  ∀ s : State, s.stopped = false → s.bus.conflict = true →
    let u : State := { s with bus := { s.bus with answer := .absent } }
    (∀ bytes, exec (.frameCheckFailed bytes) s = .next u) ∧
    (∀ sender code flag, exec (.key sender code flag) s = .next u) ∧
    (∀ sender block, exec (.text sender block) s = .next u) ∧
    (∀ sender tag verdict, exec (.answer sender tag verdict) s = .next u) ∧
    (∀ sender kind first second, exec (.roll sender kind first second) s = .next u) ∧
    (∀ bytes, exec (.refusedFrame bytes) s = .next u) ∧
    (∀ bytes, exec (.discardedBroadcast bytes) s = .next u) ∧
    (∀ bytes, exec (.queryLeftToDictionary bytes) s = .next u) ∧
    (∀ position, exec (.frameSendStart position) s = .next s) ∧
    (∀ c, s.triggerReport c = s) ∧ ∀ f, s.enqueueFrame f = s

/-- O9. The frames that reach no unit (R6, R7, R8, R10): only the answer slot tells of them. -/
def Obligations.FramesForNoUnit : Prop :=
  ∀ (s : State) (bytes : List Byte), s.stopped = false → s.bus.conflict = false →
    let u (a : AnswerCode) : State := { s with bus := { s.bus with answer := a } }
    (commandOfFrame s.bus.own bytes = .frameCheckFailed bytes →
      exec (.frameCheckFailed bytes) s = .next (u .absent)) ∧
    (commandOfFrame s.bus.own bytes = .refusedFrame bytes →
      exec (.refusedFrame bytes) s = .next (u .refused)) ∧
    (commandOfFrame s.bus.own bytes = .discardedBroadcast bytes →
      exec (.discardedBroadcast bytes) s = .next (u .absent)) ∧
    (commandOfFrame s.bus.own bytes = .queryLeftToDictionary bytes →
      exec (.queryLeftToDictionary bytes) s = .next (u .absent))

/-! ### KEY, TEXT and ANSWER (Chapters 1, 2 and 8) -/

/-- O10. A KEY from the adopted keyboard with a place in the key queue (R9, R25): TAKEN, and the
keystroke joins at the tail. In STANDBY it starts the wake once (R201); outside STANDBY, and during a
wake that has begun, nothing else changes but the ownership (R39). A KEY turned away (R8, R9, R25):
REFUSED with a field out of range (a code above 159 among them, log 10), BUSY before the roles are
settled, REFUSED from a station that is not the adopted keyboard, BUSY in POWER-WARN and with a full key
queue; nothing else changes. -/
def Obligations.KeyFrames : Prop :=
  (∀ (s : State) (sender : StationNo) (code flag : Nat),
    s.stopped = false → s.bus.conflict = false → 1 ≤ code → code ≤ 159 → flag ≤ 1 →
    s.rolesUnsettled = false → s.machine ≠ .powerWarn →
    s.bus.table[sender].status = .adopted → s.bus.table[sender].role = some .keyboard →
    s.intake.keys.length < 32 →
    let u : State := { s with
      intake := { s.intake with keys := s.intake.keys ++ [⟨code, flag == 1⟩] }
      bus := { s.bus with answer := .taken } }
    ∃ t, exec (.key sender code flag) s = .next t ∧
      t.intake.keys = u.intake.keys ∧ t.bus.answer = .taken ∧ t.bus.table = s.bus.table ∧
      t.lines.current.entries = s.lines.current.entries ∧ t.lines.ring = s.lines.ring ∧
      t.esc = s.esc ∧ t.seq.queue = s.seq.queue ∧ t.corr = s.corr ∧ t.spell = s.spell ∧
      t.store = s.store ∧
      (s.supply.power ≠ .standby ∨ s.supply.wakeMark = true → OwnershipOnly u t) ∧
      (s.supply.power ≠ .standby ∨ s.supply.wakeMark = true →
        s.intake.keys ≠ [] ∨ s.intake.owner ≠ .none → t = u) ∧
      (s.supply.power = .standby → s.supply.wakeMark = false →
        t.supply = { s.supply with wakeMark := true } ∧ t.seq.mech = .homing ∧
        t.seq.work = some (.homing .wake) ∧ t.disp.panel = .on ∧
        t.wheel = { s.wheel with ribbon := s.pins.ribbon })) ∧
  ∀ (s : State) (sender : StationNo) (code flag : Nat),
    s.stopped = false → s.bus.conflict = false →
    let u (a : AnswerCode) : State := { s with bus := { s.bus with answer := a } }
    let outOfRange := code = 0 ∨ 159 < code ∨ 1 < flag
    let keyboard :=
      s.bus.table[sender].status = .adopted ∧ s.bus.table[sender].role = some .keyboard
    (outOfRange → exec (.key sender code flag) s = .next (u .refused)) ∧
    (¬ outOfRange → s.rolesUnsettled = true → exec (.key sender code flag) s = .next (u .busy)) ∧
    (¬ outOfRange → s.rolesUnsettled = false → ¬ keyboard →
      exec (.key sender code flag) s = .next (u .refused)) ∧
    (¬ outOfRange → s.rolesUnsettled = false → keyboard →
      s.machine = .powerWarn ∨ 32 ≤ s.intake.keys.length →
      exec (.key sender code flag) s = .next (u .busy))

/-- O11. A TEXT block that is held (R34 cases 6 and 9): it fills the slot, the job is open at its
sequence, the idle expiry stops, a new job has its attributes off, and the other source keeps its
record; in STANDBY it starts the wake once (R34, R201), and otherwise nothing else changes but the
ownership (R39). The other answers to a TEXT (R9, R34 cases 1 to 5, 7, 8 and 10), in their order: nothing
but the answer slot changes. That a FIRST block of the closed job's id with another sequence opens a job is
the model's choice (log 51). -/
def Obligations.TextFrames : Prop :=
  (∀ (s : State) (sender : StationNo) (n : SourceNo) (b : TextBlock),
    s.stopped = false → s.bus.conflict = false → textFieldsOk b = true →
    s.rolesUnsettled = false → s.machine ≠ .powerWarn → s.sourceOf sender = some n →
    b.job ≠ (s.intake.src n).stoppedJob → (s.intake.src n).slot = none →
    let r := s.intake.src n
    let goesOn := ∃ last, r.job = .opened b.job last ∧ b.seq = (last + 1) % 256 ∧ b.seq ≠ last
    let opens := r.job = .idle ∧ r.closedJob ≠ some (b.job, b.seq) ∧ b.first = true
    let held : SourceIntake := { r with
      slot := some ⟨b, 0⟩, job := .opened b.job b.seq, idleRunning := false
      bold := if r.job = .idle then false else r.bold
      underline := if r.job = .idle then false else r.underline }
    goesOn ∨ opens →
    ∃ t, exec (.text sender b) s = .next t ∧ t.bus.answer = .taken ∧ t.intake.src n = held ∧
      t.intake.keys = s.intake.keys ∧ t.lines.current.entries = s.lines.current.entries ∧
      t.lines.ring = s.lines.ring ∧ t.seq.queue = s.seq.queue ∧
      (s.supply.power ≠ .standby ∨ s.supply.wakeMark = true → OwnershipOnly { s with
        intake := s.intake.mapSrc n fun _ => held
        bus := { s.bus with answer := .taken } } t) ∧
      (s.supply.power = .standby → s.supply.wakeMark = false →
        t.supply = { s.supply with wakeMark := true } ∧ t.seq.mech = .homing ∧
        t.seq.work = some (.homing .wake) ∧ t.disp.panel = .on ∧
        t.wheel = { s.wheel with ribbon := s.pins.ribbon } ∧ t.esc = s.esc ∧ t.corr = s.corr ∧
        t.spell = s.spell ∧ t.store = s.store)) ∧
  ∀ (s : State) (sender : StationNo) (b : TextBlock),
    s.stopped = false → s.bus.conflict = false → textFieldsOk b = true →
    let u (a : AnswerCode) : State := { s with bus := { s.bus with answer := a } }
    (s.rolesUnsettled = true → exec (.text sender b) s = .next (u .busy)) ∧
    (s.rolesUnsettled = false → s.sourceOf sender = none →
      exec (.text sender b) s = .next (u .refused)) ∧
    (s.rolesUnsettled = false → ∀ n, s.sourceOf sender = some n →
      let r := s.intake.src n
      (s.machine = .powerWarn → exec (.text sender b) s = .next (u .busy)) ∧
      (s.machine ≠ .powerWarn → b.job = r.stoppedJob →
        exec (.text sender b) s = .next (u .refused)) ∧
      (s.machine ≠ .powerWarn → b.job ≠ r.stoppedJob →
        (∀ id last, r.job = .ending id last → exec (.text sender b) s = .next (u .busy)) ∧
        (r.slot.isSome = true → exec (.text sender b) s = .next (u .busy)) ∧
        (r.slot = none → ∀ id last, r.job = .opened id last →
          (b.job = id → b.seq = last → exec (.text sender b) s = .next (u .taken)) ∧
          (b.job ≠ id ∨ (b.seq ≠ last ∧ b.seq ≠ (last + 1) % 256) →
            exec (.text sender b) s = .next (u .refused))) ∧
        (r.slot = none → r.job = .idle →
          (r.closedJob = some (b.job, b.seq) → exec (.text sender b) s = .next (u .taken)) ∧
          (r.closedJob ≠ some (b.job, b.seq) → b.first = false →
            exec (.text sender b) s = .next (u .refused)))))

/-- O12. An ANSWER from an adopted dictionary, offered to the slot its tag names (R171, R172, R175): it
is refused by a slot that is FREE, asks another station or is still SENDING; a DISCARDED slot becomes
FREE; a word whose verdict is acceptable becomes ACCEPTED; with an unacceptable one the slot moves the
word on to the other dictionary under the same tag, or, with none left, the word becomes FLAGGED with
SPELL asked for. A slot that becomes FREE takes from the pending list (R165): the FREE slot of lowest tag
takes the head for the first usable role that is not excluded, a word with no such role becomes
UNCHECKABLE, and this goes on until the list is empty or no slot is FREE. An ANSWER from a sender that
is not an adopted dictionary (R9), and one with a field out of range (R8), is REFUSED, and nothing but the
answer slot changes. -/
def Obligations.AnswerOffered : Prop :=
  (∀ (s : State) (sender : StationNo) (tag : Fin 4) (verdict : Nat),
    s.stopped = false → s.bus.conflict = false → 1 ≤ verdict → verdict ≤ 3 →
    s.isDictionary sender = true →
    let slot := s.spell.slots[tag]
    let answers (a : AnswerCode) (u : State) : Prop :=
      exec (.answer sender tag verdict) s = .next { u with bus := { u.bus with answer := a } }
    let freed : State := { s with spell := { s.spell with slots := s.spell.slots.set tag .free } }
    (slot = .free → answers .refused s) ∧
    (∀ q, slot = .asking q ∨ slot = .discarded q → q.station ≠ sender ∨ q.phase = .sending →
      answers .refused s) ∧
    (∀ q, slot = .discarded q → q.station = sender → q.phase = .waiting →
      answers .taken freed.takeItems) ∧
    (∀ q, slot = .asking q → q.station = sender → q.phase = .waiting →
      let c := s.capitalState q.line q.serial
      let acceptable := verdict = 1 ∨ (verdict = 2 ∧ c ≠ .lower)
      (acceptable →
        answers .taken (freed.setWord q.line q.serial .accepted none).takeItems) ∧
      (¬ acceptable → ∀ role station, s.candidate (some q.stage) q.already = some role →
        s.bus.holder role.role = some station → answers .taken (s.asks tag
          ⟨q.line, q.serial, station, role, some q.stage, .sending, false⟩)) ∧
      (¬ acceptable → s.candidate (some q.stage) q.already = none →
        answers .taken (State.takeItems { freed.setWord q.line q.serial .flagged none with
          alert := (s.requestAlert .spell).alert })))) ∧
  (∀ (s : State) (sender : StationNo) (tag verdict : Nat),
    s.stopped = false → s.bus.conflict = false →
    let r := s.bus.table[sender]
    let dictionary := r.status = .adopted ∧ (r.role = some .primary ∨ r.role = some .secondary)
    ¬ dictionary ∨ 4 ≤ tag ∨ verdict = 0 ∨ 4 ≤ verdict →
    exec (.answer sender tag verdict) s =
      .next { s with bus := { s.bus with answer := .refused } }) ∧
  ∀ s : State,
    (∀ a b : Option DictRole,
      let allowed (r : DictRole) := s.bus.usable r.role = true ∧ a ≠ some r ∧ b ≠ some r
      (allowed .primary → s.candidate a b = some .primary) ∧
      (¬ allowed .primary → allowed .secondary → s.candidate a b = some .secondary) ∧
      (¬ allowed .primary → ¬ allowed .secondary → s.candidate a b = none)) ∧
    (s.bus.conflict = true ∨ s.spell.pending = [] ∨ (∀ tag : Fin 4, s.spell.slots[tag] ≠ .free) →
      s.takeItems = s) ∧
    (∀ item rest (tag : Fin 4), s.bus.conflict = false → s.spell.pending = item :: rest →
      s.spell.slots[tag] = .free → (∀ other < tag, s.spell.slots[other] ≠ .free) →
      let u : State := { s with spell := { s.spell with pending := rest } }
      (s.candidate item.already none = none →
        s.takeItems = (u.setWord item.line item.serial .uncheckable none).takeItems) ∧
      (∀ role station, s.candidate item.already none = some role →
        s.bus.holder role.role = some station → s.takeItems = (u.asks tag
          ⟨item.line, item.serial, station, role, item.already, .sending, false⟩).takeItems))

/-- O13. ANSWER_EXPIRY of a running expiry (R165, R169, R170, R175): the query counts as unanswered; a
DISCARDED slot becomes FREE; an ASKING word moves on to the other dictionary with the same tag and a new
QUERY, or, with none left, becomes UNCHECKABLE and its slot FREE. A slot that becomes FREE takes from the
pending list, as O12 says. -/
def Obligations.AnswerExpires : Prop :=
  ∀ (s : State) (tag : Fin 4) (q : Query), s.stopped = false →
    q.phase = .waiting → q.expiryRunning = true →
    let r := s.bus.table[q.station]
    let r' : Station := { r with
      unanswered := min 2 (r.unanswered + 1)
      status := if 1 ≤ r.unanswered then .lost else r.status }
    let counted : State :=
      if r.role = some .primary ∨ r.role = some .secondary then
        { s with bus := { s.bus with table := s.bus.table.set q.station r' } }
      else s
    let freed : State := { counted with
      spell := { s.spell with slots := s.spell.slots.set tag .free } }
    let ends (t : State) : Prop := exec (.answerExpiry tag) s = .next t
    (s.spell.slots[tag] = .discarded q → ends freed.takeItems) ∧
    (s.spell.slots[tag] = .asking q → counted.candidate (some q.stage) q.already = none →
      ends (freed.setWord q.line q.serial .uncheckable none).takeItems) ∧
    (s.spell.slots[tag] = .asking q → s.bus.conflict = false →
      ∀ role station, counted.candidate (some q.stage) q.already = some role →
      counted.bus.holder role.role = some station →
      ends (counted.asks tag
        ⟨q.line, q.serial, station, role, some q.stage, .sending, false⟩))

/-! ### ROLL and the roll call (Chapter 1) -/

/-- O14. A ROLL from another station before the window closes changes that station's record by the table
of R13, and no other record. A broadcast has no answer slot (R10): the field of the last answer becomes
absent (log 31). -/
def Obligations.RollInWindow : Prop :=
  ∀ (s : State) (sender : StationNo) (kind first second : Nat) (k : StationKind),
    s.stopped = false → s.bus.conflict = false → sender ≠ s.bus.own → s.bus.window ≠ .closed →
    rollFieldsOk kind first second = true →
    let r := s.bus.table[sender]
    let becomes (r' : Station) : Prop := ∃ t, exec (.roll sender kind first second) s = .next t ∧
      t.bus.table = s.bus.table.set sender r' ∧ t.bus.answer = .absent ∧
      (r.role = none → r'.role = none →
        t = { s with bus := { s.bus with answer := .absent, table := s.bus.table.set sender r' } })
    (stationKindOf kind = some k →
      (r.status = .absent → becomes ⟨some k, first, second, .adopted, none, 0⟩) ∧
      (r.status = .adopted → r.kind = some k →
        becomes { r with ability1 := first, ability2 := second }) ∧
      (r.status = .adopted → r.kind ≠ some k → becomes { r with kind := none, status := .ignored })) ∧
    (kind = 0 → (r.status = .adopted → becomes ⟨none, 0, 0, .absent, none, 0⟩) ∧
      (r.status = .absent → becomes r)) ∧
    (r.status = .ignored → becomes r)

/-- O15. A ROLL from another station after the window has closed changes that station's record by the
tables of R17 and R18, and no other record. A broadcast has no answer slot (R10): the field of the last
answer becomes absent (log 31). -/
def Obligations.RollAfterWindow : Prop :=
  ∀ (s : State) (sender : StationNo) (kind first second : Nat) (k : StationKind),
    s.stopped = false → s.bus.conflict = false → sender ≠ s.bus.own → s.bus.window = .closed →
    rollFieldsOk kind first second = true →
    let r := s.bus.table[sender]
    let held := r.status = .adopted ∨ r.status = .lost
    let same := r.kind = some k ∧ r.ability1 = first ∧ r.ability2 = second
    let becomes (r' : Station) : Prop := ∃ t, exec (.roll sender kind first second) s = .next t ∧
      t.bus.table = s.bus.table.set sender r' ∧ t.bus.answer = .absent
    (stationKindOf kind = some k →
      (r.status = .absent → becomes ⟨some k, first, second, .late, none, 0⟩) ∧
      (held → same → becomes { r with status := .adopted, unanswered := 0 }) ∧
      (held → ¬ same → becomes ⟨some k, first, second, .late, none, 0⟩) ∧
      (r.status = .late →
        becomes { r with kind := some k, ability1 := first, ability2 := second })) ∧
    (kind = 0 →
      (held → becomes { r with status := .lost, unanswered := 2 }) ∧
      (r.status = .late → becomes ⟨none, 0, 0, .absent, none, 0⟩) ∧
      (r.status = .absent → becomes r)) ∧
    (r.status = .ignored → becomes r)

/-- O16. ROLL_WINDOW_CLOSE (R15, R16): the lowest keyboard, the lowest dictionary and the next one in
its language, and the two lowest sources get their roles; every other adopted record becomes IGNORED;
the SUMMARY is enqueued, and the Spelling Unit remembers which of PRIMARY and SECONDARY are held (R176).
NO KEYBOARD is shown exactly when no keyboard is adopted (R188); no record
holds a role before the close. Supply and Standby is told, and when the homing is already over the machine
leaves STARTING (R202 step 6): it runs, its panel ON, and a REPORT joins unless one waits or CONFLICT has
been met; in a power warning that came in STARTING only the panel becomes ON, and when the homing is not
over nothing follows yet. -/
def Obligations.RollCallGivesRoles : Prop :=
  ∀ s : State, s.stopped = false → s.bus.window = .opened →
    let heard (n : StationNo) (k : StationKind) : Prop :=
      n ≠ s.bus.own ∧ s.bus.table[n].status = .adopted ∧ s.bus.table[n].kind = some k
    let inLanguage (m n : StationNo) : Prop :=
      heard m .dictionary ∧ heard n .dictionary ∧ m < n ∧
        s.bus.table[m].ability1 = s.bus.table[n].ability1
    ∃ t, exec .rollWindowClose s = .next t ∧ t.bus.window = .closed ∧ t.supply.rollCallDone = true ∧
      (∀ n : StationNo, n = s.bus.own ∨ s.bus.table[n].status ≠ .adopted →
        t.bus.table[n] = s.bus.table[n]) ∧
      (∀ n, heard n .controller → t.bus.table[n] = { s.bus.table[n] with status := .ignored }) ∧
      (∀ n, heard n .keyboard → t.bus.table[n] =
        if ∃ m, heard m .keyboard ∧ m < n then { s.bus.table[n] with status := .ignored }
        else { s.bus.table[n] with role := some .keyboard, unanswered := 0 }) ∧
      (∀ n, heard n .source → t.bus.table[n] =
        if ∃ l m, heard l .source ∧ heard m .source ∧ l < m ∧ m < n then
          { s.bus.table[n] with status := .ignored }
        else if ∃ m, heard m .source ∧ m < n then
          { s.bus.table[n] with role := some .source2, unanswered := 0 }
        else { s.bus.table[n] with role := some .source1, unanswered := 0 }) ∧
      (∀ n, heard n .dictionary → (∀ m, heard m .dictionary → n ≤ m) →
        t.bus.table[n] = { s.bus.table[n] with role := some .primary, unanswered := 0 } ∧
        t.bus.language = some s.bus.table[n].ability1) ∧
      (∀ p n, heard p .dictionary → (∀ m, heard m .dictionary → p ≤ m) → heard n .dictionary →
        p < n → t.bus.table[n] =
          if inLanguage p n ∧ ∀ m, inLanguage p m → n ≤ m then
            { s.bus.table[n] with role := some .secondary, unanswered := 0 }
          else { s.bus.table[n] with status := .ignored }) ∧
      ((∀ n, ¬ heard n .dictionary) → t.bus.language = none) ∧
      (s.bus.conflict = false → .summary (stationNumbers.filterMap fun n =>
        if n = s.bus.own then some (n, 0) else t.bus.table[n].role.map fun r => (n, r.code)) ∈
          t.bus.queue) ∧
      ((∀ n : StationNo, s.bus.table[n].role = none) →
        (t.disp.standing.noKeyboard = true ↔ ∀ n, ¬ heard n .keyboard) ∧
        (t.spell.hadPrimary = true ↔ ∃ n, heard n .dictionary) ∧
        (t.spell.hadSecondary = true ↔
          ∃ p n, inLanguage p n ∧ ∀ m, heard m .dictionary → p ≤ m)) ∧
      t.spell = { s.spell with
        hadPrimary := t.spell.hadPrimary, hadSecondary := t.spell.hadSecondary } ∧
      (let homed := s.supply.homingDone = true
        let starting := s.supply.power = .starting
        let warned := s.supply.power = .powerWarn ∧ s.supply.prior = .starting
        t.supply = { s.supply with
          rollCallDone := true, power := if homed ∧ starting then .run else s.supply.power } ∧
        (homed → starting ∨ warned → t.disp.panel = .on) ∧
        (¬ homed ∨ ¬ (starting ∨ warned) →
          t.disp.panel = s.disp.panel ∧ t.disp.lit = s.disp.lit) ∧
        (homed → starting → s.bus.conflict = false → s.store.loadWaits = false →
          (∀ f ∈ s.bus.queue, f.isReport = false) →
          ∃ r, OutFrame.report r ∈ t.bus.queue ∧ r.state = t.machine)) ∧
      t.lines = s.lines ∧ t.intake = s.intake ∧ t.seq = s.seq ∧ t.wheel = s.wheel ∧
      t.esc = s.esc ∧ t.corr = s.corr ∧ t.store = s.store

/-! ### The head key (Chapter 2) -/

/-- O17. The arbiter (R39): while the owner is none the line goes to the first claimant in the order
KEYBOARD, SOURCE-1, SOURCE-2, a source's line becoming HOLD; a line that is owned stays so; nothing but
the ownership changes; a change of the owner triggers a REPORT (R22), and with no owner the mode follows
the hold setting. A line key or a printing key at the head while the owner is none (R28): the line
is granted to the keyboard first, and then the key does what it does on an owned line. -/
def Obligations.ArbiterGrants : Prop :=
  (∀ s : State,
    let claim :=
      s.intake.keys.head?.any fun k =>
        (32 ≤ k.code && k.code ≤ 159) || (1 ≤ k.code && k.code ≤ 11) || k.code == 18 ||
          k.code == 27 || k.code == 28
    let t := s.arbitrate
    OwnershipOnly s t ∧
    (s.intake.owner ≠ .none → t = s) ∧
    (s.intake.owner = .none →
      (claim = true → t.intake.owner = .keyboard ∧ t.lines.current.owner = .keyboard ∧
        t.lines.current.mode = s.lines.current.mode) ∧
      (claim = false → s.intake.src1.slot.isSome = true →
        t.intake.owner = .source1 ∧ t.lines.current.owner = .source1 ∧
          t.lines.current.mode = .hold) ∧
      (claim = false → s.intake.src1.slot = none → s.intake.src2.slot.isSome = true →
        t.intake.owner = .source2 ∧ t.lines.current.owner = .source2 ∧
          t.lines.current.mode = .hold) ∧
      (claim = false → s.intake.src1.slot = none → s.intake.src2.slot = none → t = s))) ∧
  (∀ (s : State) (o : Owner),
    let mode : Mode :=
      match o with
      | .source1 | .source2 => .hold
      | .keyboard => s.lines.current.mode
      | .none => if s.lines.hold = true then .hold else .direct
    s.setOwner o = State.triggerReport { s with
      intake := { s.intake with owner := o }
      lines := { s.lines with
        current := { s.lines.current with owner := o, mode := mode } } } .plain) ∧
  ∀ (s : State) (c : Instr) (k : Keystroke) (rest : List Keystroke),
    s.KeyDue k rest → keyCommand k.code = some c → claimsLine k.code = true →
    s.intake.owner = .none →
    exec c s = exec c (s.setOwner .keyboard) ∧
    (s.setOwner .keyboard).intake.owner = .keyboard ∧
    (s.setOwner .keyboard).lines.current = { s.lines.current with owner := .keyboard } ∧
    OwnershipOnly s (s.setOwner .keyboard)

/-- O18. What keys are refused by the state (R30, R31): in HALTED every key but CLEAR, and while a source
owns the line every key but STOP JOB, CLEAR, TONE and the paper keys. What a refusal does (R32): the key
leaves the queue and ends the transient message; no line, setting or print queue changes; REFUSE is asked
for unless the key is a repeat; the message named is shown. What every key leaves once it is consumed, here
and in the statements of the other keys (`KeyLeaves`; R39, R40): while no one owns the line the claims are
examined; a keyboard that owns it lapses, or keeps it, as KEYBOARD_LAPSE makes it (O41) on what the key's
effect leaves, so one whose role is lost (R19) and that has no printing or line key left returns the view,
commits its line and gives it up; a source keeps the line. -/
def Obligations.KeysRefusedByTheState : Prop :=
  (∀ (s : State) (c : Instr) (k : Keystroke) (rest : List Keystroke),
    s.HeadKey k rest → keyCommand k.code = some c →
    (s.machine = .halted → k.code ≠ 30 →
      ∃ t, exec c s = .next t ∧ KeyLeaves (s.refusedAs k rest none) t) ∧
    (s.machine ≠ .halted → s.intake.owner = .source1 ∨ s.intake.owner = .source2 →
      k.code ≠ 29 → k.code ≠ 30 → k.code ≠ 31 → k.code ≠ 27 → k.code ≠ 28 →
      exec c s = .next (s.refusedAs k rest none))) ∧
  ∀ (s : State) (k : Keystroke) (rest : List Keystroke) (m : Option Message),
    let t := s.refusedAs k rest m
    t.intake = { s.intake with keys := rest } ∧ t.lines = s.lines ∧ t.esc = s.esc ∧
    t.seq = s.seq ∧ t.corr = s.corr ∧ t.spell = s.spell ∧ t.wheel = s.wheel ∧ t.store = s.store ∧
    t.supply = s.supply ∧ t.bus = s.bus ∧ t.pins = s.pins ∧
    (k.isRepeat = true → t.alert = s.alert) ∧
    (k.isRepeat = false → t.alert = (s.requestAlert .refuse).alert) ∧
    (m = none → t.disp = { s.disp with transient := none }) ∧
    (∀ text, m = some text →
      (s.disp.panel = .on → s.disp.standing.conflict = false → s.disp.standing.halt = none →
        t.disp = { s.disp with transient := some text }) ∧
      (s.disp.panel ≠ .on ∨ s.disp.standing.conflict = true ∨ s.disp.standing.halt ≠ none →
        t.disp = { s.disp with transient := none }))

/-- O19. The keys that change one setting (R68, R76, R82, R116, R124, R177): MARGIN RELEASE, JUSTIFY, BOLD,
UNDERLINE, IMPRESSION, LINE SPACING and SPELL. SET LEFT MARGIN and SET RIGHT MARGIN (R77, R80, R81): the
margin becomes the cursor point and the stops no longer strictly between the margins go, or the key is
refused. After a key the ownership is decided as O18 says, also when the keyboard's role is lost (R40). -/
def Obligations.SettingKeys : Prop :=
  (∀ (s : State) (k : Keystroke) (rest : List Keystroke), s.KeyDue k rest →
    let u := s.withoutKey rest
    let takes (c : Instr) (v : State) : Prop := ∃ t, exec c s = .next t ∧ KeyLeaves v t
    (k.code = 12 → takes .marginRelease
      { u with esc := { s.esc with marginRelease := !s.esc.marginRelease } }) ∧
    (k.code = 19 → takes .justify { u with esc := { s.esc with justify := !s.esc.justify } }) ∧
    (k.code = 20 → takes .bold { u with seq := { s.seq with bold := !s.seq.bold } }) ∧
    (k.code = 21 → takes .underline { u with seq := { s.seq with underline := !s.seq.underline } }) ∧
    (k.code = 22 → takes .impression { u with seq := { s.seq with
      impression := if s.seq.impression = 1 then 2 else if s.seq.impression = 2 then 3 else 1 } }) ∧
    (k.code = 23 → takes .lineSpacing { u with esc := { s.esc with
      spacing := if s.esc.spacing = 2 then 3 else if s.esc.spacing = 3 then 4 else 2 } }) ∧
    (k.code = 24 → takes .spell { u with spell := { s.spell with isOn := !s.spell.isOn } })) ∧
  ∀ (s : State) (k : Keystroke) (rest : List Keystroke), s.KeyDue k rest →
    let u := s.withoutKey rest
    let p := s.cursorPoint
    let narrow := s.refusedAs k rest (some .marginTooNarrow)
    let takes (c : Instr) (v : State) : Prop := ∃ t, exec c s = .next t ∧ KeyLeaves v t
    (k.code = 13 →
      (p + 120 ≤ s.esc.right → takes .setLeftMargin
        { u with esc := { s.esc with left := p, tabs := s.esc.tabs.filter (p < ·) } }) ∧
      (s.esc.right < p + 120 → takes .setLeftMargin narrow)) ∧
    (k.code = 14 →
      (s.esc.left + 120 ≤ p → takes .setRightMargin
        { u with esc := { s.esc with right := p, tabs := s.esc.tabs.filter (· < p) } }) ∧
      (p < s.esc.left + 120 → takes .setRightMargin narrow))

/-- O20. SET TAB, CLEAR TAB and CLEAR ALL TABS (R78, R79): the cursor point joins the rising stops in its
place, or leaves them, or the key is refused with the first message that holds; CLEAR ALL TABS empties the
list. No entry of any line changes. After a key the ownership is decided as O18 says, also when the
keyboard's role is lost (R40). -/
def Obligations.TabStopKeys : Prop :=
  ∀ (s : State) (k : Keystroke) (rest : List Keystroke), s.KeyDue k rest →
    let p := s.cursorPoint
    let takes (c : Instr) (v : State) : Prop := ∃ t, exec c s = .next t ∧ KeyLeaves v t
    let refused (m : Message) := s.refusedAs k rest (some m)
    let inside := s.esc.left < p ∧ p < s.esc.right
    (k.code = 15 →
      (¬ inside → takes .setTab (refused .tabOutOfRange)) ∧
      (inside → p ∈ s.esc.tabs → takes .setTab (refused .tabAlreadySet)) ∧
      (inside → p ∉ s.esc.tabs → 16 ≤ s.esc.tabs.length → takes .setTab (refused .tabsFull)) ∧
      (inside → p ∉ s.esc.tabs → s.esc.tabs.length < 16 →
        ∃ before after, s.esc.tabs = before ++ after ∧ (∀ t ∈ before, t < p) ∧
          (∀ t, after.head? = some t → p < t) ∧
          takes .setTab { s.withoutKey rest with
            esc := { s.esc with tabs := before ++ p :: after } })) ∧
    (k.code = 16 →
      (p ∉ s.esc.tabs → takes .clearTab (refused .noTabHere)) ∧
      (p ∈ s.esc.tabs → takes .clearTab { s.withoutKey rest with
        esc := { s.esc with tabs := s.esc.tabs.filter (· ≠ p) } })) ∧
    (k.code = 17 → takes .clearAllTabs { s.withoutKey rest with
      esc := { s.esc with tabs := [] } })

/-- O21. ADD WORD (R162, R163, R196): refused when no line holds a FLAGGED word, or when the list holds 48
forms. Otherwise the target's folded form joins the list; every word equal to it in the current line and the
ring lines that was FLAGGED, PENDING or ASKING becomes ACCEPTED with no tag, and every other word stays; the
pending items of these words leave the list and the slots that ask for them become DISCARDED, all others
staying; the user list block is marked dirty and written when its turn comes; and nothing else changes. The
target is the newest FLAGGED word of the first line, from the current one back, that has one. The lines have
different numbers, and the words of a line different serials. After a key the ownership is decided as O18
says, also when the keyboard's role is lost (R40). -/
def Obligations.AddWordKey : Prop :=
  ∀ (s : State) (k : Keystroke) (rest : List Keystroke), s.KeyDue k rest →
    k.code = 25 →
    let lines := s.lines.current :: s.lines.ring.reverse
    let flagged (l : Line) : Prop := ∃ w ∈ l.words, w.state = .flagged
    ((∀ l ∈ lines, ¬ flagged l) →
      ∃ t, exec .addWord s = .next t ∧
        KeyLeaves (s.refusedAs k rest (some .noFlaggedWord)) t) ∧
    ((∃ l ∈ lines, flagged l) → 48 ≤ s.spell.userWords.length →
      ∃ t, exec .addWord s = .next t ∧ KeyLeaves (s.refusedAs k rest (some .listFull)) t) ∧
    (∀ newer l older w, lines = newer ++ l :: older → (∀ x ∈ newer, ¬ flagged x) →
      w ∈ l.words → w.state = .flagged →
      (∀ v ∈ l.words, v.state = .flagged → v ≠ w →
        (s.lines.serialCounter - w.serial).toNat < (s.lines.serialCounter - v.serial).toNat) →
      s.spell.userWords.length < 48 →
      (lines.map (·.number)).Nodup → (∀ x ∈ lines, (x.words.map (·.serial)).Nodup) →
      let form := l.foldedForm w.serial
      let hit (x : Line) (v : WordRec) : Bool :=
        (v.state == .flagged || v.state == .pending || v.state == .asking) &&
          x.foldedForm v.serial == form
      let accepted (x : Line) : Line := { x with
        words := x.words.map fun v => if hit x v then { v with state := .accepted, tag := none } else v }
      let names (line serial : Word) : Bool :=
        lines.any fun x => x.number == line && x.words.any fun v => v.serial == serial && hit x v
      let u : State := { s.withoutKey rest with
        lines := { s.lines with
          current := accepted s.lines.current, ring := s.lines.ring.map accepted }
        spell := { s.spell with
          userWords := s.spell.userWords ++ [form]
          pending := s.spell.pending.filter fun i => !names i.line i.serial
          slots := s.spell.slots.map fun x =>
            match x with
            | .asking q => if names q.line q.serial then .discarded q else .asking q
            | other => other } }
      ∃ store t, NextWrite u { s.store with dirtyUser := true } store ∧
        exec .addWord s = .next t ∧ KeyLeaves { u with store := store } t)

/-! ### Line keys (Chapters 4 and 5) -/

/-- O22. HOLD (R93): on an empty current line that is displayed, the hold setting and the mode of that line
change; otherwise the key is refused. PAPER UP and PAPER DOWN (R31, R84), under the keyboard and under a
source: on an empty current line that is displayed, the paper offset and the line's offset change by one
half-line modulo 65536 and a FEED of it is enqueued; otherwise the key is refused; it waits while there is
no room. After a key the ownership is decided as O18 says, also when the keyboard's role is lost (R40). -/
def Obligations.HoldAndPaperKeys : Prop :=
  (∀ (s : State) (k : Keystroke) (rest : List Keystroke), s.KeyDue k rest →
    s.intake.owner = .keyboard → k.code = 18 →
    let takes (v : State) : Prop := ∃ t, exec .hold s = .next t ∧ KeyLeaves v t
    (s.lines.current.entries = [] → s.lines.viewDepth = 0 → takes { s.withoutKey rest with
      lines := { s.lines with
        hold := !s.lines.hold
        current := { s.lines.current with mode := if s.lines.hold then .direct else .hold } } }) ∧
    (s.lines.current.entries ≠ [] ∨ s.lines.viewDepth ≠ 0 →
      takes (s.refusedAs k rest (some .lineNotEmpty)))) ∧
  ∀ (s : State) (k : Keystroke) (rest : List Keystroke), s.HeadKey k rest → s.machine ≠ .halted →
    s.intake.owner ≠ .none →
    let moves (i : Instr) (one : Word) (d : Int) : Prop :=
      (s.lines.current.entries ≠ [] ∨ s.lines.viewDepth ≠ 0 →
        ∃ t, exec i s = .next t ∧ KeyLeaves (s.refusedAs k rest (some .lineNotEmpty)) t) ∧
      (s.lines.current.entries = [] → s.lines.viewDepth = 0 →
        (s.room = 0 → exec i s = .next s) ∧
        (1 ≤ s.room → ∃ t, exec i s = .next t ∧ KeyLeaves
          (({ s.withoutKey rest with
            esc := { s.esc with paperOffset := s.esc.paperOffset + one }
            lines := { s.lines with
              current := { s.lines.current with offset := s.lines.current.offset + one } } }.enqueue
            [.feed d s.lines.current.start]).settle) t))
    (k.code = 27 → moves .paperUp 1 1) ∧ (k.code = 28 → moves .paperDown 65535 (-1))

/-- O23. BACKSPACE and CURSOR RIGHT (R92): refused at the ends of the line; otherwise the cursor moves by
one, with a MOVE to the new cursor point in a ring line and in a DIRECT line, for which the key waits while
there is no room, and with nothing enqueued in a HOLD line. After a key the ownership is decided as O18
says, also when the keyboard's role is lost (R40). -/
def Obligations.CursorKeys : Prop :=
  ∀ (s : State) (k : Keystroke) (rest : List Keystroke), s.KeyDue k rest →
    s.intake.owner = .keyboard →
    let printed := s.lines.viewDepth ≠ 0 ∨ s.lines.current.mode = .direct
    let moved (c : Nat) : State := { s.withoutKey rest with
      lines := { s.lines with cursor := c }
      disp := { s.disp with transient := none, window := windowFor s.disp.window c } }
    let movesTo (i : Instr) (c : Nat) : Prop :=
      (¬ printed → ∃ t, exec i s = .next t ∧ KeyLeaves (moved c) t) ∧
      (printed → 1 ≤ s.room → ∃ t, exec i s = .next t ∧ KeyLeaves
        ((moved c).enqueue [.move (s.lines.displayed.point c)]).settle t) ∧
      (printed → s.room = 0 → exec i s = .next s)
    let refused (i : Instr) (m : Message) : Prop :=
      ∃ t, exec i s = .next t ∧ KeyLeaves (s.refusedAs k rest (some m)) t
    (k.code = 3 →
      (s.lines.cursor = 0 → refused .backspace .lineStart) ∧
      (∀ c, s.lines.cursor = c + 1 → movesTo .backspace c)) ∧
    (k.code = 4 →
      (s.lines.displayed.live.length ≤ s.lines.cursor → refused .cursorRight .lineEnd) ∧
      (s.lines.cursor < s.lines.displayed.live.length →
        movesTo .cursorRight (s.lines.cursor + 1)))

/-- O24. The window follows the cursor (R183 to R185). The two operations by which every command moves the
cursor and shows another line are `setCursor` and `showFrom`: after the first, and after the second from
window start 0, the start is brought to the cursor by the two cases of R185 in their order, and the
cursor cell is always one of the 32. -/
def Obligations.WindowFollowsCursor : Prop :=
  ∀ (s : State) (depth c : Nat),
    let follows (f : Nat) (t : State) : Prop :=
      let f' := t.disp.window
      (c < f → f' = c - 8) ∧ (f + 31 < c → f' = c - 24) ∧ (f ≤ c → c ≤ f + 31 → f' = f) ∧
      f' ≤ c ∧ c ≤ f' + 31 ∧ t.lines.cursor = c
    follows s.disp.window (s.setCursor c) ∧ follows 0 (s.showFrom depth c)

/-- O25. LINE UP and LINE DOWN (R105, R106): the view moves by one line with the cursor at the reference
column, a FEED of the difference of the offsets and a MOVE to the new cursor point; or the key is refused,
or waits while a line is feeding or the room is below 2. After a key the ownership is decided as O18 says,
also when the keyboard's role is lost (R40). -/
def Obligations.ViewKeys : Prop :=
  ∀ (s : State) (k : Keystroke) (rest : List Keystroke), s.KeyDue k rest →
    s.intake.owner = .keyboard →
    let d := s.lines.viewDepth
    let x := s.cursorPoint
    let shows (i : Instr) (depth : Nat) (dest : Line) : Prop :=
      ∃ c t, c ≤ dest.live.length ∧ (∀ e ∈ dest.live.take c, e.endPos ≤ x) ∧
        (∀ e, dest.live[c]? = some e → x < e.endPos) ∧
        exec i s = .next t ∧ KeyLeaves (State.settle ({ s.withoutKey rest with
          lines := { s.lines with viewDepth := depth, cursor := c }
          disp := { s.disp with transient := none, window := windowFor 0 c } }.enqueue
            [.feed (signedDiff dest.offset s.lines.displayed.offset) x, .move (dest.point c)])) t
    let refused (i : Instr) (m : Message) : Prop :=
      ∃ t, exec i s = .next t ∧ KeyLeaves (s.refusedAs k rest (some m)) t
    let full := d = 0 ∧ s.lines.current.mode = .hold ∧ s.lines.current.entries ≠ []
    (k.code = 5 →
      (full → refused .lineUp .lineNotEmpty) ∧
      (¬ full → s.lines.ring.length ≤ d → refused .lineUp .noLineAbove) ∧
      (¬ full → d < s.lines.ring.length → s.lineFeeding = true ∨ s.room < 2 →
        exec .lineUp s = .next s) ∧
      (¬ full → s.lineFeeding = false → 2 ≤ s.room →
        ∀ dest, s.lines.ringAt (d + 1) = some dest → shows .lineUp (d + 1) dest)) ∧
    (k.code = 6 →
      (d = 0 → refused .lineDown .noLineBelow) ∧
      (d ≠ 0 → s.room < 2 → exec .lineDown s = .next s) ∧
      (d ≠ 0 → 2 ≤ s.room →
        shows .lineDown (d - 1) ((s.lines.ringAt (d - 1)).getD s.lines.current)))

/-- O26. RELOCATE, and CLEAR outside HALTED (R107, R132): the cursor goes to the end of the current line,
with a MOVE in DIRECT mode and nothing in HOLD mode; from a ring line a FEED back and a MOVE; the key waits
for room for them. CLEAR needs no ownership. After a key the ownership is decided as O18 says, also when the
keyboard's role is lost (R40). -/
def Obligations.RelocateAndClear : Prop :=
  ∀ (s : State) (k : Keystroke) (rest : List Keystroke), s.HeadKey k rest → s.machine ≠ .halted →
    let n := s.lines.current.live.length
    let back (w : Nat) : State := { s.withoutKey rest with
      lines := { s.lines with viewDepth := 0, cursor := n }
      disp := { s.disp with transient := none, window := windowFor w n } }
    let feed : Action :=
      .feed (signedDiff s.lines.current.offset s.lines.displayed.offset) s.cursorPoint
    let relocates (i : Instr) : Prop :=
      (s.lines.viewDepth = 0 → s.lines.current.mode = .hold →
        ∃ t, exec i s = .next t ∧ KeyLeaves (back s.disp.window).settle t) ∧
      (s.lines.viewDepth = 0 → s.lines.current.mode = .direct →
        (s.room = 0 → exec i s = .next s) ∧
        (1 ≤ s.room → ∃ t, exec i s = .next t ∧ KeyLeaves
          ((back s.disp.window).enqueue [.move s.typingPoint]).settle t)) ∧
      (s.lines.viewDepth ≠ 0 →
        (s.room < 2 → exec i s = .next s) ∧
        (2 ≤ s.room → ∃ t, exec i s = .next t ∧ KeyLeaves
          ((back 0).enqueue [feed, .move s.typingPoint]).settle t))
    (k.code = 7 → s.intake.owner = .keyboard → relocates .relocate) ∧
    (k.code = 30 → relocates .clear)

/-- O27. RETURN (R68, R99, R100, R103): refused with a ring line displayed, waits while a line is
feeding, and otherwise commits the current line: it enters the ring at its newest end, the ring keeps 3
lines, an empty line opens with the next number at L and at the offset plus the spacing, the
margin-release flag and the bell mark are cleared; the other settings, the tape and what is queued stay.
The feeding mark is set at the line's first HELD entry or at the final FEED (R101, R102), and the line
is fed into the places that are free: a line without HELD entries enqueues its FEED at once. The words
of the line close and are handed, and the pending items and query slots of the words of a line pushed
out of the ring are dropped and DISCARDED (R99 step 2, R103, R110, R174). The ownership lapses unless a
printing key waits (R40). -/
def Obligations.ReturnCommits : Prop :=
  ∀ (s : State) (k : Keystroke) (rest : List Keystroke), s.KeyDue k rest →
    s.intake.owner = .keyboard → k.code = 1 →
    (s.lines.viewDepth ≠ 0 → ∃ t, exec .returnKey s = .next t ∧
      KeyLeaves (s.refusedAs k rest (some .relocateFirst)) t) ∧
    (s.lines.viewDepth = 0 → s.lineFeeding = true → exec .returnKey s = .next s) ∧
    (s.lines.viewDepth = 0 → s.lineFeeding = false → s.lines.ring.length ≤ 3 →
      let old := s.lines.current
      let offset := old.offset + BitVec.ofNat 16 s.esc.spacing
      ∃ t, exec .returnKey s = .next t ∧ t.intake.keys = rest ∧
        t.lines.current.number = s.lines.nextLine ∧ t.lines.current.entries = [] ∧
        t.lines.current.words = [] ∧ t.lines.current.nextId = 0 ∧
        t.lines.current.start = s.esc.left ∧ t.lines.current.offset = offset ∧
        t.lines.current.state = .opened ∧ t.lines.nextLine = s.lines.nextLine + 1 ∧
        t.lines.viewDepth = 0 ∧ t.lines.cursor = 0 ∧ t.lines.hold = s.lines.hold ∧
        t.lines.ring.map (·.number) =
          (if s.lines.ring.length = 3 then s.lines.ring.tail else s.lines.ring).map (·.number) ++
            [old.number] ∧
        (∃ l, t.lines.ring.getLast? = some l ∧ l.state = .committed ∧ l.start = old.start ∧
          l.offset = old.offset ∧ l.entries.map (·.id) = old.entries.map (·.id) ∧
          l.entries.map (·.start) = old.entries.map (·.start)) ∧
        FeedsCommitted s t old.entries ∧
        t.wordView = (s.lineClosed old.entries []).wordView ∧
        t.spell.isOn = s.spell.isOn ∧ t.alert.silence = s.alert.silence ∧
        (∃ u : State, u.intake.owner = .keyboard ∧
          ((∃ x ∈ rest, 32 ≤ x.code ∧ x.code ≤ 159) → t = u) ∧
          ((∀ x ∈ rest, x.code < 32 ∨ 159 < x.code) → t = (u.setOwner .none).arbitrate)) ∧
        (s.lines.mark = none → (∀ e ∈ old.entries, e.strike ≠ some .held) →
          (s.seq.queue.length < 48 → t.lines.mark = none ∧
            t.seq.queue = s.seq.queue ++ [.feed (Int.ofNat s.esc.spacing) s.esc.left]) ∧
          (48 ≤ s.seq.queue.length → t.seq.queue = s.seq.queue ∧ t.lines.mark =
            some ⟨old.number, .finalFeed, some (Int.ofNat s.esc.spacing, s.esc.left)⟩)) ∧
        t.disp.window = 0 ∧
        t.esc = { s.esc with paperOffset := offset, bellRung := false, marginRelease := false } ∧
        t.corr = s.corr ∧ s.seq.queue <+: t.seq.queue ∧ t.seq.bold = s.seq.bold ∧
        t.seq.underline = s.seq.underline ∧ t.seq.impression = s.seq.impression ∧
        t.wheel = s.wheel ∧ t.bus.table = s.bus.table)

/-! ### Making entries (Chapters 4 and 5) -/

/-- O28. A printing key, HALF SPACE or TAB at the end of a DIRECT line (R57, R64, R66, R67, R89, R95):
refused past the right limit or without a tab stop, waiting while there is no room, and otherwise appended
at the typing point with its actions enqueued, of more than 48 the first 48 with the feeding mark set to the
next (R95); the bell mark follows R65, and BELL is asked for when it is set; the line is segmented, which
hands the words it closes (R108, R110), and what has joined the queue is fed and examined. Nothing else of
the settings, the tape or the other entries changes. The clauses say the key's effect, the state u; what
follows it is the ownership alone, decided as after any key (O18): a keyboard whose role is lost, with no
key left that would use the line, commits what u holds and gives the line up (R19, R40). -/
def Obligations.DirectLineKeys : Prop :=
  ∀ (s : State) (k : Keystroke) (rest : List Keystroke), s.KeyDue k rest →
    s.intake.owner = .keyboard → s.lines.viewDepth = 0 → s.lines.current.mode = .direct →
    s.lines.current.live.length ≤ s.lines.cursor →
    let l := s.lines.current
    let limit :=
      if l.owner = .keyboard ∧ s.esc.marginRelease = true then s.esc.platen else s.esc.right
    let refused (i : Instr) (m : Message) : Prop :=
      ∃ t, exec i s = .next t ∧ KeyLeaves (s.refusedAs k rest (some m)) t
    let typed (i : Instr) (kind : EntryKind) (advance : Nat) : Prop :=
      let e := s.beginEntry l.number
        (newEntry l.nextId kind s.typingPoint advance s.seq.underline)
      let actions := e.actions l.number
      let fits := s.typingPoint + advance ≤ limit
      let possible := l.entries.length < 160 ∧ l.nextId ≤ 255
      let n := l.live.length + 1
      let made := State.rungAt { s.withoutKey rest with
        lines := { s.lines with
          current := { l with entries := l.entries ++ [e], nextId := l.nextId + 1 }
          cursor := n
          mark := if 48 < actions.length then some ⟨l.number, .action l.nextId 48, none⟩
            else s.lines.mark }
        seq := { s.seq with queue := s.seq.queue ++ actions.take 48 }
        disp := { s.disp with transient := none, window := windowFor s.disp.window n } }
        (s.typingPoint + advance)
      (¬ fits ∨ ¬ possible → refused i .lineFull) ∧
      (fits → possible → s.room < min actions.length 48 → exec i s = .next s) ∧
      (fits → possible → min actions.length 48 ≤ s.room →
        ∃ u t, exec i s = .next t ∧ KeyLeaves u t ∧ t.intake.keys = rest ∧
          u = (made.resegment l.number).settle ∧
          u.lines.current.entries.map Entry.shape = (l.entries ++ [e]).map Entry.shape ∧
          u.lines.current.entries.getLast?.map Entry.bare = some e.bare ∧
          u.lines.current.nextId = l.nextId + 1 ∧ u.lines.cursor = l.live.length + 1 ∧
          (s.seq.queue ++ actions.take 48) <+: u.seq.queue ∧
          u.lines.ring.map (fun r => (r.number, r.entries.map Entry.shape)) =
            s.lines.ring.map (fun r => (r.number, r.entries.map Entry.shape)) ∧
          u.esc = { s.esc with
            bellRung := s.esc.bellRung ||
              (l.owner == .keyboard && decide (s.esc.right < s.typingPoint + advance + 60)) } ∧
          u.corr = s.corr ∧ u.wheel = s.wheel ∧ u.spell.userWords = s.spell.userWords ∧
          u.seq.bold = s.seq.bold ∧ u.seq.underline = s.seq.underline ∧
          u.seq.impression = s.seq.impression)
    (33 ≤ k.code → k.code ≤ 159 → ∀ f w, s.wheel.mounted = some f → f.width k.code = some w →
      typed .printingCharacter (.char k.code f s.seq.bold) w) ∧
    (k.code = 32 → ∀ f, s.wheel.mounted = some f → typed .space .space f.spaceWidth) ∧
    (k.code = 8 → ∀ f, s.wheel.mounted = some f → typed .halfSpace .halfSpace f.halfSpaceWidth) ∧
    (k.code = 2 →
      ((∀ x ∈ s.esc.tabs, x ≤ s.typingPoint) → refused .tab .noTabStop) ∧
      (∀ before x after, s.esc.tabs = before ++ x :: after → (∀ y ∈ before, y ≤ s.typingPoint) →
        s.typingPoint < x → typed .tab (.tab true) (x - s.typingPoint)))

/-- O29. The wheel check (R57, R58): with no wheel mounted a printing key and HALF SPACE are refused with NO
WHEEL, and a character that is not on the wheel with NOT ON WHEEL, wherever the cursor stands; a TAB in a
current line composed in HOLD mode that would need the SPACE width is refused with NO WHEEL, appended,
inserted (judged at the cursor point, log 43) or to be filled. After a key the ownership is decided as O18
says, also when the keyboard's role is lost (R40). -/
def Obligations.WheelCheckRefuses : Prop :=
  ∀ (s : State) (k : Keystroke) (rest : List Keystroke), s.KeyDue k rest →
    s.intake.owner = .keyboard →
    let refused (i : Instr) (m : Message) : Prop :=
      ∃ t, exec i s = .next t ∧ KeyLeaves (s.refusedAs k rest (some m)) t
    (s.wheel.mounted = none →
      (33 ≤ k.code → k.code ≤ 159 → refused .printingCharacter .noWheel) ∧
      (k.code = 32 → refused .space .noWheel) ∧ (k.code = 8 → refused .halfSpace .noWheel) ∧
      (k.code = 2 → s.lines.viewDepth = 0 → s.lines.current.mode = .hold →
        (∀ x ∈ s.esc.tabs, x ≤ s.cursorPoint) → refused .tab .noWheel)) ∧
    (∀ f, s.wheel.mounted = some f → 33 ≤ k.code → k.code ≤ 159 → f.carries k.code = false →
      refused .printingCharacter .notOnWheel)

/-- O30. A printing key, HALF SPACE or TAB at the end of a HOLD line (R64, R69, R71, R73, R89): an entry
that fits is appended HELD or plain, nothing is enqueued, the bell is checked (R65), and the line is
segmented, which hands the words it closes (R108, R110); past the right limit a TAB, a HALF SPACE and a CHAR
that cannot be carried are refused, and a key that would commit the line waits while another line is
feeding. A key that passes the limit of a line without a place is decided by the limit (log 19), and the
empty run of an empty line cannot be carried (log 40). The clauses say the key's effect, the state u; what
follows it is the ownership alone, decided as after any key (O18): a keyboard whose role is lost, with no
key left that would use the line, commits what u holds and gives the line up (R19, R40). -/
def Obligations.HoldLineKeys : Prop :=
  ∀ (s : State) (k : Keystroke) (rest : List Keystroke),
    s.KeyDue k rest → s.intake.owner = .keyboard → s.lines.viewDepth = 0 →
    s.lines.current.mode = .hold → s.lines.current.live.length ≤ s.lines.cursor →
    let l := s.lines.current
    let p := s.typingPoint
    let limit :=
      if l.owner = .keyboard ∧ s.esc.marginRelease = true then s.esc.platen else s.esc.right
    let run := l.carriedRun.1
    let carried (w : Nat) : Prop :=
      run.length < l.live.length ∧ (∀ e ∈ run, e.strike = some .held ∧ e.id < 255) ∧
        s.esc.left + (run.map (·.advance)).sum + w ≤ limit
    let refused (i : Instr) (m : Message) : Prop :=
      ∃ t, exec i s = .next t ∧ KeyLeaves (s.refusedAs k rest (some m)) t
    let typed (i : Instr) (kind : EntryKind) (advance : Nat) : Prop :=
      let possible := l.entries.length < 160 ∧ l.nextId ≤ 255
      p + advance ≤ limit →
        (¬ possible → refused i .lineFull) ∧
        (possible → ∃ u t, exec i s = .next t ∧ KeyLeaves u t ∧ t.intake.keys = rest ∧
          u.lines.current.entries.map Entry.bare =
            (l.entries ++ [newEntry l.nextId kind p advance s.seq.underline]).map Entry.bare ∧
          (let n := l.live.length + 1
           let made := State.rungAt { s.withoutKey rest with
             lines := { s.lines with
               current := { l with
                 entries := l.entries ++ [newEntry l.nextId kind p advance s.seq.underline]
                 nextId := l.nextId + 1 }
               cursor := n }
             disp := { s.disp with transient := none, window := windowFor s.disp.window n } }
             (p + advance)
           u = made.resegment l.number) ∧
          u.lines.current.nextId = l.nextId + 1 ∧ u.lines.cursor = l.live.length + 1 ∧
          u.lines.ring.map (·.entries) = s.lines.ring.map (·.entries) ∧ u.seq = s.seq ∧
          u.corr = s.corr ∧ u.wheel = s.wheel ∧ u.esc = { s.esc with
            bellRung := s.esc.bellRung ||
              (l.owner == .keyboard && decide (s.esc.right < p + advance + 60)) })
    (33 ≤ k.code → k.code ≤ 159 → ∀ f w, s.wheel.mounted = some f → f.width k.code = some w →
      typed .printingCharacter (.char k.code f s.seq.bold) w ∧
      (limit < p + w → ¬ carried w → refused .printingCharacter .lineFull) ∧
      (limit < p + w → carried w → s.lineFeeding = true →
        exec .printingCharacter s = .next s)) ∧
    (k.code = 32 → ∀ f, s.wheel.mounted = some f → typed .space .space f.spaceWidth ∧
      (limit < p + f.spaceWidth → s.lineFeeding = true → exec .space s = .next s)) ∧
    (k.code = 8 → ∀ f, s.wheel.mounted = some f → typed .halfSpace .halfSpace f.halfSpaceWidth ∧
      (limit < p + f.halfSpaceWidth → refused .halfSpace .lineFull)) ∧
    (k.code = 2 → ∀ d, holdTabAdvance s.esc.tabs s.wheel.mounted p = some d →
      typed .tab (.tab false) d ∧ (limit < p + d → refused .tab .lineFull))

/-- O31. The wrap (R69, R70, R99): a CHAR that passes the right limit takes the carried run with it to the
new line, where both stand from L on; a SPACE that passes commits the line and is dropped. The old line
enters the ring without the run and without the SPACEs at its end, the GAPs among them (log 48); a SPACE's
commit drops them as well (log 18); an underlined SPACE of a reopened line that is QUEUED is dropped too,
and its STRIKEs stay in the print queue, which is the model's choice (log 55); it is justified as O32 has
it, and fed (R101, R102). Without them a line has its live entries up to the last that is neither a SPACE
nor a GAP, and keeps its LIFTING entries. A line without a place wraps too (log 19). The cursor is set once,
at the end of the new line, and the window follows it from 0 (R184, R185). The words of the old line close
and are handed, those of a line pushed out of the ring are dropped, the new line is segmented (R103, R108,
R110, R174), and the bell is checked on it (R65). The clauses say the key's effect, the state u; a keyboard
then gives up a new line without entries when no printing key waits (R40, first case), and in every other
case the ownership is decided as after any key (O18). -/
def Obligations.HoldLineWraps : Prop :=
  (∀ es : List Entry,
    let live (x : List Entry) := x.filter Entry.live
    let blank (e : Entry) : Prop := e.kind = .space ∨ e.kind = .gap
    ∃ cut, live es = live (trimLine es) ++ cut ∧ (∀ e ∈ cut, blank e) ∧
      (∀ e, (live (trimLine es)).getLast? = some e → ¬ blank e) ∧ (trimLine es).Sublist es ∧
      (trimLine es).filter (!Entry.live ·) = es.filter (!Entry.live ·)) ∧
  ∀ (s : State) (k : Keystroke) (rest : List Keystroke) (f : Family),
    s.KeyDue k rest → s.intake.owner = .keyboard → s.lines.viewDepth = 0 →
    s.lines.current.mode = .hold → s.lines.current.live.length ≤ s.lines.cursor →
    s.wheel.mounted = some f → s.lineFeeding = false → s.lines.ring.length ≤ 3 →
    let l := s.lines.current
    let wraps (i : Instr) (left : List Entry) (starts : List Entry) (next : Nat) : Prop :=
      let committed := (justifyLine s.esc.justify s.esc.right (some f)
        { l with entries := trimLine left }).entries
      ∃ u t, exec i s = .next t ∧ KeyCommits u t ∧ t.intake.keys = rest ∧
        u.intake = { s.intake with keys := rest } ∧
        u.lines.current.number = s.lines.nextLine ∧ u.lines.current.start = s.esc.left ∧
        u.lines.current.entries.map Entry.shape = starts.map Entry.shape ∧
        (s.lines.nextLine ≠ l.number → ∀ e ∈ u.lines.current.entries, e.strike = some .held) ∧
        u.lines.current.nextId = next ∧ u.lines.cursor = starts.length ∧
        u.disp.window = windowFor 0 starts.length ∧
        u.lines.current.offset = l.offset + BitVec.ofNat 16 s.esc.spacing ∧
        (∃ r, u.lines.ring.getLast? = some r ∧ r.number = l.number ∧ r.state = .committed ∧
          r.entries.map (·.id) = (trimLine left).map (·.id) ∧
          r.entries.map Entry.shape = committed.map Entry.shape) ∧
        FeedsCommitted s u committed ∧
        u.wordView = ((s.lineClosed committed starts).resegment s.lines.nextLine).wordView ∧
        (let rung := starts ≠ [] ∧ l.owner = .keyboard ∧
           s.esc.right < endOf s.esc.left starts + 60
         (rung → u.esc.bellRung = true ∧ u.alert = (s.requestAlert .bell).alert) ∧
         (¬ rung → u.esc.bellRung = false ∧ u.alert = s.alert)) ∧
        u.spell.isOn = s.spell.isOn ∧ u.lines.hold = s.lines.hold ∧
        s.seq.queue <+: u.seq.queue ∧ u.corr = s.corr ∧ u.esc.tabs = s.esc.tabs ∧
        u.esc.left = s.esc.left ∧ u.esc.right = s.esc.right ∧
        u.esc.marginRelease = s.esc.marginRelease
    (33 ≤ k.code → k.code ≤ 159 → ∀ w, f.width k.code = some w → s.passesEnd w = true →
      s.canCarry w = true →
      let run := l.carriedRun.1
      let next := carriedNextId run
      wraps .printingCharacter l.carriedRun.2
        (shiftFrom s.esc.left run ++ [newEntry next (.char k.code f s.seq.bold)
          (s.esc.left + (run.map (·.advance)).sum) w s.seq.underline]) (next + 1)) ∧
    (k.code = 32 → s.passesEnd f.spaceWidth = true → wraps .space l.entries [] 0)

/-- O32. Justification (R74, R75). The stretch spaces are the SPACEs after the last MOVE and before the
last CHAR, from the left. When all of R74 holds and no stretch space would grow by more than twice the
SPACE width, each grows by the whole part of the extra over their number, the first ones by one step more
until the extra is used up, no other entry's advance changes, each entry begins where the one before it
ends, and the line ends exactly at R. In every other case the line stays as it is. -/
def Obligations.JustifiedLineEndsAtTheMargin : Prop :=
  (∀ live : List Entry,
    let isMove (e : Entry) : Prop := (∃ b, e.kind = .tab b) ∨ e.kind = .halfSpace
    let stretch (i : Nat) : Prop :=
      (∃ e, live[i]? = some e ∧ e.kind = .space) ∧
      (∃ j e, i < j ∧ live[j]? = some e ∧ ∃ c f b, e.kind = .char c f b) ∧
      ∀ j e, live[j]? = some e → isMove e → j < i
    ∃ places : List Nat, places.Pairwise (· < ·) ∧ (∀ i, i ∈ places ↔ stretch i) ∧
      stretchSpaces live = places.filterMap fun i => live[i]?.map (·.id)) ∧
  (∀ (l : Line) (justify : Bool) (right : Nat) (f : Family),
    let ids := stretchSpaces l.live
    justify = false ∨ ids = [] ∨ right < l.endPoint ∨
      (∃ e ∈ l.entries, e.strike = some .queued ∨ e.strike = some .struck ∨
        e.strike = some .lifting ∨ e.kind = .gap) ∨
      2 * f.spaceWidth < (right - l.endPoint) / ids.length →
    justifyLine justify right (some f) l = l) ∧
  ∀ (l : Line) (right : Nat) (f : Family),
    let ids := stretchSpaces l.live
    let share := (right - l.endPoint) / ids.length
    let rest := (right - l.endPoint) % ids.length
    let out := justifyLine true right (some f) l
    shiftFrom l.start l.entries = l.entries → (l.entries.map (·.id)).Nodup → ids ≠ [] →
    l.endPoint ≤ right → (∀ e ∈ l.entries, e.live = true ∧ e.onPaper = false ∧ e.isGap = false) →
    share ≤ 2 * f.spaceWidth →
    out.endPoint = right ∧ out.entries.map (·.id) = l.entries.map (·.id) ∧
      out = { l with entries := out.entries } ∧
      (∀ e, out.entries.head? = some e → e.start = l.start) ∧
      (∀ i a b, out.entries[i]? = some a → out.entries[i + 1]? = some b → b.start = a.endPos) ∧
      ∀ (i : Nat) (a b : Entry), l.entries[i]? = some a → out.entries[i]? = some b →
        b = { a with start := b.start, advance := b.advance } ∧
        (a.id ∉ ids → b.advance = a.advance) ∧
        ∀ k, ids[k]? = some a.id → b.advance = a.advance + share + if k < rest then 1 else 0

/-- O33. However a HOLD line is laid out anew (R72, R73, R88), its live entries begin at the place
given, each begins where the one before it ends, and a tab ends on the first stop beyond its start or
takes the SPACE width; with no wheel mounted it then keeps the advance it has (R58). No other advance
changes, and nothing else of an entry. -/
def Obligations.LayoutHasNoBreak : Prop :=
  ∀ (tabs : List Nat) (mounted : Option Family) (start : Nat) (entries : List Entry),
    let out := relayout tabs mounted start entries
    let live := out.filter Entry.live
    (∀ e, live.head? = some e → e.start = start) ∧
    (∀ i a b, live[i]? = some a → live[i + 1]? = some b → b.start = a.endPos) ∧
    (∀ e ∈ live, e.kind = .tab false →
      (∀ x, tabs.find? (e.start < ·) = some x → e.endPos = x) ∧
      (∀ f, mounted = some f → tabs.find? (e.start < ·) = none → e.advance = f.spaceWidth)) ∧
    out.map (·.id) = entries.map (·.id) ∧
    ∀ (i : Nat) (a b : Entry), entries[i]? = some a → out[i]? = some b →
      b = { a with start := b.start, advance := b.advance } ∧ (a.live = false → b = a) ∧
      (a.kind ≠ .tab false ∨ (mounted = none ∧ tabs.find? (b.start < ·) = none) →
        b.advance = a.advance)

/-- O34. Where a key's entry goes (R94), by the displayed line, its mode and the cursor. That a key before a
GAP of a HOLD line with nothing printed at or after it is inserted, and not filled, is the model's choice
(log 52). A key inserted into a HOLD line (R72, R89, R96, with the bell check of R65 and the segmentation of
R108): refused when the line would pass the right limit, and otherwise the line stands as laid out with the
entry before the one at the cursor, the cursor after it, and nothing enqueued. A TAB that reaches a stop
needs no wheel (R58). The need is judged at the cursor point: with no wheel mounted, a TAB that the new
layout moves past the last stop is inserted all the same and keeps its first advance. That clause is the
model's choice (log 43). The clauses say the key's effect, the state u; what follows it is the ownership
alone, decided as after any key (O18): a keyboard whose role is lost, with no key left that would use the
line, commits what u holds and gives the line up (R19, R40). -/
def Obligations.InsertedInHoldLine : Prop :=
  (∀ s : State,
    let l := s.lines.current
    let inside := s.lines.cursor < l.live.length
    let printed := ∃ e ∈ l.live.drop s.lines.cursor, e.strike = some .queued ∨ e.strike = some .struck
    (s.lines.viewDepth ≠ 0 → s.place = .filled) ∧
    (s.lines.viewDepth = 0 →
      (l.mode = .direct → ¬ inside → s.place = .appendedDirect) ∧
      (l.mode = .hold → ¬ inside → s.place = .appendedHold) ∧
      (l.mode = .hold → inside → ¬ printed → s.place = .inserted) ∧
      (l.mode = .hold → inside → printed → s.place = .filled) ∧
      (l.mode = .direct → inside → s.place = .filled))) ∧
  ∀ (s : State) (k : Keystroke) (rest : List Keystroke),
    s.KeyDue k rest → s.intake.owner = .keyboard → s.place = .inserted →
    let l := s.lines.current
    let limit :=
      if l.owner = .keyboard ∧ s.esc.marginRelease = true then s.esc.platen else s.esc.right
    let inserts (i : Instr) (kind : EntryKind) (advance : Nat) : Prop :=
      let es := relayout s.esc.tabs s.wheel.mounted l.start
        (insertAtLive (newEntry l.nextId kind s.cursorPoint advance s.seq.underline) s.lines.cursor
          l.entries)
      let ending := endOf l.start (es.filter Entry.live)
      let possible := l.entries.length < 160 ∧ l.nextId ≤ 255
      (limit < ending ∨ ¬ possible → ∃ t, exec i s = .next t ∧
        KeyLeaves (s.refusedAs k rest (some .lineFull)) t) ∧
      (ending ≤ limit → possible → ∃ u t, exec i s = .next t ∧ KeyLeaves u t ∧ t.intake.keys = rest ∧
        u.lines.current.entries.map Entry.bare = es.map Entry.bare ∧
        u.lines.current.nextId = l.nextId + 1 ∧
        (let made := State.rungAt { s.withoutKey rest with
           lines := { s.lines with
             current := { l with entries := es, nextId := l.nextId + 1 }, cursor := u.lines.cursor }
           disp := { s.disp with
             transient := none, window := windowFor s.disp.window u.lines.cursor } } ending
         u = made.resegment l.number) ∧
        ((l.entries.map (·.id)).Nodup → (∀ e ∈ l.entries, e.id < l.nextId) →
          u.lines.cursor = s.lines.cursor + 1) ∧
        u.seq = s.seq ∧ u.corr = s.corr ∧ u.wheel = s.wheel ∧ u.esc.tabs = s.esc.tabs ∧
        u.esc.left = s.esc.left ∧ u.esc.right = s.esc.right)
    (33 ≤ k.code → k.code ≤ 159 → ∀ f w, s.wheel.mounted = some f → f.width k.code = some w →
      inserts .printingCharacter (.char k.code f s.seq.bold) w) ∧
    (k.code = 32 → ∀ f, s.wheel.mounted = some f → inserts .space .space f.spaceWidth) ∧
    (k.code = 8 → ∀ f, s.wheel.mounted = some f → inserts .halfSpace .halfSpace f.halfSpaceWidth) ∧
    (k.code = 2 → ∀ d, holdTabAdvance s.esc.tabs s.wheel.mounted s.cursorPoint = some d →
      inserts .tab (.tab false) d)

/-- O35. A character or SPACE filled at the cursor (R97): refused when the entry there cannot be filled, and
otherwise the new entry takes its start and width out of that entry, its actions are enqueued, and no other
entry moves, the line is segmented and the words it closes are handed (R108, R110), and the queue is fed and
examined; a TAB or HALF SPACE is refused (R67), a TAB with NO ROOM also when no wheel is mounted, but for
one in a HOLD line with no stop beyond, which O29 has (a ring line is no hold line there, log 49). The
clauses say the key's effect, the state u; what follows it is the ownership alone, decided as after any key
(O18): a keyboard whose role is lost, with no key left that would use the line, commits what u holds and
gives the line up (R19, R40). -/
def Obligations.FilledAtTheCursor : Prop :=
  ∀ (s : State) (k : Keystroke) (rest : List Keystroke),
    s.KeyDue k rest → s.intake.owner = .keyboard → s.place = .filled →
    let l := s.lines.displayed
    let refused (i : Instr) (m : Message) : Prop :=
      ∃ t, exec i s = .next t ∧ KeyLeaves (s.refusedAs k rest (some m)) t
    let fills (i : Instr) (kind : EntryKind) (width : Nat) : Prop :=
      let fillable (g : Entry) : Prop :=
        ((g.kind = .space ∧ g.strike = none) ∨ g.kind = .gap) ∧ width ≤ g.advance
      let possible := l.entries.length < 160 ∧ l.nextId ≤ 255
      (l.live[s.lines.cursor]? = none → refused i .noRoom) ∧
      (∀ g, l.live[s.lines.cursor]? = some g →
        let e := s.beginEntry l.number (newEntry l.nextId kind g.start width s.seq.underline)
        let actions := e.actions l.number
        let after := l.entries.flatMap fun x =>
          if x.id = g.id then
            if x.advance = width then [e]
            else [e, { x with start := x.start + width, advance := x.advance - width }]
          else [x]
        (¬ fillable g → refused i .noRoom) ∧
        (fillable g → ¬ possible → refused i .lineFull) ∧
        (fillable g → possible → s.room < actions.length → exec i s = .next s) ∧
        (fillable g → possible → actions.length ≤ s.room → ∃ u t l', exec i s = .next t ∧ KeyLeaves u t ∧
          t.intake.keys = rest ∧ u.lines.find l.number = some l' ∧
          l'.entries.map Entry.shape = after.map Entry.shape ∧
          (s.lines.find l.number = some l → l'.nextId = l.nextId + 1) ∧
          (let made : State := { s.withoutKey rest with
             lines := { s.lines.updateLine l.number fun x =>
               { x with entries := after, nextId := l.nextId + 1 } with cursor := u.lines.cursor }
             seq := { s.seq with queue := s.seq.queue ++ actions }
             disp := { s.disp with
               transient := none, window := windowFor s.disp.window u.lines.cursor } }
           u = (made.resegment l.number).settle) ∧
          ((l.entries.map (·.id)).Nodup → (∀ x ∈ l.entries, x.id < l.nextId) →
            u.lines.cursor = s.lines.cursor + 1) ∧
          (s.seq.queue ++ actions) <+: u.seq.queue ∧ u.corr = s.corr ∧ u.esc = s.esc ∧
          u.wheel = s.wheel))
    (33 ≤ k.code → k.code ≤ 159 → ∀ f w, s.wheel.mounted = some f → f.width k.code = some w →
      fills .printingCharacter (.char k.code f s.seq.bold) w) ∧
    (k.code = 32 → ∀ f, s.wheel.mounted = some f → fills .space .space f.spaceWidth) ∧
    (k.code = 8 → s.wheel.mounted ≠ none → refused .halfSpace .noRoom) ∧
    (k.code = 2 → s.wheel.mounted ≠ none ∨ s.lines.viewDepth ≠ 0 ∨ s.lines.current.mode = .direct ∨
      (∃ x ∈ s.esc.tabs, s.cursorPoint < x) → refused .tab .noRoom)

/-! ### Corrections (Chapter 7) -/

/-- O36. What the correcting keys act on (R139 to R142, R104). CORRECT: the entry before the cursor in a
HOLD line, the entry at the cursor, or the last one with the cursor at the end, in a DIRECT or ring line; a
GAP and an empty ring are nothing to correct, and a source's line is not reopened. WORD CORRECT: at the end,
the SPACEs and MOVEs there with the run of CHARs before them; inside, the run of CHARs around the reference
entry, which must be a CHAR; on an empty current line, the end of the newest ring line, which it reopens. A
displayed ring line without live entries, and a newest ring line without any under an empty current line,
give nothing to correct; the first is the model's choice (log 20). With LIFTING entries left in the current
line, or a line feeding, the key waits also where R104 would refuse it, which is the model's choice (log
56). SPELL CORRECT: the entries of the newest FLAGGED word of the current line. -/
def Obligations.CorrectChoosesItsTarget : Prop :=
  (∀ s : State,
    let l := s.lines.displayed
    let c := s.lines.cursor
    let current := s.lines.viewDepth = 0
    let target (e : Entry) : Choice :=
      if e.kind = .gap then .refuse .nothingToCorrect else .targets false l [e]
    (current → l.mode = .hold → l.live ≠ [] → c = 0 →
      s.chooseAround false = .refuse .lineStart) ∧
    (current → l.mode = .hold → 1 ≤ c → ∀ e, l.live[c - 1]? = some e →
      s.chooseAround false = target e) ∧
    (¬ (current ∧ l.mode = .hold) → ∀ e, l.live[c]? = some e → s.chooseAround false = target e) ∧
    (¬ (current ∧ l.mode = .hold) → l.live.length ≤ c → ∀ e, l.live.getLast? = some e →
      s.chooseAround false = target e) ∧
    (¬ current → l.live = [] → s.chooseAround false = .refuse .nothingToCorrect) ∧
    (current → l.live = [] →
      (l.entries ≠ [] ∨ s.lineFeeding = true → s.chooseAround false = .wait) ∧
      (l.entries = [] → s.lineFeeding = false →
        (s.lines.ring = [] → s.chooseAround false = .refuse .nothingToCorrect) ∧
        (∀ r, s.lines.ring.getLast? = some r →
          (r.owner = .source1 ∨ r.owner = .source2 →
            s.chooseAround false = .refuse .cannotReopen) ∧
          (r.owner ≠ .source1 → r.owner ≠ .source2 → r.live = [] →
            s.chooseAround false = .refuse .nothingToCorrect) ∧
          (r.owner ≠ .source1 → r.owner ≠ .source2 → ∀ e, r.live.getLast? = some e →
            e.kind ≠ .gap → s.chooseAround false = .targets true
              { r with state := .reopened, mode := if s.lines.hold then .hold else .direct }
              [e]))))) ∧
  (∀ s : State,
    let l := s.lines.displayed
    let c := s.lines.cursor
    let current := s.lines.viewDepth = 0
    let isBlank (e : Entry) : Prop := e.kind = .space ∨ (∃ b, e.kind = .tab b) ∨ e.kind = .halfSpace
    let isChar (e : Entry) : Prop := ∃ code f b, e.kind = .char code f b
    let endsIn (live before run blanks : List Entry) : Prop :=
      live = before ++ run ++ blanks ∧ (∀ e ∈ run, isChar e) ∧ (∀ e ∈ blanks, isBlank e) ∧
        ∀ e, before.getLast? = some e → ¬ isChar e ∧ (run = [] → ¬ isBlank e)
    let chooses (reopen : Bool) (line : Line) (targets : List Entry) : Prop :=
      (targets = [] → s.chooseAround true = .refuse .nothingToCorrect) ∧
      (targets ≠ [] → s.chooseAround true = .targets reopen line targets)
    let reference := if s.lines.viewDepth = 0 ∧ l.mode = .hold then c - 1 else c
    (current → l.mode = .hold → l.live ≠ [] → c = 0 →
      s.chooseAround true = .refuse .lineStart) ∧
    (¬ (current ∧ l.live = []) → l.live.length ≤ c → ∀ before run blanks,
      endsIn l.live before run blanks → chooses false l (run ++ blanks)) ∧
    (c < l.live.length → (current → l.mode = .hold → 1 ≤ c) →
      (∀ e, l.live[reference]? = some e → ¬ isChar e →
        s.chooseAround true = .refuse .nothingToCorrect) ∧
      (∀ before run after, l.live = before ++ run ++ after → (∀ e ∈ run, isChar e) →
        (∀ e, before.getLast? = some e → ¬ isChar e) → (∀ e, after.head? = some e → ¬ isChar e) →
        before.length ≤ reference → reference < before.length + run.length →
        s.chooseAround true = .targets false l run)) ∧
    (current → l.live = [] →
      (l.entries ≠ [] ∨ s.lineFeeding = true → s.chooseAround true = .wait) ∧
      (l.entries = [] → s.lineFeeding = false →
        (s.lines.ring = [] → s.chooseAround true = .refuse .nothingToCorrect) ∧
        (∀ r, s.lines.ring.getLast? = some r →
          (r.owner = .source1 ∨ r.owner = .source2 →
            s.chooseAround true = .refuse .cannotReopen) ∧
          (r.owner ≠ .source1 → r.owner ≠ .source2 → ∀ before run blanks,
            endsIn r.live before run blanks → chooses true
              { r with state := .reopened, mode := if s.lines.hold then .hold else .direct }
              (run ++ blanks)))))) ∧
  ∀ s : State,
    let l := s.lines.current
    (s.lines.viewDepth ≠ 0 → s.chooseFlagged = .refuse .relocateFirst) ∧
    (s.lines.viewDepth = 0 → (∀ w ∈ l.words, w.state ≠ .flagged) →
      s.chooseFlagged = .refuse .noFlaggedWord) ∧
    (s.lines.viewDepth = 0 → ∀ w ∈ l.words, w.state = .flagged →
      (∀ v ∈ l.words, v.state = .flagged → v ≠ w →
        (s.lines.serialCounter - w.serial).toNat < (s.lines.serialCounter - v.serial).toNat) →
      s.chooseFlagged = .targets false l (l.live.filter fun e => e.serial = some w.serial))

/-- O37. CORRECT, WORD CORRECT and SPELL CORRECT carried out (R104, R143 to R150). Each target that is
QUEUED or STRUCK needs a lift for every strike done and for one in execution. The key is refused by the
first check that fails, in the order of R146. It waits for room, counted with the feeding mark past the
targets withdrawn (log 21). Then the targets' STRIKEs that have not started are withdrawn, the other actions
staying in their order and the head where it has started (R113, R148), the reverse FEED of a reopen and the
LIFTs join the tail, the tape is reserved and the lift records added, and no target is live any more. There
is one LIFT for each sub-index, built as the STRIKE of that sub-index, with the family of the character or
the one mounted; past the strikes of a tab made shorter since, its position is free (log 47). Targets at the
end leave the line shorter, without a GAP at its end; targets inside leave one GAP of their width, merged
with a GAP on either side; a deletion in a HOLD line closes up, two GAPs that meet merging into the left
one. The cursor keeps its place by R91, or stands before the GAP of a correction inside. The line is
segmented, which drops the words that have gone and hands those it closes (R108, R110, R174), and then the
queue is fed and its head examined. The window follows the cursor (R184, R185), at a reopen twice, for the
line brought back and then for the cursor after the correction: the model's choice (log 28). The tape count
and the settings stay, but for the bell mark and the paper offset at a reopen; that a correction makes no
bell check, even where a deletion widens a tab, is the model's choice (log 29). The clauses say the key's
effect, the state u; what follows it is the ownership alone, decided as after any key (O18): a keyboard
whose role is lost, with no key left that would use the line, commits what u holds and gives the line up
(R19, R40). -/
def Obligations.CorrectionsCarriedOut : Prop :=
  (∀ (s : State) (k : Keystroke) (rest : List Keystroke), s.KeyDue k rest →
    s.intake.owner = .keyboard →
    let refused (i : Instr) (m : Message) : Prop :=
      ∃ t, exec i s = .next t ∧ KeyLeaves (s.refusedAs k rest (some m)) t
    let corrects (i : Instr) (choice : Choice) : Prop :=
      (∀ m, choice = .refuse m → refused i m) ∧
      (choice = .wait → exec i s = .next s) ∧
      (∀ reopen l targets, choice = .targets reopen l targets →
        let lifts (e : Entry) : Nat :=
          if e.strike = some .queued ∨ e.strike = some .struck then
            e.done + if s.inExecution l.number e.id then 1 else 0
          else 0
        let count := (targets.map lifts).sum
        let queue := s.withdrawnQueue l.number targets ++ s.correctionActions reopen l targets
        (1 ≤ count → s.wheel.mounted = none → refused i .noWheel) ∧
        (∀ f, s.wheel.mounted = some f →
          (∃ e ∈ targets, lifts e ≠ 0 ∧ ∃ c g b, e.kind = .char c g b ∧ g ≠ f) →
          refused i .wheelMismatch) ∧
        (∀ m, s.checkFails reopen l targets = some m → refused i m) ∧
        (s.checkFails reopen l targets = none →
          (s.withdrawn reopen l targets).room < (s.correctionActions reopen l targets).length →
          exec i s = .next s) ∧
        (s.checkFails reopen l targets = none →
          (s.correctionActions reopen l targets).length ≤ (s.withdrawn reopen l targets).room →
          ∃ u t, exec i s = .next t ∧ KeyLeaves u t ∧ t.intake.keys = rest ∧
            u.corr = { s.corr with
              reserved := s.corr.reserved + count
              lifts := s.corr.lifts ++ ((targets.filter fun e => lifts e ≠ 0).map fun e =>
                ⟨l.number, e.id, lifts e⟩) } ∧
            queue <+: u.seq.queue ∧
            (let base := (s.withoutKey rest).withdrawn reopen l targets
             let made := State.resegment
               { base with corr := u.corr, seq := { base.seq with queue := queue } } l.number
             let headGone := s.seq.headStarted = false ∧ ∃ b others,
               s.seq.queue = .strike b :: others ∧ b.line = l.number ∧ ∃ e ∈ targets, e.id = b.entry
             (headGone → u = made.pump.examineHead) ∧ (¬ headGone → u = made.settle)) ∧
            u.seq.bold = s.seq.bold ∧ u.seq.underline = s.seq.underline ∧
            u.spell.isOn = s.spell.isOn ∧ u.alert.silence = s.alert.silence ∧
            u.lines.hold = s.lines.hold ∧
            (∃ l', u.lines.find l.number = some l' ∧
              l'.entries.map Entry.shape = (s.correctedLine l targets).entries.map Entry.shape ∧
              ∀ x ∈ l'.live, ∀ e ∈ targets, x.id ≠ e.id) ∧
            u.lines.cursor = s.correctedCursor l targets
              (if reopen then l.live.length else s.lines.cursor) ∧
            (reopen = false → u.esc = s.esc) ∧
            (reopen = true → u.lines.current.number = l.number ∧
              u.lines.ring.map (·.number) = s.lines.ring.dropLast.map (·.number) ∧
              u.esc.paperOffset = l.offset ∧ u.esc.tabs = s.esc.tabs) ∧
            u.wheel = s.wheel ∧ u.seq.impression = s.seq.impression))
    (k.code = 9 → corrects .correct (s.chooseAround false)) ∧
    (k.code = 10 → corrects .wordCorrect (s.chooseAround true)) ∧
    (k.code = 11 → corrects .spellCorrect s.chooseFlagged)) ∧
  (∀ (s : State) (reopen : Bool) (l : Line) (targets : List Entry),
    let lifts (e : Entry) : Nat :=
      if e.strike = some .queued ∨ e.strike = some .struck then
        e.done + if s.inExecution l.number e.id then 1 else 0
      else 0
    let count := (targets.map lifts).sum
    let first := targets.head?.map (·.id)
    let inside := l.live.getLast?.map (·.id) ≠ targets.getLast?.map (·.id)
    let deletion := s.lines.viewDepth = 0 ∧ l.mode = .hold ∧
      ∀ e ∈ l.live.dropWhile fun e => first ≠ some e.id, e.strike ≠ some .queued ∧ e.strike ≠ some .struck
    let afterGap := ∃ g, (l.live.takeWhile fun e => first ≠ some e.id).getLast? = some g ∧ g.kind = .gap
    let remaining := l.entries.filter fun e => ¬ (lifts e = 0 ∧ ∃ x ∈ targets, x.id = e.id)
    let limit :=
      if l.owner = .keyboard ∧ s.esc.marginRelease = true then s.esc.platen else s.esc.right
    let ending := (s.correctedLine l targets).endPoint
    let noWheel := 1 ≤ count ∧ s.wheel.mounted = none
    let mismatch := ∃ e ∈ targets, lifts e ≠ 0 ∧
      ∃ c g b, e.kind = .char c g b ∧ s.wheel.mounted ≠ some g
    let noTape := s.corr.tape - s.corr.reserved < count
    let noPlace := inside ∧ ¬ deletion ∧ ¬ afterGap ∧ (160 ≤ remaining.length ∨ 255 < l.nextId)
    let passes := deletion ∧ l.endPoint < ending ∧ limit < ending
    let tooMany := 48 < count + if reopen = true then 1 else 0
    let fails (m : Message) : Prop := s.checkFails reopen l targets = some m
    (noWheel → fails .noWheel) ∧ (¬ noWheel → mismatch → fails .wheelMismatch) ∧
    (¬ noWheel → ¬ mismatch →
      (noTape → fails .tapeEmpty) ∧ (¬ noTape → noPlace ∨ passes → fails .lineFull) ∧
      (¬ noTape → ¬ noPlace → ¬ passes →
        (tooMany → fails .tooManyLifts) ∧
        (¬ tooMany → s.checkFails reopen l targets = none)))) ∧
  (∀ (s : State) (reopen : Bool) (l : Line) (targets : List Entry),
    let lifts (e : Entry) : Nat :=
      if e.strike = some .queued ∨ e.strike = some .struck then
        e.done + if s.inExecution l.number e.id then 1 else 0
      else 0
    let family (e : Entry) : Family :=
      match e.kind with
      | .char _ f _ => f
      | _ => s.wheel.mounted.getD .f1
    s.correctionActions reopen l targets =
      (if reopen = true then [.feed (signedDiff l.offset s.lines.current.offset) l.endPoint] else []) ++
        targets.flatMap fun e =>
          (List.range (lifts e)).map fun i => .lift (s.liftedBlow l.number e i) (family e)) ∧
  (∀ (s : State) (line : Word) (e : Entry) (i : Nat),
    let a := e.advance
    let uw := e.underscore.getD 0
    let n := min 180 ((a + uw - 1) / uw)
    let underscores : List Nat :=
      if a < uw then [e.start]
      else (List.range (n - 1)).map (fun j => e.start + j * uw) ++ [e.start + a - uw]
    let strikes : List Blow :=
      (match e.kind with
        | .char c _ bold => ⟨line, e.id, i, c, e.start, false, false⟩ ::
            if bold = true then [⟨line, e.id, i, c, e.start + 1, true, false⟩] else []
        | _ => []) ++
      if e.underline = true then underscores.map fun p => ⟨line, e.id, i, 95, p, false, true⟩ else []
    let b := s.liftedBlow line e i
    (e.blows line)[i]? = strikes[i]? ∧ (∀ x, strikes[i]? = some x → b = x) ∧
    (strikes[i]? = none → b = { b with
      line := line, entry := e.id, sub := i, code := 95, boldSecond := false, underscore := true } ∧
      b.position ≤ s.esc.platen)) ∧
  (∀ (s : State) (line : Word) (targets : List Entry),
    let strikes (a : Action) : Bool :=
      match a with
      | .strike b => b.line == line && targets.any (·.id == b.entry)
      | _ => false
    let queue := s.withdrawnQueue line targets
    (s.seq.queue = [] → queue = []) ∧
    (∀ a others, s.seq.queue = a :: others →
      (s.seq.headStarted = true → queue = a :: others.filter (!strikes ·)) ∧
      (s.seq.headStarted = false → queue = (a :: others).filter (!strikes ·)))) ∧
  (∀ (s : State) (reopen : Bool) (l : Line) (targets : List Entry),
    let v := s.withdrawn reopen l targets
    let base : LineStore :=
      if reopen = true then { s.lines with current := l, ring := s.lines.ring.dropLast } else s.lines
    let changed := base.updateLine l.number fun _ => s.correctedLine l targets
    v.seq = { s.seq with queue := s.withdrawnQueue l.number targets } ∧
    v.lines.current = changed.current ∧ v.lines.ring = changed.ring ∧ v.wheel = s.wheel ∧
    v = { s with seq := v.seq, lines := v.lines, esc := v.esc, disp := v.disp } ∧
    v.lines = { s.lines with
      current := v.lines.current, ring := v.lines.ring, mark := v.lines.mark
      cursor := s.correctedCursor l targets (if reopen = true then l.live.length else s.lines.cursor)
      viewDepth := if reopen = true then 0 else s.lines.viewDepth } ∧
    v.disp = { s.disp with
      window := windowFor (if reopen = true then windowFor 0 l.live.length else s.disp.window)
        v.lines.cursor } ∧
    v.esc = (if reopen = true then { s.esc with
      paperOffset := l.offset, bellRung := decide (s.esc.right < l.endPoint + 60) } else s.esc) ∧
    (∀ m, s.lines.mark = none ∨ (s.lines.mark = some m ∧ m.place = .finalFeed) →
      v.lines.mark = s.lines.mark) ∧
    ∀ m id sub, s.lines.mark = some m → m.place = .action id sub →
      let stays := ∃ x e, changed.find m.line = some x ∧ x.entry? id = some e ∧ e.live = true
      (stays → v.lines.mark = some m) ∧
      (¬ stays → m.final = none → v.lines.mark = none) ∧
      (¬ stays → ∀ x, changed.find m.line = some x → m.final ≠ none →
        (∀ before e after, x.entries = before ++ e :: after → e.strike = some .held →
          (∀ y ∈ before, y.strike ≠ some .held) →
          v.lines.mark = some { m with place := .action e.id 0 }) ∧
        ((∀ e ∈ x.entries, e.strike ≠ some .held) →
          v.lines.mark = some { m with place := .finalFeed }))) ∧
  ∀ (s : State) (l : Line) (before targets after : List Entry),
    l.live = before ++ targets ++ after → targets ≠ [] → (∀ e ∈ targets, e.kind ≠ .gap) →
    (l.entries.map (·.id)).Nodup → (∀ e ∈ l.entries, e.id < l.nextId) →
    (∀ i a b, l.live[i]? = some a → l.live[i + 1]? = some b → a.kind = .gap → b.kind ≠ .gap) →
    (∀ e, l.live.getLast? = some e → e.kind ≠ .gap) →
    let lifted (e : Entry) : Prop := (e.strike = some .queued ∨ e.strike = some .struck) ∧
      (0 < e.done ∨ s.inExecution l.number e.id = true)
    let deletion := s.lines.viewDepth = 0 ∧ l.mode = .hold ∧
      ∀ e ∈ targets ++ after, e.strike ≠ some .queued ∧ e.strike ≠ some .struck
    let isGap (e : Entry) : Bool := e.kind == .gap
    let left := if (before.getLast?.any isGap) = true then before.dropLast else before
    let right := if (after.head?.any isGap) = true then after.tail else after
    let width := (targets.map (·.advance)).sum + ((after.head?.filter isGap).map (·.advance)).getD 0
    let u := s.correctedLine l targets
    u = { l with entries := u.entries, nextId := u.nextId } ∧
    (∀ e ∈ targets, (lifted e → { e with strike := some .lifting } ∈ u.entries) ∧
      (¬ lifted e → ∀ x ∈ u.entries, x.id ≠ e.id)) ∧
    (deletion → (before.getLast?.any isGap) = false ∨ (after.head?.any isGap) = false →
      u.live = relayout s.esc.tabs s.wheel.mounted l.start
        (if after = [] then left else before ++ after) ∧ u.nextId = l.nextId) ∧
    (deletion → ∀ g h, before.getLast? = some g → g.kind = .gap → after.head? = some h →
      h.kind = .gap → u.live = relayout s.esc.tabs s.wheel.mounted l.start
        (left ++ { g with advance := g.advance + h.advance } :: right) ∧ u.nextId = l.nextId) ∧
    (deletion → after ≠ [] →
      let n := before.length
      let gone := targets.length +
        if (before.getLast?.any isGap) = true ∧ (after.head?.any isGap) = true then 1 else 0
      ∀ c ≤ l.live.length, s.correctedCursor l targets c =
        if c ≤ n then c else if c ≤ n + gone then n else c - gone) ∧
    (deletion → after = [] → ∀ c, s.correctedCursor l targets c = min c left.length) ∧
    (¬ deletion → after = [] → u.live = left ∧ u.nextId = l.nextId ∧
      ∀ c, s.correctedCursor l targets c = min c left.length) ∧
    (¬ deletion → after ≠ [] →
      (∀ c, s.correctedCursor l targets c = left.length) ∧
      (∀ g, before.getLast? = some g → g.kind = .gap → u.nextId = l.nextId ∧
        u.live = left ++ { g with advance := g.advance + width } :: right) ∧
      ((∀ g, before.getLast? = some g → g.kind ≠ .gap) → u.nextId = l.nextId + 1 ∧
        ∀ e, targets.head? = some e → u.live = left ++
          ⟨l.nextId, .gap, e.start, width, false, none, 0, 0, none, none⟩ :: right))

/-! ### Jobs and text (Chapter 2) -/

/-- O38. STOP JOB (R38, R99): refused when no source owns the line or its job is ENDING, waiting while the
line to be committed must, and otherwise the line is committed as it stands, into the newest end of the
ring, if it has live entries, the block is discarded, the job id is the stopped job, the source's ownership
ends, and a REPORT carries the stopped job id: the one that waits, or, while a REPORT is on the line, the
one held for after it (R22, R23); the frame on the line is one of those queued. After a key the ownership is
decided as O18 says, also when the keyboard's role is lost (R40). -/
def Obligations.StopJobKey : Prop :=
  ∀ (s : State) (k : Keystroke) (rest : List Keystroke), s.HeadKey k rest → s.machine ≠ .halted →
    k.code = 29 →
    (s.intake.owner.source = none → ∃ t, exec .stopJob s = .next t ∧
      KeyLeaves (s.refusedAs k rest none) t) ∧
    (∀ n, s.intake.owner = ownerOf n →
      let r := s.intake.src n
      let empty := s.lines.current.live = []
      (∀ id last, r.job = .ending id last → exec .stopJob s = .next (s.refusedAs k rest none)) ∧
      (∀ id last, r.job = .opened id last → ¬ empty → s.lineFeeding = true →
        exec .stopJob s = .next s) ∧
      (∀ id last, r.job = .opened id last → empty ∨ s.lineFeeding = false →
        let reports (stop1 stop2 : Option Nat) : Prop :=
          (n = .source1 → stop1 = some id) ∧ (n = .source2 → stop2 = some id)
        let onLine := ∃ i old, s.bus.sending = some i ∧ s.bus.queue[i]? = some (.report old)
        ∃ t, exec .stopJob s = .next t ∧ t.intake.keys = rest ∧
          t.intake.src n =
            { r with slot := none, idleRunning := false, stoppedJob := id, job := .idle } ∧
          t.intake.owner ≠ ownerOf n ∧
          (empty → t.lines.current.entries = s.lines.current.entries) ∧
          (¬ empty → t.lines.current.number = s.lines.nextLine ∧ t.lines.current.entries = []) ∧
          (¬ empty → s.lines.ring.length ≤ 3 → CommitsLine s t) ∧
          (s.bus.conflict = false → s.bus.queue.countP OutFrame.isReport ≤ 1 →
            (∀ i, s.bus.sending = some i → i < s.bus.queue.length) →
            (¬ onLine → ∃ new, OutFrame.report new ∈ t.bus.queue ∧
              reports new.stopped1 new.stopped2) ∧
            (onLine → ∃ c, t.bus.heldReport = some c ∧ reports c.stopped1 c.stopped2)) ∧
          s.seq.queue <+: t.seq.queue ∧ t.corr = s.corr ∧ t.esc.marginRelease = s.esc.marginRelease))

/-- O39. The six rows of text (R42, R43, R44, R69 to R71, R89) while the block has further characters: an
attribute changes, a code is skipped, an entry that fits is appended HELD or plain with the job's attributes
and nothing enqueued, a RETURN commits the line. Every change segments the line, and the words it closes are
handed (R108, R110). An entry that passes the right limit, and one that the line has no place or id for,
commits the line, its trailing SPACEs and GAPs dropped (logs 18, 48 and 55): a CHAR wraps with the run it
can carry, and without such a run (the empty run of an empty line is none, log 40), or for want of a place,
the line breaks and the entry begins the next line under the same owner; a SPACE or MOVE that passes is
dropped. The right limit decides before the want of a place (log 19). What commits the line waits while
another line is feeding and while a STOP JOB at the head goes first (log 25). The last character of a block
(R35), whatever its code: it does, and waits, as it would with one more character behind it, and then the
slot becomes empty; without LAST the job stays OPEN with its idle expiry running; with LAST it is ENDING and
closes as by JOB_CLOSE. On a skipped code: it closes, its line committed if it has live entries, or is
ENDING while that commit waits. -/
def Obligations.TextCharacters : Prop :=
  (∀ (s : State) (n : SourceNo) (h : HeldBlock) (code : Nat) (f : Family),
    s.TextDue n h code → s.wheel.mounted = some f → h.next + 1 < h.block.codes.length →
    let r := s.intake.src n
    let l := s.lines.current
    let p := s.typingPoint
    let limit :=
      if l.owner = .keyboard ∧ s.esc.marginRelease = true then s.esc.platen else s.esc.right
    let slot : Option HeldBlock := some { h with next := h.next + 1 }
    let passed : Intake := s.intake.mapSrc n fun r => { r with slot := slot }
    let possible := l.entries.length < 160 ∧ l.nextId ≤ 255
    let stopFirst := s.intake.keys.head?.map (·.code) = some 29
    let commits := s.lineFeeding = false ∧ ¬ stopFirst
    let left := s.esc.left
    let justified (remaining : List Entry) : List Entry :=
      (justifyLine s.esc.justify s.esc.right (some f) { l with entries := trimLine remaining }).entries
    let opens (i : Instr) (committed : List Entry) (begins : List Entry) (next : Nat) : Prop :=
      ∃ t, exec i s = .next t ∧ t.intake = passed ∧ t.lines.current.number = s.lines.nextLine ∧
        t.lines.current.owner = l.owner ∧ t.lines.current.start = left ∧
        t.lines.current.offset = l.offset + BitVec.ofNat 16 s.esc.spacing ∧
        t.lines.current.entries.map Entry.shape = begins.map Entry.shape ∧
        (s.lines.nextLine ≠ l.number →
          t.lines.current.entries.map Entry.bare = begins.map Entry.bare) ∧
        t.lines.current.nextId = next ∧ t.lines.cursor = begins.length ∧
        t.disp.window = windowFor 0 begins.length ∧ FeedsCommitted s t committed ∧
        (s.lines.ring.length ≤ 3 → ∃ x, t.lines.ring.getLast? = some x ∧ x.number = l.number ∧
          x.state = .committed ∧ x.entries.map Entry.shape = committed.map Entry.shape) ∧
        (s.lines.ring.length ≤ 3 → t.wordView =
          ((s.lineClosed committed begins).resegment s.lines.nextLine).wordView) ∧
        t.spell.isOn = s.spell.isOn ∧ t.alert.silence = s.alert.silence ∧
        t.lines.hold = s.lines.hold ∧
        s.seq.queue <+: t.seq.queue ∧ t.corr = s.corr ∧
        t.esc.marginRelease = s.esc.marginRelease ∧ t.esc.tabs = s.esc.tabs
    let appends (i : Instr) (kind : EntryKind) (advance : Nat) : Prop :=
      (p + advance ≤ limit → possible →
        ∃ t, exec i s = .next t ∧ t.intake = passed ∧
          t.lines.current.entries.map Entry.bare =
            (l.entries ++ [newEntry l.nextId kind p advance r.underline]).map Entry.bare ∧
          (let n := l.live.length + 1
           let made := State.rungAt { s with
             intake := passed
             lines := { s.lines with
               current := { l with
                 entries := l.entries ++ [newEntry l.nextId kind p advance r.underline]
                 nextId := l.nextId + 1 }
               cursor := n }
             disp := { s.disp with window := windowFor s.disp.window n } } (p + advance)
           t = made.resegment l.number) ∧
          t.lines.current.nextId = l.nextId + 1 ∧ t.seq = s.seq ∧ t.corr = s.corr ∧
          t.esc.tabs = s.esc.tabs ∧ t.alert.silence = s.alert.silence) ∧
      (limit < p + advance ∨ ¬ possible → ¬ commits → exec i s = .next s)
    let breaks (i : Instr) (kind : EntryKind) (advance : Nat) : Prop :=
      opens i (trimLine l.entries) [newEntry 0 kind left advance r.underline] 1
    let runs (code w : Nat) : Prop :=
      let kind : EntryKind := .char code f r.bold
      let run := l.carriedRun.1
      let place := left + (run.map (·.advance)).sum
      let carried := run.length < l.live.length ∧
        (∀ e ∈ run, e.strike = some .held ∧ e.id < 255) ∧ place + w ≤ limit
      let next := carriedNextId run
      appends .textCharacter kind w ∧
      (commits → p + w ≤ limit → ¬ possible → breaks .textCharacter kind w) ∧
      (commits → limit < p + w → carried → opens .textCharacter
        (justified l.carriedRun.2) (shiftFrom left run ++ [newEntry next kind place w r.underline])
        (next + 1)) ∧
      (commits → limit < p + w → ¬ carried → breaks .textCharacter kind w)
    let moves (i : Instr) (kind : EntryKind) (advance first : Nat) : Prop :=
      appends i kind advance ∧
      (commits → p + advance ≤ limit → ¬ possible → breaks i kind first) ∧
      (commits → limit < p + advance → opens i (justified l.entries) [] 0)
    (code = 20 → exec .textBold s = .next { s with
      intake := s.intake.mapSrc n fun r => { r with bold := !r.bold, slot := slot } }) ∧
    (code = 21 → exec .textUnderline s = .next { s with
      intake := s.intake.mapSrc n fun r => { r with underline := !r.underline, slot := slot } }) ∧
    ((code < 32 ∧ code ≠ 1 ∧ code ≠ 2 ∧ code ≠ 8 ∧ code ≠ 20 ∧ code ≠ 21) ∨ 159 < code →
      exec .textCharacter s = .next { s with intake := passed }) ∧
    (32 ≤ code → code ≤ 159 → ∀ w, f.width code = some w → runs code w) ∧
    (32 ≤ code → code ≤ 159 → f.width code = none →
      moves .textCharacter .space f.spaceWidth f.spaceWidth) ∧
    (code = 8 → moves .textHalfSpace .halfSpace f.halfSpaceWidth f.halfSpaceWidth) ∧
    (code = 2 → ∀ d first, holdTabAdvance s.esc.tabs (some f) p = some d →
      holdTabAdvance s.esc.tabs (some f) left = some first → moves .textTab (.tab false) d first) ∧
    (code = 1 →
      (¬ commits → exec .textReturn s = .next s) ∧
      (commits → ∃ t, exec .textReturn s = .next t ∧
        t.intake = passed ∧ t.lines.current.number = s.lines.nextLine ∧
        t.lines.current.entries = [] ∧ t.lines.current.owner = l.owner ∧
        (s.lines.ring.length ≤ 3 → CommitsLine s t) ∧
        t.esc.marginRelease = false ∧ s.seq.queue <+: t.seq.queue))) ∧
  (∀ (s t : State) (n : SourceNo) (h : HeldBlock) (code : Nat) (i : Instr),
    s.TextDue n h code → h.next + 1 = h.block.codes.length →
    i ∈ [.textCharacter, .textReturn, .textTab, .textHalfSpace, .textBold, .textUnderline] →
    let longer : HeldBlock := { h with block := { h.block with codes := h.block.codes ++ [0] } }
    let more : State := { s with intake := s.intake.mapSrc n fun r => { r with slot := some longer } }
    exec i more = .next t →
    let emptied (f : SourceIntake → SourceIntake) : State :=
      { t with intake := t.intake.mapSrc n fun r => { f r with slot := none } }
    ((t.intake.src n).slot = some longer ∨
      (t.intake.src n).slot = some { longer with next := h.next + 1 }) ∧
    ((t.intake.src n).slot = some longer → exec i s = .next s) ∧
    ((t.intake.src n).slot = some { longer with next := h.next + 1 } →
      ∀ id last, (s.intake.src n).job = .opened id last →
      (h.block.last = false →
        exec i s = .next (emptied fun r => { r with idleRunning := true })) ∧
      (h.block.last = true → (∀ m a b, (s.intake.src m).job ≠ .ending a b) →
        exec i s = exec .jobClose
          (emptied fun r => { r with job := .ending id last, idleRunning := false })))) ∧
  ∀ (s : State) (n : SourceNo) (h : HeldBlock) (id last : Nat),
    s.TextDue n h 0 → h.next + 1 = h.block.codes.length →
    (s.intake.src n).job = .opened id last →
    let live := s.lines.current.live
    let closed : SourceIntake := { s.intake.src n with
      slot := none, idleRunning := false, job := .idle, closedJob := some (id, last) }
    (h.block.last = false → exec .textCharacter s = .next { s with
      intake := s.intake.mapSrc n fun r => { r with slot := none, idleRunning := true } }) ∧
    (h.block.last = true → live = [] → ∃ t, exec .textCharacter s = .next t ∧
      t.intake.src n = closed ∧ t.intake.owner ≠ ownerOf n ∧
      t.lines.current.entries = s.lines.current.entries ∧ t.seq = s.seq) ∧
    (h.block.last = true → live ≠ [] → s.lineFeeding = true →
      exec .textCharacter s = .next { s with intake := s.intake.mapSrc n fun r =>
        { r with slot := none, idleRunning := false, job := .ending id last } }) ∧
    (h.block.last = true → live ≠ [] → s.lineFeeding = false → s.lines.ring.length ≤ 3 →
      ∃ t, exec .textCharacter s = .next t ∧ t.intake.src n = closed ∧
        t.intake.owner ≠ ownerOf n ∧ CommitsLine s t)

/-- O40. JOB_IDLE_EXPIRY and JOB_CLOSE (R35, R36): a job that ends commits its line, into the newest end
of the ring, unless it has no live entries, waits as ENDING while another line is feeding, and then is
recorded as the closed job with its source's ownership at an end. The expiry is held in POWER-WARN. A
source that leaves, or whose ROLL has changed (R17, R19, R37): its record is LOST, or LATE with no role;
its block is discarded and its idle expiry stops; an open job that does not own the line ends
unrecorded; one that does ends as above; an ENDING job goes on. -/
def Obligations.JobsClose : Prop :=
  (∀ (s : State) (n : SourceNo) (id last : Nat), s.stopped = false →
    (s.intake.src n).slot = none → s.intake.owner = ownerOf n →
    let r := s.intake.src n
    let empty := s.lines.current.live = []
    let closes (i : Instr) : Prop :=
      ∃ t, exec i s = .next t ∧
        t.intake.src n = { r with
          job := .idle, closedJob := some (id, last)
          idleRunning := if i = .jobClose then r.idleRunning else false } ∧
        t.intake.owner ≠ ownerOf n ∧ t.intake.keys = s.intake.keys ∧
        (∃ u : State, u.intake.owner = ownerOf n ∧ OwnershipOnly u t) ∧
        (empty → t.lines.current.entries = s.lines.current.entries) ∧
        (¬ empty → t.lines.current.number = s.lines.nextLine ∧ t.lines.current.entries = []) ∧
        (¬ empty → s.lines.ring.length ≤ 3 → CommitsLine s t) ∧
        s.seq.queue <+: t.seq.queue ∧ t.corr = s.corr
    (r.idleRunning = true → r.job = .opened id last →
      (s.supply.power = .powerWarn → exec (.jobIdleExpiry n) s = .next s) ∧
      (s.supply.power ≠ .powerWarn → empty ∨ s.lineFeeding = false → closes (.jobIdleExpiry n)) ∧
      (s.supply.power ≠ .powerWarn → ¬ empty → s.lineFeeding = true →
        exec (.jobIdleExpiry n) s = .next { s with
          intake := s.intake.mapSrc n fun r =>
            { r with job := .ending id last, idleRunning := false } })) ∧
    (r.job = .ending id last → (∀ m a b, (s.intake.src m).job = .ending a b → m = n) →
      (empty ∨ s.lineFeeding = false → closes .jobClose) ∧
      (¬ empty → s.lineFeeding = true → exec .jobClose s = .next s))) ∧
  ∀ (s : State) (n : SourceNo) (sender : StationNo) (kind first second : Nat) (r' : Station),
    s.stopped = false → s.bus.conflict = false → s.bus.window = .closed → sender ≠ s.bus.own →
    rollFieldsOk kind first second = true → Vacates s.bus.table[sender] kind first second r' →
    let role : Role :=
      match n with
      | .source1 => .source1
      | .source2 => .source2
    s.bus.table[sender].status = .adopted → s.bus.table[sender].role = some role →
    (∀ m, s.bus.table[m].role = some role → m = sender) →
    let r := s.intake.src n
    let gone : SourceIntake := { r with slot := none, idleRunning := false }
    let empty := s.lines.current.live = []
    let u (x : SourceIntake) : State := { s with
      intake := s.intake.mapSrc n fun _ => x
      bus := { s.bus with
        answer := .absent
        table := s.bus.table.set sender r' } }
    let leaves (t : State) : Prop := exec (.roll sender kind first second) s = .next t
    (r.job = .idle → leaves (u gone)) ∧
    (∀ id last, r.job = .ending id last → leaves (u gone)) ∧
    (∀ id last, r.job = .opened id last →
      (s.intake.owner ≠ ownerOf n → leaves (u { gone with job := .idle })) ∧
      (s.intake.owner = ownerOf n → ¬ empty → s.lineFeeding = true →
        leaves (u { gone with job := .ending id last })) ∧
      (s.intake.owner = ownerOf n → empty ∨ s.lineFeeding = false →
        ∃ t, leaves t ∧ t.intake.src n = { gone with job := .idle, closedJob := some (id, last) } ∧
          t.intake.owner ≠ ownerOf n ∧ t.bus.table = (u gone).bus.table ∧
          (∃ v : State, v.intake.owner = ownerOf n ∧ OwnershipOnly v t) ∧
          (empty → t.lines.current.entries = s.lines.current.entries) ∧
          (¬ empty → s.lines.ring.length ≤ 3 → CommitsLine s t)))

/-- O41. KEYBOARD_LAPSE (R40, R41): a keyboard that owns an empty displayed line, or whose role is lost,
with no printing or line key in its queue, gives the line up to the first source that claims it, and the
owner field of the current line with it (log 16); a lost keyboard's entries are committed first, into the
newest end of the ring, and before that a view of a ring line returns as RELOCATE does, once there is room;
a keyboard with a use for the line keeps it, one that has returned among them (log 17). A key that is
consumed ends in the same lapse (O18). A keyboard that leaves, or whose ROLL has changed (R17, R19): its
record is LOST, or LATE with no role, NO KEYBOARD is shown, and the lapse is made at once as KEYBOARD_LAPSE
makes it; from a LOST keyboard such a ROLL changes the record and nothing else, and the same ROLL again ends
NO KEYBOARD and nothing else. -/
def Obligations.KeyboardLapses : Prop :=
  (∀ s : State, s.stopped = false →
    let work := ∃ k ∈ s.intake.keys, claimsLine k.code = true
    let next : Owner :=
      if s.intake.src1.slot.isSome then .source1
      else if s.intake.src2.slot.isSome then .source2 else .none
    let empty := s.lines.current.entries = []
    (s.intake.owner ≠ .keyboard ∨ work → exec .keyboardLapse s = .next s) ∧
    (s.intake.owner = .keyboard → ¬ work → empty → s.lines.viewDepth = 0 →
      ∃ t, exec .keyboardLapse s = .next t ∧ OwnershipOnly s t ∧ t.intake.owner = next ∧
        t.lines.current.owner = next) ∧
    (s.intake.owner = .keyboard → ¬ work → ¬ empty → s.lines.viewDepth = 0 →
      (s.bus.usable .keyboard = true ∨ s.lineFeeding = true →
        exec .keyboardLapse s = .next s) ∧
      (s.bus.usable .keyboard = false → s.lineFeeding = false →
        ∃ t, exec .keyboardLapse s = .next t ∧ t.intake.owner = next ∧
          (∃ u : State, u.intake.owner = .keyboard ∧ OwnershipOnly u t) ∧
          t.lines.current.number = s.lines.nextLine ∧ t.lines.current.entries = [] ∧
          (s.lines.ring.length ≤ 3 → CommitsLine s t) ∧
          t.intake.keys = s.intake.keys ∧ s.seq.queue <+: t.seq.queue)) ∧
    (s.intake.owner = .keyboard → ¬ work → s.lines.viewDepth ≠ 0 →
      let n := s.lines.current.live.length
      let feed : Action :=
        .feed (signedDiff s.lines.current.offset s.lines.displayed.offset) s.cursorPoint
      let returned : State := ({ s with
        lines := { s.lines with viewDepth := 0, cursor := n }
        disp := { s.disp with window := windowFor 0 n } }.enqueue
          [feed, .move s.typingPoint]).settle
      (s.bus.usable .keyboard = true ∨ s.room < 2 → exec .keyboardLapse s = .next s) ∧
      (s.bus.usable .keyboard = false → 2 ≤ s.room →
        (empty → ∃ t, exec .keyboardLapse s = .next t ∧ OwnershipOnly returned t ∧
          t.intake.owner = next ∧ t.lines.current.owner = next) ∧
        (¬ empty → returned.lineFeeding = false →
          ∃ t, exec .keyboardLapse s = .next t ∧ t.intake.owner = next ∧
            (∃ u : State, u.intake.owner = .keyboard ∧ OwnershipOnly u t) ∧
            t.lines.viewDepth = 0 ∧ t.lines.current.number = s.lines.nextLine ∧
            t.lines.current.entries = [] ∧
            (s.lines.ring.length ≤ 3 → CommitsLine returned t) ∧
            returned.seq.queue <+: t.seq.queue)))) ∧
  ∀ (s : State) (sender : StationNo), s.stopped = false → s.bus.conflict = false →
    s.bus.window = .closed → sender ≠ s.bus.own → s.bus.table[sender].role = some .keyboard →
    (∀ m, s.bus.table[m].role = some .keyboard → m = sender) →
    let r := s.bus.table[sender]
    let told (r' : Station) (lost : Bool) : State := { s with
      bus := { s.bus with answer := .absent, table := s.bus.table.set sender r' }
      disp := { s.disp with standing := { s.disp.standing with noKeyboard := lost } } }
    (∀ kind first second r', rollFieldsOk kind first second = true →
      Vacates r kind first second r' →
      (r.status = .adopted →
        exec (.roll sender kind first second) s = exec .keyboardLapse (told r' true)) ∧
      (r.status = .lost → exec (.roll sender kind first second) s =
        .next (told r' s.disp.standing.noKeyboard))) ∧
    (∀ kind, r.status = .lost → rollFieldsOk kind r.ability1 r.ability2 = true →
      stationKindOf kind = some .keyboard → r.kind = some .keyboard →
      exec (.roll sender kind r.ability1 r.ability2) s =
        .next (told { r with status := .adopted, unanswered := 0 } false))

/-! ### The mechanism (Chapters 3, 6 and 7) -/

/-- O42. The examination of the head (R117): not while work is in execution, PARKED or HALTED; otherwise
the first case that holds decides. A change of the mechanism state changes the panel's pause and wheel
conditions with it, and triggers a REPORT exactly when the machine state changes (R22, R118; while a
start's load waits the first REPORT is the one that the roll call enqueues, log 34). A trigger (R22, R23):
in CONFLICT nothing; with no REPORT queued a new one joins at the newest end; one that waits is replaced
in its place and hands on what it carried; while one is on the line the trigger is held. A REPORT carries
the state as it stands. -/
def Obligations.HeadExamined : Prop :=
  (∀ s : State,
    let t := s.examineHead
    (s.seq.work ≠ none ∨ s.seq.mech = .parked ∨ s.seq.mech = .halted → t = s) ∧
    (s.seq.work = none → s.seq.mech ≠ .parked → s.seq.mech ≠ .halted →
      (s.pins.coverOpen = true → t = s.setMech .paused (some .cover) none) ∧
      (s.pins.coverOpen = false → s.seq.hold = true → t = s.setMech .idle none none) ∧
      (s.pins.coverOpen = false → s.seq.hold = false →
        (s.seq.readDue = true → t.seq = { s.seq with work := some .wheelRead, mech := .running }) ∧
        (s.seq.readDue = false → s.seq.queue = [] → t = s.setMech .idle none none) ∧
        (s.seq.readDue = false → ∀ a q, s.seq.queue = a :: q →
          let starts (d : Option Drive) : Prop := t.seq = { s.seq with
            work := some (.action d), headStarted := true, mech := .running }
          (∀ b, a = .strike b →
            (s.wheel.mounted = none → t = s.setMech .waitingWheel none (some .noWheel)) ∧
            (∀ f, s.wheel.mounted = some f →
              (f.carries b.code = false →
                t = s.setMech .waitingWheel none (some (.code b.code))) ∧
              (f.carries b.code = true → s.wheel.ribbon = .out →
                t = s.setMech .paused (some .ribbon) none) ∧
              (f.carries b.code = true → s.wheel.ribbon ≠ .out →
                starts (some (s.seq.drive f b.code
                  (strikePulse s.seq.impression s.wheel.ribbon b)))))) ∧
          (∀ b g, a = .lift b g →
            (s.wheel.mounted = none → t = s.setMech .waitingWheel none (some .noWheel)) ∧
            (∀ f, s.wheel.mounted = some f →
              (f ≠ g → t = s.setMech .waitingWheel none (some (.family g))) ∧
              (f = g → starts (some (s.seq.drive g b.code (liftPulse s.seq.impression b)))))) ∧
          ((∃ x, a = .move x) ∨ (∃ d x, a = .feed d x) → starts none)))) ∧
    ∀ m pause need,
      let u := s.setMech m pause need
      let v : State := { s with
        seq := { s.seq with mech := m }
        disp := { s.disp with standing := { s.disp.standing with pause := pause, wheel := need } } }
      (v.machine = s.machine ∨ s.store.loadWaits = true → u = v) ∧
      (v.machine ≠ s.machine → s.store.loadWaits = false → u = v.triggerReport .plain)) ∧
  ∀ (s : State) (c : ReportCause),
    let report (tape : Bool) (start : Option StartCause) (stop1 stop2 : Option Nat) : OutFrame :=
      .report ⟨s.machine, s.intake.owner, if s.machine = .halted then s.seq.haltCause else none,
        if s.corr.tape ≤ 50 ∨ tape = true then some s.corr.tape else none, start, stop1, stop2, tape⟩
    let later (new old : Option Nat) : Option Nat := if new = none then old else new
    let b := s.bus
    (b.conflict = true → s.triggerReport c = s) ∧
    (b.conflict = false → (∀ f ∈ b.queue, f.isReport = false) →
      s.triggerReport c = { s with
        bus := { b with queue := b.queue ++ [report c.tape none c.stopped1 c.stopped2] } }) ∧
    (b.conflict = false → ∀ before old after, b.queue = before ++ .report old :: after →
      (∀ f ∈ before, f.isReport = false) →
      (b.sending ≠ some before.length →
        let merged := report (old.tapeTold || c.tape) old.start
          (later c.stopped1 old.stopped1) (later c.stopped2 old.stopped2)
        s.triggerReport c = { s with bus := { b with queue := before ++ merged :: after } }) ∧
      (b.sending = some before.length →
        let held := b.heldReport.getD ⟨false, none, none⟩
        s.triggerReport c = { s with bus := { b with
          heldReport := some ⟨held.tape || c.tape, later c.stopped1 held.stopped1,
            later c.stopped2 held.stopped2⟩ } }))

/-- O43. The turn of the wheel (R122): the shorter way round, forward by 48; it brings the target petal
to the print point, and a distance of 0 needs no turn. -/
def Obligations.TurnGoesTheShorterWay : Prop :=
  ∀ current target : Nat, current < 96 → target < 96 →
    let turn := wheelTurn current target
    let d := (target + 96 - current) % 96
    (d ≤ 48 → turn = ⟨true, d⟩) ∧ (48 < d → turn = ⟨false, 96 - d⟩) ∧
    (current = target → turn.petals = 0) ∧
    turn.petals ≤ 48 ∧ (turn.forward = false → turn.petals < 48) ∧
    (turn.forward = true → (current + turn.petals) % 96 = target) ∧
    (turn.forward = false → (target + turn.petals) % 96 = current)

/-- O44. The hammer pulse (R123) is the multiple of 5 nearest to the exact product of the base and the
percentages that apply, halves up, clamped to 40 to 200; and each code of a wheel stands on one petal,
no petal holding two codes (R51). -/
def Obligations.PulseAndPetal : Prop :=
  (∀ (base : Nat) (percents : List Nat), ∃ m,
    pulseOf base percents = min 200 (max 40 (5 * m)) ∧
    10 * m * 100 ^ percents.length ≤ 2 * (base * percents.prod) + 5 * 100 ^ percents.length ∧
    2 * (base * percents.prod) < 10 * m * 100 ^ percents.length + 5 * 100 ^ percents.length) ∧
  (∀ (impression : Nat) (ribbon : RibbonKind) (b : Blow), 1 ≤ impression → impression ≤ 3 →
    let base :=
      if impactClass b.code = 1 then 60 else if impactClass b.code = 2 then 85
      else if impactClass b.code = 3 then 110 else 135
    let percent := if impression = 1 then 85 else if impression = 2 then 100 else 120
    strikePulse impression ribbon b = pulseOf base
      [percent, if ribbon = .film then 90 else 100, if b.boldSecond = true then 90 else 100] ∧
    liftPulse impression b = pulseOf base [percent, 125]) ∧
  (∀ (f : Family) (code : Nat), f.carries code = true → ∃ p, p < 96 ∧ f.petal code = some p) ∧
  ∀ (f : Family) (c d p : Nat), f.petal c = some p → f.petal d = some p → c = d

/-- O45. The completions of STRIKE, MOVE and FEED (R90, R119, R121): the action leaves the queue, the
carriage and petal stand where it brought them, a strike is counted on its entry, a FEED on the paper
count, and then the state settles: the feeding goes on from the mark (O51), and the head is examined (O42)
unless the mechanism is PAUSED or WAITING-WHEEL. -/
def Obligations.ActionsComplete : Prop :=
  (∀ s : State,
    (s.seq.mech = .paused ∨ s.seq.mech = .waitingWheel → s.settle = s.pump) ∧
    (s.seq.mech ≠ .paused → s.seq.mech ≠ .waitingWheel → s.settle = s.pump.examineHead)) ∧
  ∀ (s : State) (d : Option Drive) (q : List Action), s.stopped = false →
    s.seq.work = some (.action d) →
    let done (x petal : Nat) : State := { s with seq := { s.seq with
      queue := q, work := none, headStarted := false, retry := false, carriage := x, petal := petal } }
    let petal := (d.map (·.petal)).getD s.seq.petal
    let counted (e : Entry) : Entry := { e with
      done := e.done + 1
      strike := if e.strike = some .queued ∧ e.done + 1 = e.total then some .struck else e.strike }
    (∀ b, s.seq.queue = .strike b :: q → exec .strikeComplete s = .next
      (((done b.position petal).updateLine b.line fun l =>
        { l with entries := l.entries.map fun e => if e.id = b.entry then counted e else e }).settle)) ∧
    (∀ x, s.seq.queue = .move x :: q → exec .moveComplete s = .next (done x s.seq.petal).settle) ∧
    (∀ k x, s.seq.queue = .feed k x :: q → exec .feedComplete s = .next
      ({ done x s.seq.petal with seq := { (done x s.seq.petal).seq with
        paperCount := s.seq.paperCount + BitVec.ofInt 16 k } }).settle)

/-- O46. The completion of a LIFT (R120, R138, R152): the tape count and the reserved count fall by one,
and the lift record by one lift; with the last lift of an entry its record goes and the entry is deleted
from its line, and before that no entry leaves. A REPORT is triggered when the count falls from 51 to 50
or to 0. -/
def Obligations.LiftCompletes : Prop :=
  ∀ (s : State) (d : Option Drive) (b : Blow) (f : Family) (q : List Action), s.stopped = false →
    s.seq.work = some (.action d) → s.seq.queue = .lift b f :: q →
    let isRecord (r : LiftRec) : Prop := r.line = b.line ∧ r.entry = b.entry
    let last := ∃ r ∈ s.corr.lifts, isRecord r ∧ r.outstanding = 1
    let shapes (l : Line) := l.entries.map Entry.shape
    ∃ t, exec .liftComplete s = .next t ∧
      t.corr = { s.corr with
        tape := s.corr.tape - 1
        reserved := s.corr.reserved - 1
        lifts := (s.corr.lifts.map fun r =>
          if isRecord r then { r with outstanding := r.outstanding - 1 } else r).filter
            (0 < ·.outstanding) } ∧
      (last → ∀ l, s.lines.find b.line = some l → ∃ l', t.lines.find b.line = some l' ∧
        shapes l' = (l.entries.filter (·.id ≠ b.entry)).map Entry.shape) ∧
      (¬ last → shapes t.lines.current = shapes s.lines.current ∧
        t.lines.ring.map shapes = s.lines.ring.map shapes) ∧
      (s.corr.tape = 51 ∨ s.corr.tape = 1 → s.bus.conflict = false →
        s.bus.queue.all (fun g => !g.isReport) = true → ∃ r, OutFrame.report r ∈ t.bus.queue ∧
          r.tape = some (s.corr.tape - 1)) ∧
      q <+: t.seq.queue ∧ t.seq.carriage = b.position ∧
      t.seq.petal = (d.map (·.petal)).getD s.seq.petal ∧ t.esc = s.esc ∧ t.wheel = s.wheel ∧
      t.intake.keys = s.intake.keys

/-- O47. HOMING_COMPLETE and WHEEL_READ_COMPLETE (R46, R125, R129, R130, R201, R202): the wheel code
gives the mounted family, 0 and 7 none; the petal is 0 and read due clear; a homing leaves the carriage
at 0 and clears the retry mark unless an action is in execution, and a WHEEL-READ leaves the mark
(log 15); the homing of a start or a wake is told to Supply and Standby. -/
def Obligations.HomingAndWheelRead : Prop :=
  ∀ (s : State) (code : Fin 8), s.stopped = false →
    let mounted (t : State) : Prop :=
      (code.val = 0 ∨ code.val = 7 → t.wheel.mounted = none) ∧
      (1 ≤ code.val → code.val ≤ 6 → t.wheel.mounted.map Family.number = some code.val)
    let same (t : State) : Prop :=
      t.wheel.ribbon = s.wheel.ribbon ∧ t.corr = s.corr ∧ t.esc = s.esc ∧ t.intake = s.intake ∧
        t.spell = s.spell ∧ t.store = s.store ∧ s.seq.queue <+: t.seq.queue ∧
        t.seq.paperCount = s.seq.paperCount ∧ t.seq.petal = 0 ∧ t.seq.readDue = false
    (∀ why, s.seq.work = some (.homing why) →
      ∃ t, exec (.homingComplete code) s = .next t ∧ mounted t ∧ same t ∧ t.seq.carriage = 0 ∧
        t.seq.retry = (s.seq.retry && s.seq.headStarted) ∧
        (why = .start → t.supply.homingDone = true ∧
          (s.supply.rollCallDone = true → s.supply.power = .starting →
            t.supply.power = .run ∧ t.disp.panel = .on)) ∧
        (why = .wake → s.supply.power = .standby →
          t.supply = { s.supply with power := .run, wakeMark := false } ∧
          (s.seq.queue = [] → [.move s.cursorPoint] <+: t.seq.queue)) ∧
        (why = .recovery ∨ why = .clear → t.supply = s.supply)) ∧
    (s.seq.work = some .wheelRead →
      ∃ t, exec (.wheelReadComplete code) s = .next t ∧ mounted t ∧ same t ∧
        t.seq.carriage = s.seq.carriage ∧ t.seq.retry = s.seq.retry ∧ t.supply = s.supply)

/-- O48. ACTION_LIMIT_EXPIRY (R130, R131): the first expiry sets the retry mark and homes, a homing of a
start, a wake or a CLEAR once more under its own purpose; an expiry with the mark set halts the
mechanism with the cause of the part not settled, asks for FAULT and shows the halt; the FAULT of a
wake's homing that halts in a power warning sounds as well (the model's choice, log 42). The queue, the
lines and the tape stay. -/
def Obligations.ActionLimitExpires : Prop :=
  ∀ (s : State) (w : Work) (parts : Unsettled), s.stopped = false → s.seq.work = some w →
    let cause : HaltCause :=
      match w, s.seq.queue.head? with
      | .action _, some (.strike _) | .action _, some (.lift _ _) =>
        if parts.carriage then .carriage else if parts.wheel then .wheel else .hammer
      | .action _, some (.move _) => .carriage
      | .action _, some (.feed _ _) => if parts.paper then .feed else .carriage
      | .action _, none => .hammer
      | _, _ => if parts.carriage then .carriage else .wheel
    let again : HomingWhy := match w with
      | .homing why => why
      | _ => .recovery
    (s.seq.retry = false → ∃ t, exec (.actionLimitExpiry parts) s = .next t ∧
      t.seq = { s.seq with retry := true, work := some (.homing again), mech := .homing } ∧
      t.lines = s.lines ∧ t.corr = s.corr ∧ t.alert = s.alert ∧ t.supply = s.supply ∧
      t.disp.transient = s.disp.transient) ∧
    (s.seq.retry = true → s.seq.queue ≠ [] ∨ (∀ d, w ≠ .action d) →
      ∃ t, exec (.actionLimitExpiry parts) s = .next t ∧
      t.seq = { s.seq with work := none, haltCause := some cause, mech := .halted } ∧
      t.lines = s.lines ∧ t.corr = s.corr ∧ t.disp.standing.halt = some cause ∧
      t.disp.transient = none ∧
      (s.supply.power ≠ .standby → t.alert.current = some .fault) ∧
      (w = .homing .start → t.supply.homingDone = true) ∧
      (w = .homing .wake → s.supply.power = .standby →
        t.supply = { s.supply with power := .run, wakeMark := false }) ∧
      (w ≠ .homing .start → w ≠ .homing .wake → t.supply = s.supply))

/-- O49. COVER_OPEN, COVER_CLOSE, RIBBON_KIND_CHANGE and TAPE_NEW (R56, R126, R127, R137, R138, R201): an
open cover pauses a mechanism that does nothing; its close sets read due and brings the count of a new tape
to 900, with a REPORT when the count was 50 or less (R22, R138); a new tape is noted while the cover is
open. While PARKED the cover and the tape are not watched; a tape exchanged then is noted when the cover
next opens (log 41). The ribbon is watched in every state but STANDBY (R56), STARTING and a power warning
among them: a change is taken and the head is examined. In STANDBY, the wake included, only the level of the
input is kept, and so it is in a power warning that came in STANDBY while the mechanism is PARKED (R129; the
model's choice, log 14). While the load of a start waits the ribbon is watched although the mechanism is
PARKED (the model's choice, log 50). A kind that is mounted already changes the level alone. -/
def Obligations.CoverRibbonAndTape : Prop :=
  ∀ s : State, s.stopped = false →
    let watched := s.seq.mech ≠ .parked
    let parkedWarning :=
      s.seq.mech = .parked ∧ s.supply.power = .powerWarn ∧ s.supply.prior = .standby
    (watched → exec .coverOpen s = .next ({ s with
      pins := { s.pins with coverOpen := true, freshTape := false }
      corr := { s.corr with newTape := s.corr.newTape || s.pins.freshTape } }.examineHead)) ∧
    (watched → s.pins.coverOpen = true →
      let closed : State := { s with
        pins := { s.pins with coverOpen := false }
        seq := { s.seq with readDue := true }
        corr := { s.corr with
          tape := if s.corr.newTape = true then 900 else s.corr.tape, newTape := false } }
      (s.corr.newTape = true → s.corr.tape ≤ 50 → exec .coverClose s =
        .next (closed.triggerReport ⟨true, none, none⟩).examineHead) ∧
      (s.corr.newTape = false ∨ 51 ≤ s.corr.tape →
        exec .coverClose s = .next closed.examineHead)) ∧
    (watched → s.pins.coverOpen = true → ∃ t, exec .coverClose s = .next t ∧
      t.pins = { s.pins with coverOpen := false } ∧ t.seq.readDue = true ∧
      (s.seq.work = none → s.seq.mech ≠ .halted → s.seq.hold = false →
        t.seq = { s.seq with readDue := true, work := some .wheelRead, mech := .running }) ∧
      t.corr = { s.corr with
        tape := if s.corr.newTape = true then 900 else s.corr.tape, newTape := false } ∧
      t.seq.queue = s.seq.queue ∧ t.lines = s.lines ∧ t.esc = s.esc ∧ t.wheel = s.wheel) ∧
    (∀ kind, s.supply.power ≠ .standby → ¬ parkedWarning → s.wheel.ribbon ≠ kind →
      exec (.ribbonKindChange kind) s = .next ({ s with
        pins := { s.pins with ribbon := kind }
        wheel := { s.wheel with ribbon := kind } }.examineHead)) ∧
    (∀ kind, s.supply.power = .standby ∨ parkedWarning ∨ s.wheel.ribbon = kind →
      exec (.ribbonKindChange kind) s = .next { s with pins := { s.pins with ribbon := kind } }) ∧
    (watched → s.pins.coverOpen = true →
      exec .tapeNew s = .next { s with corr := { s.corr with newTape := true } }) ∧
    (s.pins.coverOpen = false → exec .tapeNew s = .next s) ∧
    (¬ watched →
      exec .coverOpen s = .next { s with pins := { s.pins with coverOpen := true } } ∧
      exec .coverClose s = .next { s with pins := { s.pins with coverOpen := false } } ∧
      (s.pins.coverOpen = true →
        exec .tapeNew s = .next { s with pins := { s.pins with freshTape := true } }))

/-- O50. CLEAR in HALTED (R132, R133, R134, R154): the queue is discarded and its reservations released,
each lift record losing the LIFTs discarded; the retry mark and the halt cause are cleared. Every line is
truncated before its first entry with a discarded STRIKE and loses its LIFTING entries, a GAP at its end
going and GAPs side by side merging; the other entries stay, and each line that has changed is segmented,
the ring lines from the oldest and then the current one (log 22). A bold character whose second strike is
discarded goes too, its first strike done or not, which is the model's choice (log 54). The view is the
current line with the cursor at its end, homing runs, and the halt message ends. The new queue is the
recovery FEED, over the distance to the feeding line or else to the current line, followed by nothing but
what the feeding mark feeds. The tape count and the paper count stay. The lines that stand as the rule
leaves them have different numbers. The clauses say the key's effect, the state u; what follows it is the
ownership alone, decided as after any key (O18): a keyboard whose role is lost, with no key left that would
use the line, commits what u holds and gives the line up (R19, R40). -/
def Obligations.ClearRecovers : Prop :=
  ∀ (s : State) (k : Keystroke) (rest : List Keystroke), s.HeadKey k rest → s.machine = .halted →
    k.code = 30 →
    let discarded := s.seq.queue
    let stays (l : Line) : List Entry :=
      (l.entries.takeWhile fun e => !marked discarded l.number e.id).filter Entry.live
    let cleaned (l m : Line) : Prop :=
      m = { l with entries := m.entries, words := m.words } ∧
      m.entries.map Entry.shape = (tidyGaps (stays l)).map Entry.shape ∧
      (m.entries.filter fun e => !e.isGap).map Entry.shape =
        ((stays l).filter fun e => !e.isGap).map Entry.shape ∧
      (∀ e, m.entries.getLast? = some e → e.kind ≠ .gap) ∧
      ∀ i a b, m.entries[i]? = some a → m.entries[i + 1]? = some b → a.kind = .gap → b.kind ≠ .gap
    let distinct := ((s.lines.current :: s.lines.ring).map (·.number)).Nodup
    let clean (u : State) (n : Word) : State :=
      match u.lines.find n with
      | none => u
      | some l =>
        if tidyGaps (stays l) = l.entries then u
        else State.resegment { u with
          lines := u.lines.updateLine n fun x => { x with entries := tidyGaps (stays x) } } n
    ∃ u t, exec .clear s = .next t ∧ KeyLeaves u t ∧ t.intake.keys = rest ∧
      u.intake = { s.intake with keys := rest } ∧ u.seq.mech = .homing ∧
      u.seq.work = some (.homing .clear) ∧ u.seq.retry = false ∧ u.seq.haltCause = none ∧
      u.seq.headStarted = false ∧ u.seq.paperCount = s.seq.paperCount ∧
      u.seq.impression = s.seq.impression ∧
      u.wordView =
        ((s.lines.ring.map (·.number) ++ [s.lines.current.number]).foldl clean s).wordView ∧
      (s.lines.mark = none → u.seq.queue =
        [.feed (signedDiff s.lines.current.offset s.seq.paperCount) u.typingPoint]) ∧
      (∀ m l, s.lines.mark = some m → s.lines.find m.line = some l →
        m.final ≠ none ∨ m.line = s.lines.current.number →
        ∃ fed, u.seq.queue =
            .feed (signedDiff l.offset s.seq.paperCount) u.typingPoint :: fed ∧
          ∀ a ∈ fed, (∃ b, a = .strike b ∧ b.line = m.line) ∨
            ∃ d x, m.final = some (d, x) ∧ a = .feed d x) ∧
      u.corr = { s.corr with
        reserved := s.corr.reserved - liftCount discarded
        lifts := (s.corr.lifts.map fun r => { r with
          outstanding := r.outstanding - liftsOf discarded r.line r.entry }).filter
            (0 < ·.outstanding) } ∧
      ((∀ r ∈ s.corr.lifts, r.outstanding ≤ liftsOf discarded r.line r.entry) →
        u.corr.lifts = []) ∧
      (∀ e ∈ u.lines.current.entries, e.live = true) ∧
      (distinct → cleaned s.lines.current u.lines.current ∧
        u.lines.ring.length = s.lines.ring.length ∧
        (∀ (i : Nat) (l m : Line), s.lines.ring[i]? = some l → u.lines.ring[i]? = some m → cleaned l m) ∧
        ∀ m ∈ u.lines.ring, ∀ e ∈ m.entries, e.live = true) ∧
      u.lines.viewDepth = 0 ∧ u.lines.cursor = u.lines.current.live.length ∧
      u.disp.standing.halt = none ∧ u.machine = .ready ∧ u.esc.tabs = s.esc.tabs ∧
      u.esc.left = s.esc.left ∧ u.esc.right = s.esc.right ∧ u.wheel = s.wheel ∧
      (s.lines.mark = none → (u.lines.current.entries.map (·.id)).Sublist
        ((s.lines.current.entries.takeWhile fun e =>
          !marked s.seq.queue s.lines.current.number e.id).map (·.id)))

/-- O51. The feeding from the mark (R95, R102, R114): with no mark or no free place nothing is enqueued;
with one free place the action that the mark names takes it, a HELD entry becoming QUEUED with its strikes
total and underscore width written, and the mark moves to the entry's next action, then to the first
action of the next HELD entry, then to the final FEED, and is absent after that, or at once after the
entry when its line is not committed. With more free places that action comes first, and the feeding goes
on until no place is free or the mark is absent. -/
def Obligations.FeedingMarkFeeds : Prop :=
  (∀ s : State, s.lines.mark = none ∨ s.freePlaces = 0 → s.pump = s) ∧
  (∀ (s : State) (m : FeedMark), s.lines.mark = some m → 0 < s.freePlaces →
    let feeds (a : Action) (lines : LineStore) : Prop :=
      let u : State := { s with seq := { s.seq with queue := s.seq.queue ++ [a] }, lines := lines }
      (s.freePlaces = 1 → s.pump = u) ∧ u.seq.queue <+: s.pump.seq.queue
    (∀ d x, m.place = .finalFeed → m.final = some (d, x) →
      feeds (.feed d x) { s.lines with mark := none }) ∧
    (∀ l e sub, m.place = .action e.id sub → s.lines.find m.line = some l → l.entry? e.id = some e →
      let begun (x : Entry) : Entry :=
        if x.id = e.id ∧ x.strike = some .held then x.begin (s.underscoreWidth l.number x.id) else x
      let line : Line := { l with entries := l.entries.map begun }
      let e' := begun e
      ∀ b, (e'.blows l.number)[sub]? = some b →
        let place (p : Option FeedMark) : LineStore :=
          { s.lines.updateLine l.number fun _ => line with mark := p }
        (sub + 1 < e'.total →
          feeds (.strike b) (place (some { m with place := .action e.id (sub + 1) }))) ∧
        (e'.total ≤ sub + 1 → m.final = none → feeds (.strike b) (place none)) ∧
        (e'.total ≤ sub + 1 → m.final ≠ none →
          (∀ before next after, line.entries = before ++ next :: after → next.strike = some .held →
            (∀ x ∈ before, x.strike ≠ some .held) →
            feeds (.strike b) (place (some { m with place := .action next.id 0 }))) ∧
          ((∀ x ∈ line.entries, x.strike ≠ some .held) →
            feeds (.strike b) (place (some { m with place := .finalFeed })))))) ∧
  ∀ (s : State) (m : FeedMark) (l : Line), s.lines.mark = some m → s.lines.find m.line = some l →
    (l.entries.map (·.id)).Nodup →
    (∀ e ∈ l.entries, e.strike = some .held → e.kind.isChar = true ∨ e.underline = true) →
    s.pump.freePlaces = 0 ∨ s.pump.lines.mark = none

/-! ### Panel, tone, store and supply (Chapters 9 and 10) -/

/-- O52. MESSAGE_TIME_EXPIRY, BLINK and TONE_PATTERN_END (R180, R187, R190). What is done with a request for
an alert (R190, R193): only a tone of lower severity is cut off, silence drops all but FAULT, STANDBY drops
every request, and nothing but the current tone changes; where two rows of R193 apply, in a power warning
that came in STANDBY or in CONFLICT during the wake, the machine state decides (the model's choice, log 42).
TONE (R192), whoever owns the line: the silence setting changes, its message is shown when the panel can
show one, and silence going on cuts off any tone but a FAULT. What the panel shows in a cell (R180 to R183,
R188, R189): nothing while OFF, a conflict alone while BLANK, and while ON the first message that is set, or
the displayed line with its cursor and its blinking words; what each annunciator shows (R186, R176; a
warning that comes in WAITING-WHEEL is log 46); and the pattern of each tone (R190). After a key the
ownership is decided as O18 says, also when the keyboard's role is lost (R40). -/
def Obligations.PanelToneAndAlerts : Prop :=
  (∀ s : State, s.stopped = false →
    exec .messageTimeExpiry s = .next { s with disp := { s.disp with transient := none } } ∧
    (s.disp.panel = .on →
      exec .blink s = .next { s with disp := { s.disp with lit := !s.disp.lit } }) ∧
    (s.disp.panel ≠ .on → exec .blink s = .next s) ∧
    exec .tonePatternEnd s = .next { s with alert := { s.alert with current := none } }) ∧
  (∀ (s : State) (a : Alert),
    let t := s.requestAlert a
    let severity (x : Alert) : Nat :=
      match x with
      | .fault => 4
      | .refuse => 3
      | .spell => 2
      | .bell => 1
    (s.machine = .standby ∨ (a ≠ .fault ∧ s.alert.silence = true) → t = s) ∧
    (s.machine ≠ .standby → a = .fault ∨ s.alert.silence = false →
      (s.alert.current = none → t = { s with alert := { s.alert with current := some a } }) ∧
      (∀ c, s.alert.current = some c →
        (severity c < severity a →
          t = { s with alert := { s.alert with current := some a } }) ∧
        (severity a ≤ severity c → t = s)))) ∧
  (∀ (s : State) (k : Keystroke) (rest : List Keystroke), s.HeadKey k rest → s.machine ≠ .halted →
    k.code = 31 →
    let shown : State := (s.withoutKey rest).showMessage
      (if s.alert.silence = true then .toneOn else .toneOff)
    ∃ t, exec .tone s = .next t ∧ KeyLeaves { shown with
      alert := {
        silence := !s.alert.silence
        current :=
          if s.alert.silence = false ∧ s.alert.current ≠ some .fault then none
          else s.alert.current } } t) ∧
  (∀ (s : State) (k : Nat),
    let d := s.disp
    let c := d.standing
    let blank : Cell := ⟨.blank, false, false⟩
    let shows (glyphs : List Glyph) : Prop := s.cell k = ⟨glyphs[k]?.getD .blank, false, false⟩
    let text (words : String) : Prop := shows (glyphsOf words)
    (d.panel = .off → s.cell k = blank) ∧
    (d.panel = .blank → (c.conflict = true → text "STATION CONFLICT") ∧
      (c.conflict = false → s.cell k = blank)) ∧
    (d.panel = .on →
      (c.conflict = true → text "STATION CONFLICT") ∧
      (c.conflict = false →
        (c.halt = some .carriage → text "HALT: CARRIAGE") ∧ (c.halt = some .wheel → text "HALT: WHEEL") ∧
        (c.halt = some .hammer → text "HALT: HAMMER") ∧ (c.halt = some .feed → text "HALT: FEED") ∧
        (c.halt = none → (∀ m, d.transient = some m → text m.text) ∧
          (d.transient = none →
            (∀ code, c.wheel = some (.code code) →
              shows (glyphsOf "WHEEL NEEDED FOR " ++ [glyphOf code])) ∧
            (∀ f, c.wheel = some (.family f) →
              shows (glyphsOf "MOUNT WHEEL FAMILY " ++ [.code (48 + f.number)])) ∧
            (c.wheel = some .noWheel → text "NO WHEEL MOUNTED") ∧
            (c.wheel = none →
              (c.pause = some .cover → text "COVER OPEN") ∧
              (c.pause = some .ribbon → text "RIBBON OUT") ∧
              (c.pause = none → (c.noKeyboard = true → text "NO KEYBOARD") ∧
                (c.noKeyboard = false →
                  let l := s.lines.displayed
                  let i := d.window + k
                  let cursor := decide (i = s.lines.cursor) && d.lit
                  (l.live[i]? = none → s.cell k = ⟨.blank, cursor, cursor⟩) ∧
                  (∀ e, l.live[i]? = some e →
                    let flagged := ∃ w ∈ l.words, w.state = .flagged ∧ e.serial = some w.serial
                    let glyph : Glyph :=
                      match e.kind with
                      | .char code _ _ => glyphOf code
                      | .space => .blank
                      | .tab _ => .tabArrow
                      | .halfSpace => .halfSpaceMark
                      | .gap => .gapDot
                    (flagged → d.lit = false → s.cell k = ⟨.blank, cursor, e.underline || cursor⟩) ∧
                    (¬ flagged ∨ d.lit = true →
                      s.cell k = ⟨glyph, cursor, e.underline || cursor⟩)))))))))) ∧
  ∀ s : State,
    let lit (a : Annunciator) (on blinks : Prop) : Prop :=
      s.segmentLit a = true ↔ s.disp.panel = .on ∧ (on ∨ (blinks ∧ s.disp.lit = true))
    let usable (r : Role) : Prop :=
      ∃ n : StationNo, s.bus.table[n].role = some r ∧ s.bus.table[n].status = .adopted
    let missing := (s.spell.hadPrimary = true ∧ ¬ usable .primary) ∨
      (s.spell.hadSecondary = true ∧ ¬ usable .secondary)
    let n := s.corr.tape
    lit .hold (s.lines.hold = true) False ∧ lit .just (s.esc.justify = true) False ∧
    lit .bold (s.seq.bold = true) False ∧ lit .under (s.seq.underline = true) False ∧
    lit .job (s.intake.owner = .source1 ∨ s.intake.owner = .source2) False ∧
    lit .spell (s.spell.isOn = true ∧ ¬ missing) (s.spell.isOn = true ∧ missing) ∧
    lit .tape (1 ≤ n ∧ n ≤ 50) (n = 0) ∧
    lit .wheel (s.machine ≠ .waitingWheel ∧ s.wheel.mounted = none) (s.machine = .waitingWheel) ∧
    s.tone = match s.alert.current with
      | none => none
      | some .fault => some .oneLongTone
      | some .refuse => some .oneShortTone
      | some .spell => some .twoShortTones
      | some .bell => some .bellStroke

/-- O53. STORE SETTINGS (R196, R197): the settings and tape blocks are marked dirty, and with no write in
flight or left to the store the settings write starts with the values that stand. The check value is a free
value (log 6). STORE_WRITE_COMPLETE (R196, R202): the block written becomes valid, whatever other marks are
set, and the next dirty block in the order settings, tape, user list is started with the values that stand;
with no write under way nothing changes. A write left to the store by RESET ends there, its block valid; a
start whose load waits for it then loads, begins the roll call, unless CONFLICT, met while it waited, keeps
the two frames out (log 34), and homes, whatever the hold is (the model's choice, log 44), and the next
dirty block is started. After a key the ownership is decided as O18 says, also when the keyboard's role is
lost (R40). -/
def Obligations.StoreWrites : Prop :=
  (∀ (s : State) (k : Keystroke) (rest : List Keystroke), s.KeyDue k rest →
    k.code = 26 →
    ∃ store t, NextWrite s { s.store with dirtySettings := true, dirtyTape := true } store ∧
      exec .storeSettings s = .next t ∧ KeyLeaves { s.withoutKey rest with store := store } t) ∧
  ∀ s : State,
    let valid (u : StoreUnit) (b : Block) : StoreUnit :=
      match b with
      | .settings => { u with settings := { u.settings with valid := true } }
      | .tape => { u with tape := { u.tape with valid := true } }
      | .userList => { u with userList := { u.userList with valid := true } }
    let becomes (u : StoreUnit) : Prop :=
      exec .storeWriteComplete s = .next { s with store := u }
    (s.store.finishing = none → s.stopped = true ∨ s.store.inFlight = none → becomes s.store) ∧
    (∀ b, s.store.finishing = none → s.stopped = false → s.store.inFlight = some b →
      ∃ u, NextWrite s { valid s.store b with inFlight := none } u ∧ becomes u) ∧
    (∀ b, s.store.finishing = some b →
      let w : StoreUnit := { valid s.store b with finishing := none }
      (s.stopped = true → becomes w) ∧
      (s.stopped = false → s.store.loadWaits = false → ∃ u, NextWrite s w u ∧ becomes u) ∧
      (s.stopped = false → s.store.loadWaits = true →
        let v := w.loadSettings s.esc.platen
        let frames : List OutFrame := [.roll, .report ⟨s.machine, s.intake.owner, none,
          if w.loadTape ≤ 50 then some w.loadTape else none, some s.supply.startCause, none, none,
          false⟩]
        ∃ t, exec .storeWriteComplete s = .next t ∧
          NextWrite t { w with loadWaits := false } t.store ∧
          t.settingsNow = v ∧ t.corr = { s.corr with tape := w.loadTape } ∧
          t.spell = { s.spell with isOn := v.spelling, userWords := w.loadUserList } ∧
          t.lines = { s.lines with
            hold := v.hold
            current := { s.lines.current with
              start := v.left, mode := if v.hold = true then .hold else .direct } } ∧
          t.seq = { s.seq with
            impression := v.impression, mech := .homing, work := some (.homing .start) } ∧
          t.supply = s.supply ∧ t.wheel = s.wheel ∧ t.intake = s.intake ∧
          t.alert.current = s.alert.current ∧
          (s.supply.power ≠ .run → s.bus.conflict = true → t.bus = s.bus) ∧
          (s.supply.power ≠ .run → s.bus.conflict = false → t.bus = { s.bus with
            queue := frames, sending := none, heldReport := none })))

/-- O54. SUPPLY_WARNING (R22, R129, R196, R198): the prior state is recorded, the hold goes on, a REPORT
is triggered, and the tape block is marked dirty and written when its turn comes. SUPPLY_RECOVERY (R129,
R199): the prior state returns, the hold goes off and a REPORT is triggered; STARTING is left when the
roll call and the homing are both over, a wake goes on or, its homing over, ends; and then the head is
examined. STANDBY_IDLE_EXPIRY (R129, R179, R193, R196, R200): with the conditions of R200 the machine
enters STANDBY: the mechanism is PARKED, the panel OFF, the tone cut off, a REPORT triggered, and the tape
block marked dirty and written when its turn comes; in any other state the expiry does not run. (While a
start's load waits no REPORT is triggered, log 34.) The stops (R199, R202): SUPPLY_RESET and
RESET_ASSERTED release the mechanism and leave the bus undriven; the first cuts off a write, the second
leaves it to the store; and a stopped controller takes no frame, no key, no completion and no expiry: only
its inputs keep their levels, the store's report, the stops and the starts act (log 13). -/
def Obligations.SupplyStandbyAndStops : Prop :=
  (∀ s : State, s.stopped = false →
    let told (u : State) : State :=
      if s.store.loadWaits = true then u else u.triggerReport .plain
    (s.supply.power = .powerWarn → exec .supplyWarning s = .next s) ∧
    (s.supply.power ≠ .powerWarn →
      ∃ store, NextWrite s { s.store with dirtyTape := true } store ∧
        exec .supplyWarning s = .next { told { s with
          supply := { s.supply with power := .powerWarn, prior := s.supply.power }
          seq := { s.seq with hold := true } } with store := store }) ∧
    (s.supply.power ≠ .powerWarn → exec .supplyRecovery s = .next s) ∧
    (s.supply.power = .powerWarn →
      let back (p : Power) : State := told { s with
        supply := { s.supply with power := p }, seq := { s.seq with hold := false } }
      let recovers (u : State) : Prop := exec .supplyRecovery s = .next u.examineHead
      let complete := s.supply.rollCallDone = true ∧ s.supply.homingDone = true
      let homes := s.seq.work = some (.homing .wake)
      (s.supply.prior = .run → recovers (back .run)) ∧
      (s.supply.prior = .starting → ¬ complete → recovers (back .starting)) ∧
      (s.supply.prior = .starting → complete →
        let u := back .starting
        recovers { told { u with supply := { u.supply with power := .run } } with
          disp := if s.disp.panel = .on then s.disp else { s.disp with panel := .on, lit := true } }) ∧
      (s.supply.prior = .standby → s.supply.wakeMark = false ∨ homes →
        recovers (back .standby)) ∧
      (s.supply.prior = .standby → s.supply.wakeMark = true → ¬ homes →
        let u := back .standby
        recovers (told { u with supply := { u.supply with power := .run, wakeMark := false } })))) ∧
  (∀ s : State,
    let idle := s.stopped = false ∧ s.supply.power = .run ∧ s.bus.conflict = false ∧
      s.seq.mech = .idle ∧ s.intake.keys = [] ∧ s.intake.src1.slot = none ∧
      s.intake.src2.slot = none ∧ s.seq.queue = [] ∧ s.lines.mark = none ∧
      s.store.inFlight = none
    let u : State := { s with supply := { s.supply with power := .standby } }
    (¬ idle → exec .standbyIdleExpiry s = .next s) ∧
    (idle → ∃ store, NextWrite s { s.store with dirtyTape := true } store ∧
      exec .standbyIdleExpiry s = .next { s with
        supply := u.supply
        bus := if s.store.loadWaits = true then s.bus else (u.triggerReport .plain).bus
        seq := { s.seq with mech := .parked, readDue := false, retry := false }
        disp := { s.disp with panel := .off, lit := true, transient := none }
        alert := { s.alert with current := none }
        store := store })) ∧
  ∀ s : State,
    let released : State := { s with
      seq := { s.seq with work := none }
      bus := { s.bus with sending := none, answer := .absent } }
    exec .supplyReset s = .next { released with
      store := { s.store with inFlight := none, finishing := none, loadWaits := false }
      supply := { s.supply with low := true } } ∧
    (∀ b, s.store.inFlight = some b → exec .resetAsserted s = .next { released with
      store := { s.store with inFlight := none, finishing := some b, loadWaits := false }
      supply := { s.supply with resetHeld := true } }) ∧
    (s.store.inFlight = none → exec .resetAsserted s = .next { released with
      store := { s.store with loadWaits := false }
      supply := { s.supply with resetHeld := true } }) ∧
    (s.stopped = true →
      exec .coverOpen s = .next { s with pins := { s.pins with coverOpen := true } } ∧
      exec .coverClose s = .next { s with pins := { s.pins with coverOpen := false } } ∧
      (∀ kind, exec (.ribbonKindChange kind) s =
        .next { s with pins := { s.pins with ribbon := kind } }) ∧
      ∀ c : Instr, c ≠ .coverOpen → c ≠ .coverClose → (∀ kind, c ≠ .ribbonKindChange kind) →
        c ≠ .storeWriteComplete → c ≠ .supplyReset → c ≠ .resetAsserted →
        (∀ straps, c ≠ .coldStart straps) → (∀ straps, c ≠ .lineStart straps) →
        exec c s = .next s)

/-- O55. Words. Segmentation (R108, R109): the words of a line are the maximal runs of live letters and
of apostrophes directly between two letters; an entry carries the serial of its word, and any other entry
none; a record is kept by an unchanged run, or, while OPEN, by a run that lengthens it; any other run is a
new OPEN word, and a record that no run keeps is removed. The OPEN words that are closed are ready. After
it (R110, R174) the items of the words removed leave the pending list, their slots become DISCARDED, and
the words that are ready are handed in order. A word that is handed (R159, R160, R164, R178) gets its
capital state and the state of the first test that holds; one that becomes PENDING joins the list, from
which a full one first loses its oldest item, and a FREE slot takes the head; in CONFLICT, in
STANDBY and during a power warning no word is handed and nothing changes (the word stays OPEN, and its next
segmentation finds it ready again, log 45). The items and the slots of the words removed go in CONFLICT too
(log 36). -/
def Obligations.WordsFoundAndJudged : Prop :=
  (∀ (l : Line) (counter : Word), (l.entries.map (·.id)).Nodup → (l.words.map (·.serial)).Nodup →
    let g := l.segment counter
    let letter (i : Nat) : Prop := ∃ e, l.live[i]? = some e ∧ e.isLetter = true
    let joiner (i : Nat) : Prop := ∃ e, l.live[i]? = some e ∧ e.isApostrophe = true
    let joins (i : Nat) : Prop :=
      letter i ∨ (joiner i ∧ letter (i + 1) ∧ ∃ j, j + 1 = i ∧ letter j)
    let isRun (i n : Nat) : Prop := 0 < n ∧ (∀ k, k < n → joins (i + k)) ∧ ¬ joins (i + n) ∧
      ∀ j, j + 1 = i → ¬ joins j
    let serial (i : Nat) : Option Word := l.live[i]?.bind (·.serial)
    let first (i : Nat) (w : WordRec) : Prop := l.live[i]?.map (·.id) = some w.firstId
    let unchanged (i n : Nat) (w : WordRec) : Prop :=
      first i w ∧ w.length = n ∧ ∀ k, k < n → serial (i + k) = some w.serial
    let lengthened (i n : Nat) (w : WordRec) : Prop :=
      first i w ∧ w.state = .opened ∧ 0 < w.length ∧ w.length < n ∧
        (∀ k, k < w.length → serial (i + k) = some w.serial) ∧
        ∀ k, w.length ≤ k → k < n → serial (i + k) = none
    let letters (i n : Nat) : Nat := ((l.live.drop i).take n).countP Entry.isLetter
    let closed (i n : Nat) : Prop :=
      l.state = .committed ∨ (i + n < l.live.length ∧ ¬ (i + n + 1 = l.live.length ∧ joiner (i + n)))
    g.line = { l with entries := g.line.entries, words := g.line.words } ∧
    g.line.entries.map Entry.bare = l.entries.map Entry.bare ∧
    (∀ e ∈ g.line.entries, e.live = false → e.serial = none) ∧
    (∀ i e, g.line.live[i]? = some e → (e.serial.isSome = true ↔ joins i)) ∧
    (∀ i n, isRun i n → ∃ w ∈ g.line.words, first i w ∧ w.length = n ∧
      (∀ k e, k < n → g.line.live[i + k]? = some e → e.serial = some w.serial) ∧
      (∀ v ∈ l.words, unchanged i n v → w = v) ∧
      (∀ v ∈ l.words, lengthened i n v → w = { v with length := n, letters := letters i n }) ∧
      ((∀ v ∈ l.words, ¬ unchanged i n v ∧ ¬ lengthened i n v) →
        w = ⟨w.serial, w.firstId, n, letters i n, none, .opened, none⟩) ∧
      (w.state = .opened → closed i n → w.serial ∈ g.ready)) ∧
    (∀ w ∈ g.line.words, ∃ i, isRun i w.length ∧ first i w) ∧
    (∀ v ∈ l.words, v.serial ∈ g.removed ↔ ∀ i n, isRun i n → ¬ unchanged i n v ∧ ¬ lengthened i n v) ∧
    (∀ x ∈ g.ready, ∃ w ∈ g.line.words, w.serial = x ∧ w.state = .opened ∧
      ∃ i, first i w ∧ closed i w.length) ∧
    (l.words = [] → g.line.words.map (·.serial) =
      (List.range g.line.words.length).map fun k => counter + BitVec.ofNat 16 k)) ∧
  (∀ (s : State) (number : Word) (l : Line), s.lines.find number = some l →
    let g := l.segment s.lines.serialCounter
    let gone (line serial : Word) : Bool := line == number && g.removed.contains serial
    s.resegment number = g.ready.foldl (fun u serial => u.handWord number serial) { s with
      lines := { s.lines.updateLine number fun _ => g.line with serialCounter := g.counter }
      spell := { s.spell with
        pending := s.spell.pending.filter fun i => !gone i.line i.serial
        slots := s.spell.slots.map fun x =>
          match x with
          | .asking q => if gone q.line q.serial then .discarded q else .asking q
          | other => other } }) ∧
  ∀ (s : State) (number serial : Word) (l : Line) (w : WordRec), s.lines.find number = some l →
    l.words.find? (·.serial == serial) = some w →
    let codes := (l.live.filter fun e => e.serial = some serial).filterMap Entry.code?
    let cases := codes.filter isLetter
    let upper := 2 ≤ cases.length ∧ ∀ c ∈ cases, isUpper c = true
    let found : Capital :=
      if cases.length ≤ 1 ∨ cases.any (!isUpper ·) = true then
        if (cases.head?.any isUpper) = true then .capital else .lower
      else .upper
    let judged (st : WordState) : State := s.updateLine number fun x => { x with
      words := x.words.map fun v =>
        if v.serial = serial then { v with capital := some found, state := st, tag := none } else v }
    let t := s.handWord number serial
    let source := l.owner = .source1 ∨ l.owner = .source2
    let skipped := source ∨ s.spell.isOn = false ∨ w.letters = 1
    let known := l.foldedForm serial ∈ s.spell.userWords
    let asked := s.bus.usable .primary = true ∨ s.bus.usable .secondary = true
    let item : PendingItem := ⟨number, serial, none⟩
    (upper ↔ found = .upper) ∧
    let suspended := s.bus.conflict = true ∨ s.supply.power = .standby ∨ s.supply.power = .powerWarn
    (suspended → t = s) ∧
    (¬ suspended →
      (skipped → t = judged .skipped) ∧
      (¬ skipped →
        (24 < w.length → t = judged .uncheckable) ∧
        (w.length ≤ 24 →
          (known → t = judged .accepted) ∧
          (¬ known → ¬ asked → t = judged .uncheckable) ∧
          (¬ known → asked →
            let u := judged .pending
            (s.spell.pending.length < 8 → t = State.takeItems
              { u with spell := { u.spell with pending := s.spell.pending ++ [item] } }) ∧
            (∀ oldest others, s.spell.pending = oldest :: others → 8 ≤ s.spell.pending.length →
              t = State.takeItems { u.setWord oldest.line oldest.serial .uncheckable none with
                spell := { u.spell with pending := others ++ [item] } })))))

/-- O56. COLD_START and LINE_START (R195, R202): every unit takes its after-start values, and the straps
give the station number and the platen width (R11, R60, R85, R111, R135, R157, R179): the key queue and the
slots are empty and no one owns the line; line 0 is open and empty, the ring empty, the view depth and the
cursor 0, no feeding mark; the print queue is empty, the paper count 0, no read due, no retry mark, no halt
cause, the hold off, and BOLD and UNDERLINE are off (R116); no word is pending and every slot is FREE; the
panel is BLANK, the window at 0, no message, and every standing condition is cleared (R188); no tone sounds.
STARTING as the prior state and the input levels kept are log 4. With no write to wait for, valid blocks
give the settings, with the margins clamped, the tape count and the user list, and the defaults stand for
the others; the roll call's two frames are queued and homing runs. A LINE_START while the store is finishing
a write leaves the rest to that write's completion: the defaults stand for what the blocks hold, the frame
queue is empty, the mechanism is PARKED, no block is dirty, and the load waits (log 34). The job attributes
of the sources are off (the model's choice, log 53). A start given to a running controller is one after a
stop (log 12). -/
def Obligations.StartsTakeTheirValues : Prop :=
  ∀ (s : State) (straps : Straps) (cause : StartCause) (c : Instr),
    (c = .coldStart straps ∧ cause = .cold ∧ s.supply.resetHeld = false) ∨
      (c = .lineStart straps ∧ cause = .line ∧ s.supply.low = false) →
    let waits := cause = .line ∧ (s.store.inFlight ≠ none ∨ s.store.finishing ≠ none)
    let platen := if straps.wide = true then 1800 else 1560
    let v := s.store.settings.contents
    let tape :=
      if s.store.tape.isValid tapeCheckValue (· ≤ 900) = true then s.store.tape.contents else 0
    let default : Settings := ⟨120, platen - 120, [], 2, 2, false, false, true, false⟩
    let clean : StoreUnit := { s.store with
      dirtySettings := false, dirtyTape := false, dirtyUser := false, inFlight := none }
    ∃ t, exec c s = .next t ∧
      t.bus.own = straps.station ∧ t.bus.language = none ∧ t.bus.sending = none ∧
      t.bus.conflict = false ∧ t.bus.window = .notOpen ∧ t.bus.heldReport = none ∧
      (∀ n : StationNo, t.bus.table[n] =
        if n = straps.station then ⟨some .controller, 2, 0, .adopted, none, 0⟩
        else ⟨none, 0, 0, .absent, none, 0⟩) ∧
      t.intake = ⟨[], .empty, .empty, .none⟩ ∧ t.wheel = ⟨none, s.pins.ribbon⟩ ∧
      t.esc.platen = platen ∧ t.esc.marginRelease = false ∧ t.esc.paperOffset = 0 ∧
      t.esc.bellRung = false ∧
      t.lines = {
        current := {
          number := 0, owner := .none, start := t.esc.left, offset := 0
          mode := if t.lines.hold = true then .hold else .direct
          state := .opened, entries := [], words := [], nextId := 0 }
        ring := [], viewDepth := 0, cursor := 0, hold := t.lines.hold, mark := none
        nextLine := 1, serialCounter := 0 } ∧
      t.seq.queue = [] ∧ t.seq.headStarted = false ∧ t.seq.paperCount = 0 ∧
      t.seq.readDue = false ∧ t.seq.retry = false ∧ t.seq.haltCause = none ∧
      t.seq.hold = false ∧ t.seq.bold = false ∧ t.seq.underline = false ∧
      t.spell.pending = [] ∧ (∀ tag : Fin 4, t.spell.slots[tag] = .free) ∧
      t.spell.hadPrimary = false ∧ t.spell.hadSecondary = false ∧
      t.disp = {
        panel := .blank, window := 0, lit := true, transient := none
        standing :=
          { conflict := false, halt := none, wheel := none, pause := none, noKeyboard := false } } ∧
      t.alert.current = none ∧
      t.supply = ⟨.starting, .starting, false, false, false, cause, false, false⟩ ∧
      t.pins = s.pins ∧ t.pending = s.pending ∧
      (¬ waits →
        t.bus.queue = [.roll, .report ⟨.starting, .none, none,
          if tape ≤ 50 then some tape else none, some cause, none, none, false⟩] ∧
        t.seq.mech = .homing ∧ t.seq.work = some (.homing .start) ∧ t.corr = ⟨tape, 0, [], false⟩ ∧
        t.store = { clean with finishing := none, loadWaits := false } ∧
        (s.store.settings.isValid Settings.checkValue Settings.inRange = false →
          t.settingsNow = default) ∧
        (s.store.settings.isValid Settings.checkValue Settings.inRange = true →
          let right := if platen < v.right then platen - 120 else v.right
          let left := if right < v.left + 120 then right - 120 else v.left
          t.settingsNow = { v with
            left := left, right := right, tabs := v.tabs.filter fun x => left < x ∧ x < right } ∧
          t.lines.current.mode = if v.hold = true then .hold else .direct) ∧
        (s.store.userList.isValid userCheckValue userListInRange = true →
          t.spell.userWords = s.store.userList.contents) ∧
        (s.store.userList.isValid userCheckValue userListInRange = false →
          t.spell.userWords = [])) ∧
      (waits →
        t.bus.queue = [] ∧ t.seq.mech = .parked ∧ t.seq.work = none ∧ t.corr = ⟨0, 0, [], false⟩ ∧
        t.settingsNow = default ∧ t.spell.userWords = [] ∧ t.store = { clean with
          loadWaits := true
          finishing := if s.store.inFlight = none then s.store.finishing else s.store.inFlight })

/-! ### Laws of the whole machine -/

/-- O57. The capacities and ranges (R24, R60, R77, R86, R87, R89, R103, R111, R113, R135, R136, R161, R164,
R183), R ≤ P (R62), the laws of the bus (R14, R21, R166, R167) and of the power state (R129, R198, R201)
hold right after a start. -/
def Obligations.ResetIsLawful : Prop :=
  State.reset.Bounded ∧ State.reset.esc.right ≤ State.reset.esc.platen ∧ State.reset.BusLawful ∧
    State.reset.PowerLawful

/-- O58. Every step keeps the capacities and ranges that the manual states: 32 keys, 48 actions, 3 ring
lines, 8 pending items, 48 user words, a tape count up to 900, the two platens, margins 120 apart, at most
16 rising stops between them, the ranges of spacing and impression, 160 entries with different ids below
the next one in each line, the window around the cursor, the petals, the reserved count as the number of
LIFTs queued, within the tape, and what holds while a start's load waits. The right margin stays within
the platen (R62) by every step from a state whose cursor point is within it, as R61 has it: SET RIGHT
MARGIN takes the cursor point. -/
def Obligations.StepKeepsBounds : Prop :=
  (∀ s t : State, s.Bounded → step s = .next t → t.Bounded) ∧
  ∀ s t : State, s.esc.right ≤ s.esc.platen → s.cursorPoint ≤ s.esc.platen → step s = .next t →
    t.esc.right ≤ t.esc.platen

/-- O59. Every step keeps the laws of the bus: in CONFLICT nothing waits or is sent; at most one REPORT, one
ROLL, one SUMMARY (none before the window has closed) and one QUERY for each slot in phase SENDING wait,
and at most 8 frames. -/
def Obligations.StepKeepsBusLaws : Prop :=
  ∀ s t : State, s.BusLawful → step s = .next t → t.BusLawful

/-- O60. Every step keeps the laws of the power state: the hold is on exactly in POWER-WARN, which
returns to another state, and the wake mark belongs to STANDBY. -/
def Obligations.StepKeepsPowerLaws : Prop :=
  ∀ s t : State, s.PowerLawful → step s = .next t → t.PowerLawful
end

