-- ==== Sys2Proof/Laws/State.lean ====
section
/-! SUPPORT. One lemma per unit per update of one unit of the state, each true by `rfl`: a proof
reads a unit of an updated state without unfolding the update. -/

namespace Sys2Proof.Machine

@[simp] theorem State.mapBus_bus (s : State) (f : Bus → Bus) : (s.mapBus f).bus = f s.bus := rfl
@[simp] theorem State.mapBus_intake (s : State) (f : Bus → Bus) : (s.mapBus f).intake = s.intake := rfl
@[simp] theorem State.mapBus_wheel (s : State) (f : Bus → Bus) : (s.mapBus f).wheel = s.wheel := rfl
@[simp] theorem State.mapBus_esc (s : State) (f : Bus → Bus) : (s.mapBus f).esc = s.esc := rfl
@[simp] theorem State.mapBus_lines (s : State) (f : Bus → Bus) : (s.mapBus f).lines = s.lines := rfl
@[simp] theorem State.mapBus_seq (s : State) (f : Bus → Bus) : (s.mapBus f).seq = s.seq := rfl
@[simp] theorem State.mapBus_corr (s : State) (f : Bus → Bus) : (s.mapBus f).corr = s.corr := rfl
@[simp] theorem State.mapBus_spell (s : State) (f : Bus → Bus) : (s.mapBus f).spell = s.spell := rfl
@[simp] theorem State.mapBus_disp (s : State) (f : Bus → Bus) : (s.mapBus f).disp = s.disp := rfl
@[simp] theorem State.mapBus_alert (s : State) (f : Bus → Bus) : (s.mapBus f).alert = s.alert := rfl
@[simp] theorem State.mapBus_store (s : State) (f : Bus → Bus) : (s.mapBus f).store = s.store := rfl
@[simp] theorem State.mapBus_supply (s : State) (f : Bus → Bus) : (s.mapBus f).supply = s.supply := rfl
@[simp] theorem State.mapBus_pins (s : State) (f : Bus → Bus) : (s.mapBus f).pins = s.pins := rfl
@[simp] theorem State.mapBus_pending (s : State) (f : Bus → Bus) : (s.mapBus f).pending = s.pending := rfl

@[simp] theorem State.mapIntake_bus (s : State) (f : Intake → Intake) : (s.mapIntake f).bus = s.bus := rfl
@[simp] theorem State.mapIntake_intake (s : State) (f : Intake → Intake) : (s.mapIntake f).intake = f s.intake := rfl
@[simp] theorem State.mapIntake_wheel (s : State) (f : Intake → Intake) : (s.mapIntake f).wheel = s.wheel := rfl
@[simp] theorem State.mapIntake_esc (s : State) (f : Intake → Intake) : (s.mapIntake f).esc = s.esc := rfl
@[simp] theorem State.mapIntake_lines (s : State) (f : Intake → Intake) : (s.mapIntake f).lines = s.lines := rfl
@[simp] theorem State.mapIntake_seq (s : State) (f : Intake → Intake) : (s.mapIntake f).seq = s.seq := rfl
@[simp] theorem State.mapIntake_corr (s : State) (f : Intake → Intake) : (s.mapIntake f).corr = s.corr := rfl
@[simp] theorem State.mapIntake_spell (s : State) (f : Intake → Intake) : (s.mapIntake f).spell = s.spell := rfl
@[simp] theorem State.mapIntake_disp (s : State) (f : Intake → Intake) : (s.mapIntake f).disp = s.disp := rfl
@[simp] theorem State.mapIntake_alert (s : State) (f : Intake → Intake) : (s.mapIntake f).alert = s.alert := rfl
@[simp] theorem State.mapIntake_store (s : State) (f : Intake → Intake) : (s.mapIntake f).store = s.store := rfl
@[simp] theorem State.mapIntake_supply (s : State) (f : Intake → Intake) : (s.mapIntake f).supply = s.supply := rfl
@[simp] theorem State.mapIntake_pins (s : State) (f : Intake → Intake) : (s.mapIntake f).pins = s.pins := rfl
@[simp] theorem State.mapIntake_pending (s : State) (f : Intake → Intake) : (s.mapIntake f).pending = s.pending := rfl

@[simp] theorem State.mapWheel_bus (s : State) (f : WheelUnit → WheelUnit) : (s.mapWheel f).bus = s.bus := rfl
@[simp] theorem State.mapWheel_intake (s : State) (f : WheelUnit → WheelUnit) : (s.mapWheel f).intake = s.intake := rfl
@[simp] theorem State.mapWheel_wheel (s : State) (f : WheelUnit → WheelUnit) : (s.mapWheel f).wheel = f s.wheel := rfl
@[simp] theorem State.mapWheel_esc (s : State) (f : WheelUnit → WheelUnit) : (s.mapWheel f).esc = s.esc := rfl
@[simp] theorem State.mapWheel_lines (s : State) (f : WheelUnit → WheelUnit) : (s.mapWheel f).lines = s.lines := rfl
@[simp] theorem State.mapWheel_seq (s : State) (f : WheelUnit → WheelUnit) : (s.mapWheel f).seq = s.seq := rfl
@[simp] theorem State.mapWheel_corr (s : State) (f : WheelUnit → WheelUnit) : (s.mapWheel f).corr = s.corr := rfl
@[simp] theorem State.mapWheel_spell (s : State) (f : WheelUnit → WheelUnit) : (s.mapWheel f).spell = s.spell := rfl
@[simp] theorem State.mapWheel_disp (s : State) (f : WheelUnit → WheelUnit) : (s.mapWheel f).disp = s.disp := rfl
@[simp] theorem State.mapWheel_alert (s : State) (f : WheelUnit → WheelUnit) : (s.mapWheel f).alert = s.alert := rfl
@[simp] theorem State.mapWheel_store (s : State) (f : WheelUnit → WheelUnit) : (s.mapWheel f).store = s.store := rfl
@[simp] theorem State.mapWheel_supply (s : State) (f : WheelUnit → WheelUnit) : (s.mapWheel f).supply = s.supply := rfl
@[simp] theorem State.mapWheel_pins (s : State) (f : WheelUnit → WheelUnit) : (s.mapWheel f).pins = s.pins := rfl
@[simp] theorem State.mapWheel_pending (s : State) (f : WheelUnit → WheelUnit) : (s.mapWheel f).pending = s.pending := rfl

@[simp] theorem State.mapEsc_bus (s : State) (f : Escapement → Escapement) : (s.mapEsc f).bus = s.bus := rfl
@[simp] theorem State.mapEsc_intake (s : State) (f : Escapement → Escapement) : (s.mapEsc f).intake = s.intake := rfl
@[simp] theorem State.mapEsc_wheel (s : State) (f : Escapement → Escapement) : (s.mapEsc f).wheel = s.wheel := rfl
@[simp] theorem State.mapEsc_esc (s : State) (f : Escapement → Escapement) : (s.mapEsc f).esc = f s.esc := rfl
@[simp] theorem State.mapEsc_lines (s : State) (f : Escapement → Escapement) : (s.mapEsc f).lines = s.lines := rfl
@[simp] theorem State.mapEsc_seq (s : State) (f : Escapement → Escapement) : (s.mapEsc f).seq = s.seq := rfl
@[simp] theorem State.mapEsc_corr (s : State) (f : Escapement → Escapement) : (s.mapEsc f).corr = s.corr := rfl
@[simp] theorem State.mapEsc_spell (s : State) (f : Escapement → Escapement) : (s.mapEsc f).spell = s.spell := rfl
@[simp] theorem State.mapEsc_disp (s : State) (f : Escapement → Escapement) : (s.mapEsc f).disp = s.disp := rfl
@[simp] theorem State.mapEsc_alert (s : State) (f : Escapement → Escapement) : (s.mapEsc f).alert = s.alert := rfl
@[simp] theorem State.mapEsc_store (s : State) (f : Escapement → Escapement) : (s.mapEsc f).store = s.store := rfl
@[simp] theorem State.mapEsc_supply (s : State) (f : Escapement → Escapement) : (s.mapEsc f).supply = s.supply := rfl
@[simp] theorem State.mapEsc_pins (s : State) (f : Escapement → Escapement) : (s.mapEsc f).pins = s.pins := rfl
@[simp] theorem State.mapEsc_pending (s : State) (f : Escapement → Escapement) : (s.mapEsc f).pending = s.pending := rfl

@[simp] theorem State.mapLines_bus (s : State) (f : LineStore → LineStore) : (s.mapLines f).bus = s.bus := rfl
@[simp] theorem State.mapLines_intake (s : State) (f : LineStore → LineStore) : (s.mapLines f).intake = s.intake := rfl
@[simp] theorem State.mapLines_wheel (s : State) (f : LineStore → LineStore) : (s.mapLines f).wheel = s.wheel := rfl
@[simp] theorem State.mapLines_esc (s : State) (f : LineStore → LineStore) : (s.mapLines f).esc = s.esc := rfl
@[simp] theorem State.mapLines_lines (s : State) (f : LineStore → LineStore) : (s.mapLines f).lines = f s.lines := rfl
@[simp] theorem State.mapLines_seq (s : State) (f : LineStore → LineStore) : (s.mapLines f).seq = s.seq := rfl
@[simp] theorem State.mapLines_corr (s : State) (f : LineStore → LineStore) : (s.mapLines f).corr = s.corr := rfl
@[simp] theorem State.mapLines_spell (s : State) (f : LineStore → LineStore) : (s.mapLines f).spell = s.spell := rfl
@[simp] theorem State.mapLines_disp (s : State) (f : LineStore → LineStore) : (s.mapLines f).disp = s.disp := rfl
@[simp] theorem State.mapLines_alert (s : State) (f : LineStore → LineStore) : (s.mapLines f).alert = s.alert := rfl
@[simp] theorem State.mapLines_store (s : State) (f : LineStore → LineStore) : (s.mapLines f).store = s.store := rfl
@[simp] theorem State.mapLines_supply (s : State) (f : LineStore → LineStore) : (s.mapLines f).supply = s.supply := rfl
@[simp] theorem State.mapLines_pins (s : State) (f : LineStore → LineStore) : (s.mapLines f).pins = s.pins := rfl
@[simp] theorem State.mapLines_pending (s : State) (f : LineStore → LineStore) : (s.mapLines f).pending = s.pending := rfl

@[simp] theorem State.mapSeq_bus (s : State) (f : Sequencer → Sequencer) : (s.mapSeq f).bus = s.bus := rfl
@[simp] theorem State.mapSeq_intake (s : State) (f : Sequencer → Sequencer) : (s.mapSeq f).intake = s.intake := rfl
@[simp] theorem State.mapSeq_wheel (s : State) (f : Sequencer → Sequencer) : (s.mapSeq f).wheel = s.wheel := rfl
@[simp] theorem State.mapSeq_esc (s : State) (f : Sequencer → Sequencer) : (s.mapSeq f).esc = s.esc := rfl
@[simp] theorem State.mapSeq_lines (s : State) (f : Sequencer → Sequencer) : (s.mapSeq f).lines = s.lines := rfl
@[simp] theorem State.mapSeq_seq (s : State) (f : Sequencer → Sequencer) : (s.mapSeq f).seq = f s.seq := rfl
@[simp] theorem State.mapSeq_corr (s : State) (f : Sequencer → Sequencer) : (s.mapSeq f).corr = s.corr := rfl
@[simp] theorem State.mapSeq_spell (s : State) (f : Sequencer → Sequencer) : (s.mapSeq f).spell = s.spell := rfl
@[simp] theorem State.mapSeq_disp (s : State) (f : Sequencer → Sequencer) : (s.mapSeq f).disp = s.disp := rfl
@[simp] theorem State.mapSeq_alert (s : State) (f : Sequencer → Sequencer) : (s.mapSeq f).alert = s.alert := rfl
@[simp] theorem State.mapSeq_store (s : State) (f : Sequencer → Sequencer) : (s.mapSeq f).store = s.store := rfl
@[simp] theorem State.mapSeq_supply (s : State) (f : Sequencer → Sequencer) : (s.mapSeq f).supply = s.supply := rfl
@[simp] theorem State.mapSeq_pins (s : State) (f : Sequencer → Sequencer) : (s.mapSeq f).pins = s.pins := rfl
@[simp] theorem State.mapSeq_pending (s : State) (f : Sequencer → Sequencer) : (s.mapSeq f).pending = s.pending := rfl

@[simp] theorem State.mapCorr_bus (s : State) (f : Correction → Correction) : (s.mapCorr f).bus = s.bus := rfl
@[simp] theorem State.mapCorr_intake (s : State) (f : Correction → Correction) : (s.mapCorr f).intake = s.intake := rfl
@[simp] theorem State.mapCorr_wheel (s : State) (f : Correction → Correction) : (s.mapCorr f).wheel = s.wheel := rfl
@[simp] theorem State.mapCorr_esc (s : State) (f : Correction → Correction) : (s.mapCorr f).esc = s.esc := rfl
@[simp] theorem State.mapCorr_lines (s : State) (f : Correction → Correction) : (s.mapCorr f).lines = s.lines := rfl
@[simp] theorem State.mapCorr_seq (s : State) (f : Correction → Correction) : (s.mapCorr f).seq = s.seq := rfl
@[simp] theorem State.mapCorr_corr (s : State) (f : Correction → Correction) : (s.mapCorr f).corr = f s.corr := rfl
@[simp] theorem State.mapCorr_spell (s : State) (f : Correction → Correction) : (s.mapCorr f).spell = s.spell := rfl
@[simp] theorem State.mapCorr_disp (s : State) (f : Correction → Correction) : (s.mapCorr f).disp = s.disp := rfl
@[simp] theorem State.mapCorr_alert (s : State) (f : Correction → Correction) : (s.mapCorr f).alert = s.alert := rfl
@[simp] theorem State.mapCorr_store (s : State) (f : Correction → Correction) : (s.mapCorr f).store = s.store := rfl
@[simp] theorem State.mapCorr_supply (s : State) (f : Correction → Correction) : (s.mapCorr f).supply = s.supply := rfl
@[simp] theorem State.mapCorr_pins (s : State) (f : Correction → Correction) : (s.mapCorr f).pins = s.pins := rfl
@[simp] theorem State.mapCorr_pending (s : State) (f : Correction → Correction) : (s.mapCorr f).pending = s.pending := rfl

@[simp] theorem State.mapSpell_bus (s : State) (f : Spelling → Spelling) : (s.mapSpell f).bus = s.bus := rfl
@[simp] theorem State.mapSpell_intake (s : State) (f : Spelling → Spelling) : (s.mapSpell f).intake = s.intake := rfl
@[simp] theorem State.mapSpell_wheel (s : State) (f : Spelling → Spelling) : (s.mapSpell f).wheel = s.wheel := rfl
@[simp] theorem State.mapSpell_esc (s : State) (f : Spelling → Spelling) : (s.mapSpell f).esc = s.esc := rfl
@[simp] theorem State.mapSpell_lines (s : State) (f : Spelling → Spelling) : (s.mapSpell f).lines = s.lines := rfl
@[simp] theorem State.mapSpell_seq (s : State) (f : Spelling → Spelling) : (s.mapSpell f).seq = s.seq := rfl
@[simp] theorem State.mapSpell_corr (s : State) (f : Spelling → Spelling) : (s.mapSpell f).corr = s.corr := rfl
@[simp] theorem State.mapSpell_spell (s : State) (f : Spelling → Spelling) : (s.mapSpell f).spell = f s.spell := rfl
@[simp] theorem State.mapSpell_disp (s : State) (f : Spelling → Spelling) : (s.mapSpell f).disp = s.disp := rfl
@[simp] theorem State.mapSpell_alert (s : State) (f : Spelling → Spelling) : (s.mapSpell f).alert = s.alert := rfl
@[simp] theorem State.mapSpell_store (s : State) (f : Spelling → Spelling) : (s.mapSpell f).store = s.store := rfl
@[simp] theorem State.mapSpell_supply (s : State) (f : Spelling → Spelling) : (s.mapSpell f).supply = s.supply := rfl
@[simp] theorem State.mapSpell_pins (s : State) (f : Spelling → Spelling) : (s.mapSpell f).pins = s.pins := rfl
@[simp] theorem State.mapSpell_pending (s : State) (f : Spelling → Spelling) : (s.mapSpell f).pending = s.pending := rfl

@[simp] theorem State.mapDisp_bus (s : State) (f : Display → Display) : (s.mapDisp f).bus = s.bus := rfl
@[simp] theorem State.mapDisp_intake (s : State) (f : Display → Display) : (s.mapDisp f).intake = s.intake := rfl
@[simp] theorem State.mapDisp_wheel (s : State) (f : Display → Display) : (s.mapDisp f).wheel = s.wheel := rfl
@[simp] theorem State.mapDisp_esc (s : State) (f : Display → Display) : (s.mapDisp f).esc = s.esc := rfl
@[simp] theorem State.mapDisp_lines (s : State) (f : Display → Display) : (s.mapDisp f).lines = s.lines := rfl
@[simp] theorem State.mapDisp_seq (s : State) (f : Display → Display) : (s.mapDisp f).seq = s.seq := rfl
@[simp] theorem State.mapDisp_corr (s : State) (f : Display → Display) : (s.mapDisp f).corr = s.corr := rfl
@[simp] theorem State.mapDisp_spell (s : State) (f : Display → Display) : (s.mapDisp f).spell = s.spell := rfl
@[simp] theorem State.mapDisp_disp (s : State) (f : Display → Display) : (s.mapDisp f).disp = f s.disp := rfl
@[simp] theorem State.mapDisp_alert (s : State) (f : Display → Display) : (s.mapDisp f).alert = s.alert := rfl
@[simp] theorem State.mapDisp_store (s : State) (f : Display → Display) : (s.mapDisp f).store = s.store := rfl
@[simp] theorem State.mapDisp_supply (s : State) (f : Display → Display) : (s.mapDisp f).supply = s.supply := rfl
@[simp] theorem State.mapDisp_pins (s : State) (f : Display → Display) : (s.mapDisp f).pins = s.pins := rfl
@[simp] theorem State.mapDisp_pending (s : State) (f : Display → Display) : (s.mapDisp f).pending = s.pending := rfl

@[simp] theorem State.mapAlert_bus (s : State) (f : AlertUnit → AlertUnit) : (s.mapAlert f).bus = s.bus := rfl
@[simp] theorem State.mapAlert_intake (s : State) (f : AlertUnit → AlertUnit) : (s.mapAlert f).intake = s.intake := rfl
@[simp] theorem State.mapAlert_wheel (s : State) (f : AlertUnit → AlertUnit) : (s.mapAlert f).wheel = s.wheel := rfl
@[simp] theorem State.mapAlert_esc (s : State) (f : AlertUnit → AlertUnit) : (s.mapAlert f).esc = s.esc := rfl
@[simp] theorem State.mapAlert_lines (s : State) (f : AlertUnit → AlertUnit) : (s.mapAlert f).lines = s.lines := rfl
@[simp] theorem State.mapAlert_seq (s : State) (f : AlertUnit → AlertUnit) : (s.mapAlert f).seq = s.seq := rfl
@[simp] theorem State.mapAlert_corr (s : State) (f : AlertUnit → AlertUnit) : (s.mapAlert f).corr = s.corr := rfl
@[simp] theorem State.mapAlert_spell (s : State) (f : AlertUnit → AlertUnit) : (s.mapAlert f).spell = s.spell := rfl
@[simp] theorem State.mapAlert_disp (s : State) (f : AlertUnit → AlertUnit) : (s.mapAlert f).disp = s.disp := rfl
@[simp] theorem State.mapAlert_alert (s : State) (f : AlertUnit → AlertUnit) : (s.mapAlert f).alert = f s.alert := rfl
@[simp] theorem State.mapAlert_store (s : State) (f : AlertUnit → AlertUnit) : (s.mapAlert f).store = s.store := rfl
@[simp] theorem State.mapAlert_supply (s : State) (f : AlertUnit → AlertUnit) : (s.mapAlert f).supply = s.supply := rfl
@[simp] theorem State.mapAlert_pins (s : State) (f : AlertUnit → AlertUnit) : (s.mapAlert f).pins = s.pins := rfl
@[simp] theorem State.mapAlert_pending (s : State) (f : AlertUnit → AlertUnit) : (s.mapAlert f).pending = s.pending := rfl

@[simp] theorem State.mapStore_bus (s : State) (f : StoreUnit → StoreUnit) : (s.mapStore f).bus = s.bus := rfl
@[simp] theorem State.mapStore_intake (s : State) (f : StoreUnit → StoreUnit) : (s.mapStore f).intake = s.intake := rfl
@[simp] theorem State.mapStore_wheel (s : State) (f : StoreUnit → StoreUnit) : (s.mapStore f).wheel = s.wheel := rfl
@[simp] theorem State.mapStore_esc (s : State) (f : StoreUnit → StoreUnit) : (s.mapStore f).esc = s.esc := rfl
@[simp] theorem State.mapStore_lines (s : State) (f : StoreUnit → StoreUnit) : (s.mapStore f).lines = s.lines := rfl
@[simp] theorem State.mapStore_seq (s : State) (f : StoreUnit → StoreUnit) : (s.mapStore f).seq = s.seq := rfl
@[simp] theorem State.mapStore_corr (s : State) (f : StoreUnit → StoreUnit) : (s.mapStore f).corr = s.corr := rfl
@[simp] theorem State.mapStore_spell (s : State) (f : StoreUnit → StoreUnit) : (s.mapStore f).spell = s.spell := rfl
@[simp] theorem State.mapStore_disp (s : State) (f : StoreUnit → StoreUnit) : (s.mapStore f).disp = s.disp := rfl
@[simp] theorem State.mapStore_alert (s : State) (f : StoreUnit → StoreUnit) : (s.mapStore f).alert = s.alert := rfl
@[simp] theorem State.mapStore_store (s : State) (f : StoreUnit → StoreUnit) : (s.mapStore f).store = f s.store := rfl
@[simp] theorem State.mapStore_supply (s : State) (f : StoreUnit → StoreUnit) : (s.mapStore f).supply = s.supply := rfl
@[simp] theorem State.mapStore_pins (s : State) (f : StoreUnit → StoreUnit) : (s.mapStore f).pins = s.pins := rfl
@[simp] theorem State.mapStore_pending (s : State) (f : StoreUnit → StoreUnit) : (s.mapStore f).pending = s.pending := rfl

@[simp] theorem State.mapSupply_bus (s : State) (f : Supply → Supply) : (s.mapSupply f).bus = s.bus := rfl
@[simp] theorem State.mapSupply_intake (s : State) (f : Supply → Supply) : (s.mapSupply f).intake = s.intake := rfl
@[simp] theorem State.mapSupply_wheel (s : State) (f : Supply → Supply) : (s.mapSupply f).wheel = s.wheel := rfl
@[simp] theorem State.mapSupply_esc (s : State) (f : Supply → Supply) : (s.mapSupply f).esc = s.esc := rfl
@[simp] theorem State.mapSupply_lines (s : State) (f : Supply → Supply) : (s.mapSupply f).lines = s.lines := rfl
@[simp] theorem State.mapSupply_seq (s : State) (f : Supply → Supply) : (s.mapSupply f).seq = s.seq := rfl
@[simp] theorem State.mapSupply_corr (s : State) (f : Supply → Supply) : (s.mapSupply f).corr = s.corr := rfl
@[simp] theorem State.mapSupply_spell (s : State) (f : Supply → Supply) : (s.mapSupply f).spell = s.spell := rfl
@[simp] theorem State.mapSupply_disp (s : State) (f : Supply → Supply) : (s.mapSupply f).disp = s.disp := rfl
@[simp] theorem State.mapSupply_alert (s : State) (f : Supply → Supply) : (s.mapSupply f).alert = s.alert := rfl
@[simp] theorem State.mapSupply_store (s : State) (f : Supply → Supply) : (s.mapSupply f).store = s.store := rfl
@[simp] theorem State.mapSupply_supply (s : State) (f : Supply → Supply) : (s.mapSupply f).supply = f s.supply := rfl
@[simp] theorem State.mapSupply_pins (s : State) (f : Supply → Supply) : (s.mapSupply f).pins = s.pins := rfl
@[simp] theorem State.mapSupply_pending (s : State) (f : Supply → Supply) : (s.mapSupply f).pending = s.pending := rfl

@[simp] theorem State.mapPins_bus (s : State) (f : Pins → Pins) : (s.mapPins f).bus = s.bus := rfl
@[simp] theorem State.mapPins_intake (s : State) (f : Pins → Pins) : (s.mapPins f).intake = s.intake := rfl
@[simp] theorem State.mapPins_wheel (s : State) (f : Pins → Pins) : (s.mapPins f).wheel = s.wheel := rfl
@[simp] theorem State.mapPins_esc (s : State) (f : Pins → Pins) : (s.mapPins f).esc = s.esc := rfl
@[simp] theorem State.mapPins_lines (s : State) (f : Pins → Pins) : (s.mapPins f).lines = s.lines := rfl
@[simp] theorem State.mapPins_seq (s : State) (f : Pins → Pins) : (s.mapPins f).seq = s.seq := rfl
@[simp] theorem State.mapPins_corr (s : State) (f : Pins → Pins) : (s.mapPins f).corr = s.corr := rfl
@[simp] theorem State.mapPins_spell (s : State) (f : Pins → Pins) : (s.mapPins f).spell = s.spell := rfl
@[simp] theorem State.mapPins_disp (s : State) (f : Pins → Pins) : (s.mapPins f).disp = s.disp := rfl
@[simp] theorem State.mapPins_alert (s : State) (f : Pins → Pins) : (s.mapPins f).alert = s.alert := rfl
@[simp] theorem State.mapPins_store (s : State) (f : Pins → Pins) : (s.mapPins f).store = s.store := rfl
@[simp] theorem State.mapPins_supply (s : State) (f : Pins → Pins) : (s.mapPins f).supply = s.supply := rfl
@[simp] theorem State.mapPins_pins (s : State) (f : Pins → Pins) : (s.mapPins f).pins = f s.pins := rfl
@[simp] theorem State.mapPins_pending (s : State) (f : Pins → Pins) : (s.mapPins f).pending = s.pending := rfl

end Sys2Proof.Machine
end

