-- ==== Sys2Proof/Laws/Units.lean ====
section
/-! SUPPORT. For each shared operation, the units of the state that it leaves alone: a proof cites these
lemmas in place of unfolding the operation. -/

namespace Sys2Proof.Machine

/-- A fold whose every step keeps a reading of the state keeps it. -/
theorem foldl_keeps {α β γ : Type} {f : β → α → β} (g : β → γ) (h : ∀ b a, g (f b a) = g b)
    (l : List α) (b : β) : g (l.foldl f b) = g b := by
  induction l generalizing b with
  | nil => rfl
  | cons a l ih => rw [List.foldl_cons, ih, h]

/-! `answerWith` touches at most: bus. -/

@[simp] theorem State.answerWith_intake (s : State) (a : AnswerCode) : (s.answerWith a).intake = s.intake := rfl
@[simp] theorem State.answerWith_wheel (s : State) (a : AnswerCode) : (s.answerWith a).wheel = s.wheel := rfl
@[simp] theorem State.answerWith_esc (s : State) (a : AnswerCode) : (s.answerWith a).esc = s.esc := rfl
@[simp] theorem State.answerWith_lines (s : State) (a : AnswerCode) : (s.answerWith a).lines = s.lines := rfl
@[simp] theorem State.answerWith_seq (s : State) (a : AnswerCode) : (s.answerWith a).seq = s.seq := rfl
@[simp] theorem State.answerWith_corr (s : State) (a : AnswerCode) : (s.answerWith a).corr = s.corr := rfl
@[simp] theorem State.answerWith_spell (s : State) (a : AnswerCode) : (s.answerWith a).spell = s.spell := rfl
@[simp] theorem State.answerWith_disp (s : State) (a : AnswerCode) : (s.answerWith a).disp = s.disp := rfl
@[simp] theorem State.answerWith_alert (s : State) (a : AnswerCode) : (s.answerWith a).alert = s.alert := rfl
@[simp] theorem State.answerWith_store (s : State) (a : AnswerCode) : (s.answerWith a).store = s.store := rfl
@[simp] theorem State.answerWith_supply (s : State) (a : AnswerCode) : (s.answerWith a).supply = s.supply := rfl
@[simp] theorem State.answerWith_pins (s : State) (a : AnswerCode) : (s.answerWith a).pins = s.pins := rfl
@[simp] theorem State.answerWith_pending (s : State) (a : AnswerCode) : (s.answerWith a).pending = s.pending := rfl

/-! `triggerReport` touches at most: bus. -/

@[simp] theorem State.triggerReport_intake (s : State) (c : ReportCause) : (s.triggerReport c).intake = s.intake := by unfold State.triggerReport; (repeat' split) <;> simp
@[simp] theorem State.triggerReport_wheel (s : State) (c : ReportCause) : (s.triggerReport c).wheel = s.wheel := by unfold State.triggerReport; (repeat' split) <;> simp
@[simp] theorem State.triggerReport_esc (s : State) (c : ReportCause) : (s.triggerReport c).esc = s.esc := by unfold State.triggerReport; (repeat' split) <;> simp
@[simp] theorem State.triggerReport_lines (s : State) (c : ReportCause) : (s.triggerReport c).lines = s.lines := by unfold State.triggerReport; (repeat' split) <;> simp
@[simp] theorem State.triggerReport_seq (s : State) (c : ReportCause) : (s.triggerReport c).seq = s.seq := by unfold State.triggerReport; (repeat' split) <;> simp
@[simp] theorem State.triggerReport_corr (s : State) (c : ReportCause) : (s.triggerReport c).corr = s.corr := by unfold State.triggerReport; (repeat' split) <;> simp
@[simp] theorem State.triggerReport_spell (s : State) (c : ReportCause) : (s.triggerReport c).spell = s.spell := by unfold State.triggerReport; (repeat' split) <;> simp
@[simp] theorem State.triggerReport_disp (s : State) (c : ReportCause) : (s.triggerReport c).disp = s.disp := by unfold State.triggerReport; (repeat' split) <;> simp
@[simp] theorem State.triggerReport_alert (s : State) (c : ReportCause) : (s.triggerReport c).alert = s.alert := by unfold State.triggerReport; (repeat' split) <;> simp
@[simp] theorem State.triggerReport_store (s : State) (c : ReportCause) : (s.triggerReport c).store = s.store := by unfold State.triggerReport; (repeat' split) <;> simp
@[simp] theorem State.triggerReport_supply (s : State) (c : ReportCause) : (s.triggerReport c).supply = s.supply := by unfold State.triggerReport; (repeat' split) <;> simp
@[simp] theorem State.triggerReport_pins (s : State) (c : ReportCause) : (s.triggerReport c).pins = s.pins := by unfold State.triggerReport; (repeat' split) <;> simp
@[simp] theorem State.triggerReport_pending (s : State) (c : ReportCause) : (s.triggerReport c).pending = s.pending := by unfold State.triggerReport; (repeat' split) <;> simp

/-! `enqueueFrame` touches at most: bus. -/

@[simp] theorem State.enqueueFrame_intake (s : State) (f : OutFrame) : (s.enqueueFrame f).intake = s.intake := by unfold State.enqueueFrame; (repeat' split) <;> simp
@[simp] theorem State.enqueueFrame_wheel (s : State) (f : OutFrame) : (s.enqueueFrame f).wheel = s.wheel := by unfold State.enqueueFrame; (repeat' split) <;> simp
@[simp] theorem State.enqueueFrame_esc (s : State) (f : OutFrame) : (s.enqueueFrame f).esc = s.esc := by unfold State.enqueueFrame; (repeat' split) <;> simp
@[simp] theorem State.enqueueFrame_lines (s : State) (f : OutFrame) : (s.enqueueFrame f).lines = s.lines := by unfold State.enqueueFrame; (repeat' split) <;> simp
@[simp] theorem State.enqueueFrame_seq (s : State) (f : OutFrame) : (s.enqueueFrame f).seq = s.seq := by unfold State.enqueueFrame; (repeat' split) <;> simp
@[simp] theorem State.enqueueFrame_corr (s : State) (f : OutFrame) : (s.enqueueFrame f).corr = s.corr := by unfold State.enqueueFrame; (repeat' split) <;> simp
@[simp] theorem State.enqueueFrame_spell (s : State) (f : OutFrame) : (s.enqueueFrame f).spell = s.spell := by unfold State.enqueueFrame; (repeat' split) <;> simp
@[simp] theorem State.enqueueFrame_disp (s : State) (f : OutFrame) : (s.enqueueFrame f).disp = s.disp := by unfold State.enqueueFrame; (repeat' split) <;> simp
@[simp] theorem State.enqueueFrame_alert (s : State) (f : OutFrame) : (s.enqueueFrame f).alert = s.alert := by unfold State.enqueueFrame; (repeat' split) <;> simp
@[simp] theorem State.enqueueFrame_store (s : State) (f : OutFrame) : (s.enqueueFrame f).store = s.store := by unfold State.enqueueFrame; (repeat' split) <;> simp
@[simp] theorem State.enqueueFrame_supply (s : State) (f : OutFrame) : (s.enqueueFrame f).supply = s.supply := by unfold State.enqueueFrame; (repeat' split) <;> simp
@[simp] theorem State.enqueueFrame_pins (s : State) (f : OutFrame) : (s.enqueueFrame f).pins = s.pins := by unfold State.enqueueFrame; (repeat' split) <;> simp
@[simp] theorem State.enqueueFrame_pending (s : State) (f : OutFrame) : (s.enqueueFrame f).pending = s.pending := by unfold State.enqueueFrame; (repeat' split) <;> simp

/-! `requestAlert` touches at most: alert. -/

@[simp] theorem State.requestAlert_bus (s : State) (a : Alert) : (s.requestAlert a).bus = s.bus := by unfold State.requestAlert; (repeat' split) <;> simp
@[simp] theorem State.requestAlert_intake (s : State) (a : Alert) : (s.requestAlert a).intake = s.intake := by unfold State.requestAlert; (repeat' split) <;> simp
@[simp] theorem State.requestAlert_wheel (s : State) (a : Alert) : (s.requestAlert a).wheel = s.wheel := by unfold State.requestAlert; (repeat' split) <;> simp
@[simp] theorem State.requestAlert_esc (s : State) (a : Alert) : (s.requestAlert a).esc = s.esc := by unfold State.requestAlert; (repeat' split) <;> simp
@[simp] theorem State.requestAlert_lines (s : State) (a : Alert) : (s.requestAlert a).lines = s.lines := by unfold State.requestAlert; (repeat' split) <;> simp
@[simp] theorem State.requestAlert_seq (s : State) (a : Alert) : (s.requestAlert a).seq = s.seq := by unfold State.requestAlert; (repeat' split) <;> simp
@[simp] theorem State.requestAlert_corr (s : State) (a : Alert) : (s.requestAlert a).corr = s.corr := by unfold State.requestAlert; (repeat' split) <;> simp
@[simp] theorem State.requestAlert_spell (s : State) (a : Alert) : (s.requestAlert a).spell = s.spell := by unfold State.requestAlert; (repeat' split) <;> simp
@[simp] theorem State.requestAlert_disp (s : State) (a : Alert) : (s.requestAlert a).disp = s.disp := by unfold State.requestAlert; (repeat' split) <;> simp
@[simp] theorem State.requestAlert_store (s : State) (a : Alert) : (s.requestAlert a).store = s.store := by unfold State.requestAlert; (repeat' split) <;> simp
@[simp] theorem State.requestAlert_supply (s : State) (a : Alert) : (s.requestAlert a).supply = s.supply := by unfold State.requestAlert; (repeat' split) <;> simp
@[simp] theorem State.requestAlert_pins (s : State) (a : Alert) : (s.requestAlert a).pins = s.pins := by unfold State.requestAlert; (repeat' split) <;> simp
@[simp] theorem State.requestAlert_pending (s : State) (a : Alert) : (s.requestAlert a).pending = s.pending := by unfold State.requestAlert; (repeat' split) <;> simp

/-! `showMessage` touches at most: disp. -/

@[simp] theorem State.showMessage_bus (s : State) (m : Message) : (s.showMessage m).bus = s.bus := by unfold State.showMessage; (repeat' split) <;> simp
@[simp] theorem State.showMessage_intake (s : State) (m : Message) : (s.showMessage m).intake = s.intake := by unfold State.showMessage; (repeat' split) <;> simp
@[simp] theorem State.showMessage_wheel (s : State) (m : Message) : (s.showMessage m).wheel = s.wheel := by unfold State.showMessage; (repeat' split) <;> simp
@[simp] theorem State.showMessage_esc (s : State) (m : Message) : (s.showMessage m).esc = s.esc := by unfold State.showMessage; (repeat' split) <;> simp
@[simp] theorem State.showMessage_lines (s : State) (m : Message) : (s.showMessage m).lines = s.lines := by unfold State.showMessage; (repeat' split) <;> simp
@[simp] theorem State.showMessage_seq (s : State) (m : Message) : (s.showMessage m).seq = s.seq := by unfold State.showMessage; (repeat' split) <;> simp
@[simp] theorem State.showMessage_corr (s : State) (m : Message) : (s.showMessage m).corr = s.corr := by unfold State.showMessage; (repeat' split) <;> simp
@[simp] theorem State.showMessage_spell (s : State) (m : Message) : (s.showMessage m).spell = s.spell := by unfold State.showMessage; (repeat' split) <;> simp
@[simp] theorem State.showMessage_alert (s : State) (m : Message) : (s.showMessage m).alert = s.alert := by unfold State.showMessage; (repeat' split) <;> simp
@[simp] theorem State.showMessage_store (s : State) (m : Message) : (s.showMessage m).store = s.store := by unfold State.showMessage; (repeat' split) <;> simp
@[simp] theorem State.showMessage_supply (s : State) (m : Message) : (s.showMessage m).supply = s.supply := by unfold State.showMessage; (repeat' split) <;> simp
@[simp] theorem State.showMessage_pins (s : State) (m : Message) : (s.showMessage m).pins = s.pins := by unfold State.showMessage; (repeat' split) <;> simp
@[simp] theorem State.showMessage_pending (s : State) (m : Message) : (s.showMessage m).pending = s.pending := by unfold State.showMessage; (repeat' split) <;> simp

/-! `endMessage` touches at most: disp. -/

@[simp] theorem State.endMessage_bus (s : State) : (s.endMessage).bus = s.bus := rfl
@[simp] theorem State.endMessage_intake (s : State) : (s.endMessage).intake = s.intake := rfl
@[simp] theorem State.endMessage_wheel (s : State) : (s.endMessage).wheel = s.wheel := rfl
@[simp] theorem State.endMessage_esc (s : State) : (s.endMessage).esc = s.esc := rfl
@[simp] theorem State.endMessage_lines (s : State) : (s.endMessage).lines = s.lines := rfl
@[simp] theorem State.endMessage_seq (s : State) : (s.endMessage).seq = s.seq := rfl
@[simp] theorem State.endMessage_corr (s : State) : (s.endMessage).corr = s.corr := rfl
@[simp] theorem State.endMessage_spell (s : State) : (s.endMessage).spell = s.spell := rfl
@[simp] theorem State.endMessage_alert (s : State) : (s.endMessage).alert = s.alert := rfl
@[simp] theorem State.endMessage_store (s : State) : (s.endMessage).store = s.store := rfl
@[simp] theorem State.endMessage_supply (s : State) : (s.endMessage).supply = s.supply := rfl
@[simp] theorem State.endMessage_pins (s : State) : (s.endMessage).pins = s.pins := rfl
@[simp] theorem State.endMessage_pending (s : State) : (s.endMessage).pending = s.pending := rfl

/-! `panelOn` touches at most: disp. -/

@[simp] theorem State.panelOn_bus (s : State) : (s.panelOn).bus = s.bus := rfl
@[simp] theorem State.panelOn_intake (s : State) : (s.panelOn).intake = s.intake := rfl
@[simp] theorem State.panelOn_wheel (s : State) : (s.panelOn).wheel = s.wheel := rfl
@[simp] theorem State.panelOn_esc (s : State) : (s.panelOn).esc = s.esc := rfl
@[simp] theorem State.panelOn_lines (s : State) : (s.panelOn).lines = s.lines := rfl
@[simp] theorem State.panelOn_seq (s : State) : (s.panelOn).seq = s.seq := rfl
@[simp] theorem State.panelOn_corr (s : State) : (s.panelOn).corr = s.corr := rfl
@[simp] theorem State.panelOn_spell (s : State) : (s.panelOn).spell = s.spell := rfl
@[simp] theorem State.panelOn_alert (s : State) : (s.panelOn).alert = s.alert := rfl
@[simp] theorem State.panelOn_store (s : State) : (s.panelOn).store = s.store := rfl
@[simp] theorem State.panelOn_supply (s : State) : (s.panelOn).supply = s.supply := rfl
@[simp] theorem State.panelOn_pins (s : State) : (s.panelOn).pins = s.pins := rfl
@[simp] theorem State.panelOn_pending (s : State) : (s.panelOn).pending = s.pending := rfl

/-! `tellKeyboard` touches at most: disp. -/

@[simp] theorem State.tellKeyboard_bus (s : State) : (s.tellKeyboard).bus = s.bus := rfl
@[simp] theorem State.tellKeyboard_intake (s : State) : (s.tellKeyboard).intake = s.intake := rfl
@[simp] theorem State.tellKeyboard_wheel (s : State) : (s.tellKeyboard).wheel = s.wheel := rfl
@[simp] theorem State.tellKeyboard_esc (s : State) : (s.tellKeyboard).esc = s.esc := rfl
@[simp] theorem State.tellKeyboard_lines (s : State) : (s.tellKeyboard).lines = s.lines := rfl
@[simp] theorem State.tellKeyboard_seq (s : State) : (s.tellKeyboard).seq = s.seq := rfl
@[simp] theorem State.tellKeyboard_corr (s : State) : (s.tellKeyboard).corr = s.corr := rfl
@[simp] theorem State.tellKeyboard_spell (s : State) : (s.tellKeyboard).spell = s.spell := rfl
@[simp] theorem State.tellKeyboard_alert (s : State) : (s.tellKeyboard).alert = s.alert := rfl
@[simp] theorem State.tellKeyboard_store (s : State) : (s.tellKeyboard).store = s.store := rfl
@[simp] theorem State.tellKeyboard_supply (s : State) : (s.tellKeyboard).supply = s.supply := rfl
@[simp] theorem State.tellKeyboard_pins (s : State) : (s.tellKeyboard).pins = s.pins := rfl
@[simp] theorem State.tellKeyboard_pending (s : State) : (s.tellKeyboard).pending = s.pending := rfl

/-! `reportIfChanged` touches at most: bus. -/

@[simp] theorem State.reportIfChanged_intake (s : State) (m : MachineState) : (s.reportIfChanged m).intake = s.intake := by unfold State.reportIfChanged; (repeat' split) <;> simp
@[simp] theorem State.reportIfChanged_wheel (s : State) (m : MachineState) : (s.reportIfChanged m).wheel = s.wheel := by unfold State.reportIfChanged; (repeat' split) <;> simp
@[simp] theorem State.reportIfChanged_esc (s : State) (m : MachineState) : (s.reportIfChanged m).esc = s.esc := by unfold State.reportIfChanged; (repeat' split) <;> simp
@[simp] theorem State.reportIfChanged_lines (s : State) (m : MachineState) : (s.reportIfChanged m).lines = s.lines := by unfold State.reportIfChanged; (repeat' split) <;> simp
@[simp] theorem State.reportIfChanged_seq (s : State) (m : MachineState) : (s.reportIfChanged m).seq = s.seq := by unfold State.reportIfChanged; (repeat' split) <;> simp
@[simp] theorem State.reportIfChanged_corr (s : State) (m : MachineState) : (s.reportIfChanged m).corr = s.corr := by unfold State.reportIfChanged; (repeat' split) <;> simp
@[simp] theorem State.reportIfChanged_spell (s : State) (m : MachineState) : (s.reportIfChanged m).spell = s.spell := by unfold State.reportIfChanged; (repeat' split) <;> simp
@[simp] theorem State.reportIfChanged_disp (s : State) (m : MachineState) : (s.reportIfChanged m).disp = s.disp := by unfold State.reportIfChanged; (repeat' split) <;> simp
@[simp] theorem State.reportIfChanged_alert (s : State) (m : MachineState) : (s.reportIfChanged m).alert = s.alert := by unfold State.reportIfChanged; (repeat' split) <;> simp
@[simp] theorem State.reportIfChanged_store (s : State) (m : MachineState) : (s.reportIfChanged m).store = s.store := by unfold State.reportIfChanged; (repeat' split) <;> simp
@[simp] theorem State.reportIfChanged_supply (s : State) (m : MachineState) : (s.reportIfChanged m).supply = s.supply := by unfold State.reportIfChanged; (repeat' split) <;> simp
@[simp] theorem State.reportIfChanged_pins (s : State) (m : MachineState) : (s.reportIfChanged m).pins = s.pins := by unfold State.reportIfChanged; (repeat' split) <;> simp
@[simp] theorem State.reportIfChanged_pending (s : State) (m : MachineState) : (s.reportIfChanged m).pending = s.pending := by unfold State.reportIfChanged; (repeat' split) <;> simp

/-! `setMech` touches at most: bus, seq, disp. -/

@[simp] theorem State.setMech_intake (s : State) (m : MechState) (p : Option PauseCause) (n : Option WheelNeed) : (s.setMech m p n).intake = s.intake := by simp [State.setMech]
@[simp] theorem State.setMech_wheel (s : State) (m : MechState) (p : Option PauseCause) (n : Option WheelNeed) : (s.setMech m p n).wheel = s.wheel := by simp [State.setMech]
@[simp] theorem State.setMech_esc (s : State) (m : MechState) (p : Option PauseCause) (n : Option WheelNeed) : (s.setMech m p n).esc = s.esc := by simp [State.setMech]
@[simp] theorem State.setMech_lines (s : State) (m : MechState) (p : Option PauseCause) (n : Option WheelNeed) : (s.setMech m p n).lines = s.lines := by simp [State.setMech]
@[simp] theorem State.setMech_corr (s : State) (m : MechState) (p : Option PauseCause) (n : Option WheelNeed) : (s.setMech m p n).corr = s.corr := by simp [State.setMech]
@[simp] theorem State.setMech_spell (s : State) (m : MechState) (p : Option PauseCause) (n : Option WheelNeed) : (s.setMech m p n).spell = s.spell := by simp [State.setMech]
@[simp] theorem State.setMech_alert (s : State) (m : MechState) (p : Option PauseCause) (n : Option WheelNeed) : (s.setMech m p n).alert = s.alert := by simp [State.setMech]
@[simp] theorem State.setMech_store (s : State) (m : MechState) (p : Option PauseCause) (n : Option WheelNeed) : (s.setMech m p n).store = s.store := by simp [State.setMech]
@[simp] theorem State.setMech_supply (s : State) (m : MechState) (p : Option PauseCause) (n : Option WheelNeed) : (s.setMech m p n).supply = s.supply := by simp [State.setMech]
@[simp] theorem State.setMech_pins (s : State) (m : MechState) (p : Option PauseCause) (n : Option WheelNeed) : (s.setMech m p n).pins = s.pins := by simp [State.setMech]
@[simp] theorem State.setMech_pending (s : State) (m : MechState) (p : Option PauseCause) (n : Option WheelNeed) : (s.setMech m p n).pending = s.pending := by simp [State.setMech]

/-! `setPower` touches at most: bus, supply. -/

@[simp] theorem State.setPower_intake (s : State) (p : Power) : (s.setPower p).intake = s.intake := by simp [State.setPower]
@[simp] theorem State.setPower_wheel (s : State) (p : Power) : (s.setPower p).wheel = s.wheel := by simp [State.setPower]
@[simp] theorem State.setPower_esc (s : State) (p : Power) : (s.setPower p).esc = s.esc := by simp [State.setPower]
@[simp] theorem State.setPower_lines (s : State) (p : Power) : (s.setPower p).lines = s.lines := by simp [State.setPower]
@[simp] theorem State.setPower_seq (s : State) (p : Power) : (s.setPower p).seq = s.seq := by simp [State.setPower]
@[simp] theorem State.setPower_corr (s : State) (p : Power) : (s.setPower p).corr = s.corr := by simp [State.setPower]
@[simp] theorem State.setPower_spell (s : State) (p : Power) : (s.setPower p).spell = s.spell := by simp [State.setPower]
@[simp] theorem State.setPower_disp (s : State) (p : Power) : (s.setPower p).disp = s.disp := by simp [State.setPower]
@[simp] theorem State.setPower_alert (s : State) (p : Power) : (s.setPower p).alert = s.alert := by simp [State.setPower]
@[simp] theorem State.setPower_store (s : State) (p : Power) : (s.setPower p).store = s.store := by simp [State.setPower]
@[simp] theorem State.setPower_pins (s : State) (p : Power) : (s.setPower p).pins = s.pins := by simp [State.setPower]
@[simp] theorem State.setPower_pending (s : State) (p : Power) : (s.setPower p).pending = s.pending := by simp [State.setPower]

/-! `writeBlock` touches at most: store. -/

@[simp] theorem State.writeBlock_bus (s : State) (b : Block) : (s.writeBlock b).bus = s.bus := by unfold State.writeBlock; (repeat' split) <;> simp
@[simp] theorem State.writeBlock_intake (s : State) (b : Block) : (s.writeBlock b).intake = s.intake := by unfold State.writeBlock; (repeat' split) <;> simp
@[simp] theorem State.writeBlock_wheel (s : State) (b : Block) : (s.writeBlock b).wheel = s.wheel := by unfold State.writeBlock; (repeat' split) <;> simp
@[simp] theorem State.writeBlock_esc (s : State) (b : Block) : (s.writeBlock b).esc = s.esc := by unfold State.writeBlock; (repeat' split) <;> simp
@[simp] theorem State.writeBlock_lines (s : State) (b : Block) : (s.writeBlock b).lines = s.lines := by unfold State.writeBlock; (repeat' split) <;> simp
@[simp] theorem State.writeBlock_seq (s : State) (b : Block) : (s.writeBlock b).seq = s.seq := by unfold State.writeBlock; (repeat' split) <;> simp
@[simp] theorem State.writeBlock_corr (s : State) (b : Block) : (s.writeBlock b).corr = s.corr := by unfold State.writeBlock; (repeat' split) <;> simp
@[simp] theorem State.writeBlock_spell (s : State) (b : Block) : (s.writeBlock b).spell = s.spell := by unfold State.writeBlock; (repeat' split) <;> simp
@[simp] theorem State.writeBlock_disp (s : State) (b : Block) : (s.writeBlock b).disp = s.disp := by unfold State.writeBlock; (repeat' split) <;> simp
@[simp] theorem State.writeBlock_alert (s : State) (b : Block) : (s.writeBlock b).alert = s.alert := by unfold State.writeBlock; (repeat' split) <;> simp
@[simp] theorem State.writeBlock_supply (s : State) (b : Block) : (s.writeBlock b).supply = s.supply := by unfold State.writeBlock; (repeat' split) <;> simp
@[simp] theorem State.writeBlock_pins (s : State) (b : Block) : (s.writeBlock b).pins = s.pins := by unfold State.writeBlock; (repeat' split) <;> simp
@[simp] theorem State.writeBlock_pending (s : State) (b : Block) : (s.writeBlock b).pending = s.pending := by unfold State.writeBlock; (repeat' split) <;> simp

/-! `startWrite` touches at most: store. -/

@[simp] theorem State.startWrite_bus (s : State) : (s.startWrite).bus = s.bus := by unfold State.startWrite; (repeat' split) <;> simp
@[simp] theorem State.startWrite_intake (s : State) : (s.startWrite).intake = s.intake := by unfold State.startWrite; (repeat' split) <;> simp
@[simp] theorem State.startWrite_wheel (s : State) : (s.startWrite).wheel = s.wheel := by unfold State.startWrite; (repeat' split) <;> simp
@[simp] theorem State.startWrite_esc (s : State) : (s.startWrite).esc = s.esc := by unfold State.startWrite; (repeat' split) <;> simp
@[simp] theorem State.startWrite_lines (s : State) : (s.startWrite).lines = s.lines := by unfold State.startWrite; (repeat' split) <;> simp
@[simp] theorem State.startWrite_seq (s : State) : (s.startWrite).seq = s.seq := by unfold State.startWrite; (repeat' split) <;> simp
@[simp] theorem State.startWrite_corr (s : State) : (s.startWrite).corr = s.corr := by unfold State.startWrite; (repeat' split) <;> simp
@[simp] theorem State.startWrite_spell (s : State) : (s.startWrite).spell = s.spell := by unfold State.startWrite; (repeat' split) <;> simp
@[simp] theorem State.startWrite_disp (s : State) : (s.startWrite).disp = s.disp := by unfold State.startWrite; (repeat' split) <;> simp
@[simp] theorem State.startWrite_alert (s : State) : (s.startWrite).alert = s.alert := by unfold State.startWrite; (repeat' split) <;> simp
@[simp] theorem State.startWrite_supply (s : State) : (s.startWrite).supply = s.supply := by unfold State.startWrite; (repeat' split) <;> simp
@[simp] theorem State.startWrite_pins (s : State) : (s.startWrite).pins = s.pins := by unfold State.startWrite; (repeat' split) <;> simp
@[simp] theorem State.startWrite_pending (s : State) : (s.startWrite).pending = s.pending := by unfold State.startWrite; (repeat' split) <;> simp

/-! `markTapeDirty` touches at most: store. -/

@[simp] theorem State.markTapeDirty_bus (s : State) : (s.markTapeDirty).bus = s.bus := by simp [State.markTapeDirty]
@[simp] theorem State.markTapeDirty_intake (s : State) : (s.markTapeDirty).intake = s.intake := by simp [State.markTapeDirty]
@[simp] theorem State.markTapeDirty_wheel (s : State) : (s.markTapeDirty).wheel = s.wheel := by simp [State.markTapeDirty]
@[simp] theorem State.markTapeDirty_esc (s : State) : (s.markTapeDirty).esc = s.esc := by simp [State.markTapeDirty]
@[simp] theorem State.markTapeDirty_lines (s : State) : (s.markTapeDirty).lines = s.lines := by simp [State.markTapeDirty]
@[simp] theorem State.markTapeDirty_seq (s : State) : (s.markTapeDirty).seq = s.seq := by simp [State.markTapeDirty]
@[simp] theorem State.markTapeDirty_corr (s : State) : (s.markTapeDirty).corr = s.corr := by simp [State.markTapeDirty]
@[simp] theorem State.markTapeDirty_spell (s : State) : (s.markTapeDirty).spell = s.spell := by simp [State.markTapeDirty]
@[simp] theorem State.markTapeDirty_disp (s : State) : (s.markTapeDirty).disp = s.disp := by simp [State.markTapeDirty]
@[simp] theorem State.markTapeDirty_alert (s : State) : (s.markTapeDirty).alert = s.alert := by simp [State.markTapeDirty]
@[simp] theorem State.markTapeDirty_supply (s : State) : (s.markTapeDirty).supply = s.supply := by simp [State.markTapeDirty]
@[simp] theorem State.markTapeDirty_pins (s : State) : (s.markTapeDirty).pins = s.pins := by simp [State.markTapeDirty]
@[simp] theorem State.markTapeDirty_pending (s : State) : (s.markTapeDirty).pending = s.pending := by simp [State.markTapeDirty]

/-! `enqueue` touches at most: seq. -/

@[simp] theorem State.enqueue_bus (s : State) (as : List Action) : (s.enqueue as).bus = s.bus := rfl
@[simp] theorem State.enqueue_intake (s : State) (as : List Action) : (s.enqueue as).intake = s.intake := rfl
@[simp] theorem State.enqueue_wheel (s : State) (as : List Action) : (s.enqueue as).wheel = s.wheel := rfl
@[simp] theorem State.enqueue_esc (s : State) (as : List Action) : (s.enqueue as).esc = s.esc := rfl
@[simp] theorem State.enqueue_lines (s : State) (as : List Action) : (s.enqueue as).lines = s.lines := rfl
@[simp] theorem State.enqueue_corr (s : State) (as : List Action) : (s.enqueue as).corr = s.corr := rfl
@[simp] theorem State.enqueue_spell (s : State) (as : List Action) : (s.enqueue as).spell = s.spell := rfl
@[simp] theorem State.enqueue_disp (s : State) (as : List Action) : (s.enqueue as).disp = s.disp := rfl
@[simp] theorem State.enqueue_alert (s : State) (as : List Action) : (s.enqueue as).alert = s.alert := rfl
@[simp] theorem State.enqueue_store (s : State) (as : List Action) : (s.enqueue as).store = s.store := rfl
@[simp] theorem State.enqueue_supply (s : State) (as : List Action) : (s.enqueue as).supply = s.supply := rfl
@[simp] theorem State.enqueue_pins (s : State) (as : List Action) : (s.enqueue as).pins = s.pins := rfl
@[simp] theorem State.enqueue_pending (s : State) (as : List Action) : (s.enqueue as).pending = s.pending := rfl

/-! `examineHead` touches at most: bus, seq, disp. -/

@[simp] theorem State.examineHead_intake (s : State) : (s.examineHead).intake = s.intake := by unfold State.examineHead; (repeat' split) <;> simp
@[simp] theorem State.examineHead_wheel (s : State) : (s.examineHead).wheel = s.wheel := by unfold State.examineHead; (repeat' split) <;> simp
@[simp] theorem State.examineHead_esc (s : State) : (s.examineHead).esc = s.esc := by unfold State.examineHead; (repeat' split) <;> simp
@[simp] theorem State.examineHead_lines (s : State) : (s.examineHead).lines = s.lines := by unfold State.examineHead; (repeat' split) <;> simp
@[simp] theorem State.examineHead_corr (s : State) : (s.examineHead).corr = s.corr := by unfold State.examineHead; (repeat' split) <;> simp
@[simp] theorem State.examineHead_spell (s : State) : (s.examineHead).spell = s.spell := by unfold State.examineHead; (repeat' split) <;> simp
@[simp] theorem State.examineHead_alert (s : State) : (s.examineHead).alert = s.alert := by unfold State.examineHead; (repeat' split) <;> simp
@[simp] theorem State.examineHead_store (s : State) : (s.examineHead).store = s.store := by unfold State.examineHead; (repeat' split) <;> simp
@[simp] theorem State.examineHead_supply (s : State) : (s.examineHead).supply = s.supply := by unfold State.examineHead; (repeat' split) <;> simp
@[simp] theorem State.examineHead_pins (s : State) : (s.examineHead).pins = s.pins := by unfold State.examineHead; (repeat' split) <;> simp
@[simp] theorem State.examineHead_pending (s : State) : (s.examineHead).pending = s.pending := by unfold State.examineHead; (repeat' split) <;> simp

/-! `startHoming` touches at most: bus, seq, disp. -/

@[simp] theorem State.startHoming_intake (s : State) (w : HomingWhy) : (s.startHoming w).intake = s.intake := by simp [State.startHoming]
@[simp] theorem State.startHoming_wheel (s : State) (w : HomingWhy) : (s.startHoming w).wheel = s.wheel := by simp [State.startHoming]
@[simp] theorem State.startHoming_esc (s : State) (w : HomingWhy) : (s.startHoming w).esc = s.esc := by simp [State.startHoming]
@[simp] theorem State.startHoming_lines (s : State) (w : HomingWhy) : (s.startHoming w).lines = s.lines := by simp [State.startHoming]
@[simp] theorem State.startHoming_corr (s : State) (w : HomingWhy) : (s.startHoming w).corr = s.corr := by simp [State.startHoming]
@[simp] theorem State.startHoming_spell (s : State) (w : HomingWhy) : (s.startHoming w).spell = s.spell := by simp [State.startHoming]
@[simp] theorem State.startHoming_alert (s : State) (w : HomingWhy) : (s.startHoming w).alert = s.alert := by simp [State.startHoming]
@[simp] theorem State.startHoming_store (s : State) (w : HomingWhy) : (s.startHoming w).store = s.store := by simp [State.startHoming]
@[simp] theorem State.startHoming_supply (s : State) (w : HomingWhy) : (s.startHoming w).supply = s.supply := by simp [State.startHoming]
@[simp] theorem State.startHoming_pins (s : State) (w : HomingWhy) : (s.startHoming w).pins = s.pins := by simp [State.startHoming]
@[simp] theorem State.startHoming_pending (s : State) (w : HomingWhy) : (s.startHoming w).pending = s.pending := by simp [State.startHoming]

/-! `setTape` touches at most: bus, corr. -/

@[simp] theorem State.setTape_intake (s : State) (n : Nat) : (s.setTape n).intake = s.intake := by simp only [State.setTape]; (repeat' split) <;> simp
@[simp] theorem State.setTape_wheel (s : State) (n : Nat) : (s.setTape n).wheel = s.wheel := by simp only [State.setTape]; (repeat' split) <;> simp
@[simp] theorem State.setTape_esc (s : State) (n : Nat) : (s.setTape n).esc = s.esc := by simp only [State.setTape]; (repeat' split) <;> simp
@[simp] theorem State.setTape_lines (s : State) (n : Nat) : (s.setTape n).lines = s.lines := by simp only [State.setTape]; (repeat' split) <;> simp
@[simp] theorem State.setTape_seq (s : State) (n : Nat) : (s.setTape n).seq = s.seq := by simp only [State.setTape]; (repeat' split) <;> simp
@[simp] theorem State.setTape_spell (s : State) (n : Nat) : (s.setTape n).spell = s.spell := by simp only [State.setTape]; (repeat' split) <;> simp
@[simp] theorem State.setTape_disp (s : State) (n : Nat) : (s.setTape n).disp = s.disp := by simp only [State.setTape]; (repeat' split) <;> simp
@[simp] theorem State.setTape_alert (s : State) (n : Nat) : (s.setTape n).alert = s.alert := by simp only [State.setTape]; (repeat' split) <;> simp
@[simp] theorem State.setTape_store (s : State) (n : Nat) : (s.setTape n).store = s.store := by simp only [State.setTape]; (repeat' split) <;> simp
@[simp] theorem State.setTape_supply (s : State) (n : Nat) : (s.setTape n).supply = s.supply := by simp only [State.setTape]; (repeat' split) <;> simp
@[simp] theorem State.setTape_pins (s : State) (n : Nat) : (s.setTape n).pins = s.pins := by simp only [State.setTape]; (repeat' split) <;> simp
@[simp] theorem State.setTape_pending (s : State) (n : Nat) : (s.setTape n).pending = s.pending := by simp only [State.setTape]; (repeat' split) <;> simp

/-! `updateLine` touches at most: lines. -/

@[simp] theorem State.updateLine_bus (s : State) (n : Word) (f : Line → Line) : (s.updateLine n f).bus = s.bus := rfl
@[simp] theorem State.updateLine_intake (s : State) (n : Word) (f : Line → Line) : (s.updateLine n f).intake = s.intake := rfl
@[simp] theorem State.updateLine_wheel (s : State) (n : Word) (f : Line → Line) : (s.updateLine n f).wheel = s.wheel := rfl
@[simp] theorem State.updateLine_esc (s : State) (n : Word) (f : Line → Line) : (s.updateLine n f).esc = s.esc := rfl
@[simp] theorem State.updateLine_seq (s : State) (n : Word) (f : Line → Line) : (s.updateLine n f).seq = s.seq := rfl
@[simp] theorem State.updateLine_corr (s : State) (n : Word) (f : Line → Line) : (s.updateLine n f).corr = s.corr := rfl
@[simp] theorem State.updateLine_spell (s : State) (n : Word) (f : Line → Line) : (s.updateLine n f).spell = s.spell := rfl
@[simp] theorem State.updateLine_disp (s : State) (n : Word) (f : Line → Line) : (s.updateLine n f).disp = s.disp := rfl
@[simp] theorem State.updateLine_alert (s : State) (n : Word) (f : Line → Line) : (s.updateLine n f).alert = s.alert := rfl
@[simp] theorem State.updateLine_store (s : State) (n : Word) (f : Line → Line) : (s.updateLine n f).store = s.store := rfl
@[simp] theorem State.updateLine_supply (s : State) (n : Word) (f : Line → Line) : (s.updateLine n f).supply = s.supply := rfl
@[simp] theorem State.updateLine_pins (s : State) (n : Word) (f : Line → Line) : (s.updateLine n f).pins = s.pins := rfl
@[simp] theorem State.updateLine_pending (s : State) (n : Word) (f : Line → Line) : (s.updateLine n f).pending = s.pending := rfl

/-! `setWord` touches at most: lines. -/

@[simp] theorem State.setWord_bus (s : State) (l n : Word) (w : WordState) (t : Option (Fin 4)) : (s.setWord l n w t).bus = s.bus := rfl
@[simp] theorem State.setWord_intake (s : State) (l n : Word) (w : WordState) (t : Option (Fin 4)) : (s.setWord l n w t).intake = s.intake := rfl
@[simp] theorem State.setWord_wheel (s : State) (l n : Word) (w : WordState) (t : Option (Fin 4)) : (s.setWord l n w t).wheel = s.wheel := rfl
@[simp] theorem State.setWord_esc (s : State) (l n : Word) (w : WordState) (t : Option (Fin 4)) : (s.setWord l n w t).esc = s.esc := rfl
@[simp] theorem State.setWord_seq (s : State) (l n : Word) (w : WordState) (t : Option (Fin 4)) : (s.setWord l n w t).seq = s.seq := rfl
@[simp] theorem State.setWord_corr (s : State) (l n : Word) (w : WordState) (t : Option (Fin 4)) : (s.setWord l n w t).corr = s.corr := rfl
@[simp] theorem State.setWord_spell (s : State) (l n : Word) (w : WordState) (t : Option (Fin 4)) : (s.setWord l n w t).spell = s.spell := rfl
@[simp] theorem State.setWord_disp (s : State) (l n : Word) (w : WordState) (t : Option (Fin 4)) : (s.setWord l n w t).disp = s.disp := rfl
@[simp] theorem State.setWord_alert (s : State) (l n : Word) (w : WordState) (t : Option (Fin 4)) : (s.setWord l n w t).alert = s.alert := rfl
@[simp] theorem State.setWord_store (s : State) (l n : Word) (w : WordState) (t : Option (Fin 4)) : (s.setWord l n w t).store = s.store := rfl
@[simp] theorem State.setWord_supply (s : State) (l n : Word) (w : WordState) (t : Option (Fin 4)) : (s.setWord l n w t).supply = s.supply := rfl
@[simp] theorem State.setWord_pins (s : State) (l n : Word) (w : WordState) (t : Option (Fin 4)) : (s.setWord l n w t).pins = s.pins := rfl
@[simp] theorem State.setWord_pending (s : State) (l n : Word) (w : WordState) (t : Option (Fin 4)) : (s.setWord l n w t).pending = s.pending := rfl

/-! `setSlot` touches at most: spell. -/

@[simp] theorem State.setSlot_bus (s : State) (t : Fin 4) (x : Slot) : (s.setSlot t x).bus = s.bus := rfl
@[simp] theorem State.setSlot_intake (s : State) (t : Fin 4) (x : Slot) : (s.setSlot t x).intake = s.intake := rfl
@[simp] theorem State.setSlot_wheel (s : State) (t : Fin 4) (x : Slot) : (s.setSlot t x).wheel = s.wheel := rfl
@[simp] theorem State.setSlot_esc (s : State) (t : Fin 4) (x : Slot) : (s.setSlot t x).esc = s.esc := rfl
@[simp] theorem State.setSlot_lines (s : State) (t : Fin 4) (x : Slot) : (s.setSlot t x).lines = s.lines := rfl
@[simp] theorem State.setSlot_seq (s : State) (t : Fin 4) (x : Slot) : (s.setSlot t x).seq = s.seq := rfl
@[simp] theorem State.setSlot_corr (s : State) (t : Fin 4) (x : Slot) : (s.setSlot t x).corr = s.corr := rfl
@[simp] theorem State.setSlot_disp (s : State) (t : Fin 4) (x : Slot) : (s.setSlot t x).disp = s.disp := rfl
@[simp] theorem State.setSlot_alert (s : State) (t : Fin 4) (x : Slot) : (s.setSlot t x).alert = s.alert := rfl
@[simp] theorem State.setSlot_store (s : State) (t : Fin 4) (x : Slot) : (s.setSlot t x).store = s.store := rfl
@[simp] theorem State.setSlot_supply (s : State) (t : Fin 4) (x : Slot) : (s.setSlot t x).supply = s.supply := rfl
@[simp] theorem State.setSlot_pins (s : State) (t : Fin 4) (x : Slot) : (s.setSlot t x).pins = s.pins := rfl
@[simp] theorem State.setSlot_pending (s : State) (t : Fin 4) (x : Slot) : (s.setSlot t x).pending = s.pending := rfl

/-! `slotTakes` touches at most: bus, lines, spell. -/

@[simp] theorem State.slotTakes_intake (s : State) (t : Fin 4) (l n : Word) (r : DictRole) (a : Option DictRole) : (s.slotTakes t l n r a).intake = s.intake := by simp [State.slotTakes]
@[simp] theorem State.slotTakes_wheel (s : State) (t : Fin 4) (l n : Word) (r : DictRole) (a : Option DictRole) : (s.slotTakes t l n r a).wheel = s.wheel := by simp [State.slotTakes]
@[simp] theorem State.slotTakes_esc (s : State) (t : Fin 4) (l n : Word) (r : DictRole) (a : Option DictRole) : (s.slotTakes t l n r a).esc = s.esc := by simp [State.slotTakes]
@[simp] theorem State.slotTakes_seq (s : State) (t : Fin 4) (l n : Word) (r : DictRole) (a : Option DictRole) : (s.slotTakes t l n r a).seq = s.seq := by simp [State.slotTakes]
@[simp] theorem State.slotTakes_corr (s : State) (t : Fin 4) (l n : Word) (r : DictRole) (a : Option DictRole) : (s.slotTakes t l n r a).corr = s.corr := by simp [State.slotTakes]
@[simp] theorem State.slotTakes_disp (s : State) (t : Fin 4) (l n : Word) (r : DictRole) (a : Option DictRole) : (s.slotTakes t l n r a).disp = s.disp := by simp [State.slotTakes]
@[simp] theorem State.slotTakes_alert (s : State) (t : Fin 4) (l n : Word) (r : DictRole) (a : Option DictRole) : (s.slotTakes t l n r a).alert = s.alert := by simp [State.slotTakes]
@[simp] theorem State.slotTakes_store (s : State) (t : Fin 4) (l n : Word) (r : DictRole) (a : Option DictRole) : (s.slotTakes t l n r a).store = s.store := by simp [State.slotTakes]
@[simp] theorem State.slotTakes_supply (s : State) (t : Fin 4) (l n : Word) (r : DictRole) (a : Option DictRole) : (s.slotTakes t l n r a).supply = s.supply := by simp [State.slotTakes]
@[simp] theorem State.slotTakes_pins (s : State) (t : Fin 4) (l n : Word) (r : DictRole) (a : Option DictRole) : (s.slotTakes t l n r a).pins = s.pins := by simp [State.slotTakes]
@[simp] theorem State.slotTakes_pending (s : State) (t : Fin 4) (l n : Word) (r : DictRole) (a : Option DictRole) : (s.slotTakes t l n r a).pending = s.pending := by simp [State.slotTakes]

/-! `takeItemsUpTo` touches at most: bus, lines, spell. -/

@[simp] theorem State.takeItemsUpTo_intake (s : State) (n : Nat) : (s.takeItemsUpTo n).intake = s.intake := by
  induction n generalizing s with
  | zero => rfl
  | succ n ih => simp only [State.takeItemsUpTo]; (repeat' split) <;> simp [ih]
@[simp] theorem State.takeItemsUpTo_wheel (s : State) (n : Nat) : (s.takeItemsUpTo n).wheel = s.wheel := by
  induction n generalizing s with
  | zero => rfl
  | succ n ih => simp only [State.takeItemsUpTo]; (repeat' split) <;> simp [ih]
@[simp] theorem State.takeItemsUpTo_esc (s : State) (n : Nat) : (s.takeItemsUpTo n).esc = s.esc := by
  induction n generalizing s with
  | zero => rfl
  | succ n ih => simp only [State.takeItemsUpTo]; (repeat' split) <;> simp [ih]
@[simp] theorem State.takeItemsUpTo_seq (s : State) (n : Nat) : (s.takeItemsUpTo n).seq = s.seq := by
  induction n generalizing s with
  | zero => rfl
  | succ n ih => simp only [State.takeItemsUpTo]; (repeat' split) <;> simp [ih]
@[simp] theorem State.takeItemsUpTo_corr (s : State) (n : Nat) : (s.takeItemsUpTo n).corr = s.corr := by
  induction n generalizing s with
  | zero => rfl
  | succ n ih => simp only [State.takeItemsUpTo]; (repeat' split) <;> simp [ih]
@[simp] theorem State.takeItemsUpTo_disp (s : State) (n : Nat) : (s.takeItemsUpTo n).disp = s.disp := by
  induction n generalizing s with
  | zero => rfl
  | succ n ih => simp only [State.takeItemsUpTo]; (repeat' split) <;> simp [ih]
@[simp] theorem State.takeItemsUpTo_alert (s : State) (n : Nat) : (s.takeItemsUpTo n).alert = s.alert := by
  induction n generalizing s with
  | zero => rfl
  | succ n ih => simp only [State.takeItemsUpTo]; (repeat' split) <;> simp [ih]
@[simp] theorem State.takeItemsUpTo_store (s : State) (n : Nat) : (s.takeItemsUpTo n).store = s.store := by
  induction n generalizing s with
  | zero => rfl
  | succ n ih => simp only [State.takeItemsUpTo]; (repeat' split) <;> simp [ih]
@[simp] theorem State.takeItemsUpTo_supply (s : State) (n : Nat) : (s.takeItemsUpTo n).supply = s.supply := by
  induction n generalizing s with
  | zero => rfl
  | succ n ih => simp only [State.takeItemsUpTo]; (repeat' split) <;> simp [ih]
@[simp] theorem State.takeItemsUpTo_pins (s : State) (n : Nat) : (s.takeItemsUpTo n).pins = s.pins := by
  induction n generalizing s with
  | zero => rfl
  | succ n ih => simp only [State.takeItemsUpTo]; (repeat' split) <;> simp [ih]
@[simp] theorem State.takeItemsUpTo_pending (s : State) (n : Nat) : (s.takeItemsUpTo n).pending = s.pending := by
  induction n generalizing s with
  | zero => rfl
  | succ n ih => simp only [State.takeItemsUpTo]; (repeat' split) <;> simp [ih]

/-! `takeItems` touches at most: bus, lines, spell. -/

@[simp] theorem State.takeItems_intake (s : State) : (s.takeItems).intake = s.intake := by simp [State.takeItems]
@[simp] theorem State.takeItems_wheel (s : State) : (s.takeItems).wheel = s.wheel := by simp [State.takeItems]
@[simp] theorem State.takeItems_esc (s : State) : (s.takeItems).esc = s.esc := by simp [State.takeItems]
@[simp] theorem State.takeItems_seq (s : State) : (s.takeItems).seq = s.seq := by simp [State.takeItems]
@[simp] theorem State.takeItems_corr (s : State) : (s.takeItems).corr = s.corr := by simp [State.takeItems]
@[simp] theorem State.takeItems_disp (s : State) : (s.takeItems).disp = s.disp := by simp [State.takeItems]
@[simp] theorem State.takeItems_alert (s : State) : (s.takeItems).alert = s.alert := by simp [State.takeItems]
@[simp] theorem State.takeItems_store (s : State) : (s.takeItems).store = s.store := by simp [State.takeItems]
@[simp] theorem State.takeItems_supply (s : State) : (s.takeItems).supply = s.supply := by simp [State.takeItems]
@[simp] theorem State.takeItems_pins (s : State) : (s.takeItems).pins = s.pins := by simp [State.takeItems]
@[simp] theorem State.takeItems_pending (s : State) : (s.takeItems).pending = s.pending := by simp [State.takeItems]

/-! `freeSlot` touches at most: bus, lines, spell. -/

@[simp] theorem State.freeSlot_intake (s : State) (t : Fin 4) : (s.freeSlot t).intake = s.intake := by simp [State.freeSlot]
@[simp] theorem State.freeSlot_wheel (s : State) (t : Fin 4) : (s.freeSlot t).wheel = s.wheel := by simp [State.freeSlot]
@[simp] theorem State.freeSlot_esc (s : State) (t : Fin 4) : (s.freeSlot t).esc = s.esc := by simp [State.freeSlot]
@[simp] theorem State.freeSlot_seq (s : State) (t : Fin 4) : (s.freeSlot t).seq = s.seq := by simp [State.freeSlot]
@[simp] theorem State.freeSlot_corr (s : State) (t : Fin 4) : (s.freeSlot t).corr = s.corr := by simp [State.freeSlot]
@[simp] theorem State.freeSlot_disp (s : State) (t : Fin 4) : (s.freeSlot t).disp = s.disp := by simp [State.freeSlot]
@[simp] theorem State.freeSlot_alert (s : State) (t : Fin 4) : (s.freeSlot t).alert = s.alert := by simp [State.freeSlot]
@[simp] theorem State.freeSlot_store (s : State) (t : Fin 4) : (s.freeSlot t).store = s.store := by simp [State.freeSlot]
@[simp] theorem State.freeSlot_supply (s : State) (t : Fin 4) : (s.freeSlot t).supply = s.supply := by simp [State.freeSlot]
@[simp] theorem State.freeSlot_pins (s : State) (t : Fin 4) : (s.freeSlot t).pins = s.pins := by simp [State.freeSlot]
@[simp] theorem State.freeSlot_pending (s : State) (t : Fin 4) : (s.freeSlot t).pending = s.pending := by simp [State.freeSlot]

/-! `appendPending` touches at most: lines, spell. -/

@[simp] theorem State.appendPending_bus (s : State) (i : PendingItem) : (s.appendPending i).bus = s.bus := by unfold State.appendPending; (repeat' split) <;> simp
@[simp] theorem State.appendPending_intake (s : State) (i : PendingItem) : (s.appendPending i).intake = s.intake := by unfold State.appendPending; (repeat' split) <;> simp
@[simp] theorem State.appendPending_wheel (s : State) (i : PendingItem) : (s.appendPending i).wheel = s.wheel := by unfold State.appendPending; (repeat' split) <;> simp
@[simp] theorem State.appendPending_esc (s : State) (i : PendingItem) : (s.appendPending i).esc = s.esc := by unfold State.appendPending; (repeat' split) <;> simp
@[simp] theorem State.appendPending_seq (s : State) (i : PendingItem) : (s.appendPending i).seq = s.seq := by unfold State.appendPending; (repeat' split) <;> simp
@[simp] theorem State.appendPending_corr (s : State) (i : PendingItem) : (s.appendPending i).corr = s.corr := by unfold State.appendPending; (repeat' split) <;> simp
@[simp] theorem State.appendPending_disp (s : State) (i : PendingItem) : (s.appendPending i).disp = s.disp := by unfold State.appendPending; (repeat' split) <;> simp
@[simp] theorem State.appendPending_alert (s : State) (i : PendingItem) : (s.appendPending i).alert = s.alert := by unfold State.appendPending; (repeat' split) <;> simp
@[simp] theorem State.appendPending_store (s : State) (i : PendingItem) : (s.appendPending i).store = s.store := by unfold State.appendPending; (repeat' split) <;> simp
@[simp] theorem State.appendPending_supply (s : State) (i : PendingItem) : (s.appendPending i).supply = s.supply := by unfold State.appendPending; (repeat' split) <;> simp
@[simp] theorem State.appendPending_pins (s : State) (i : PendingItem) : (s.appendPending i).pins = s.pins := by unfold State.appendPending; (repeat' split) <;> simp
@[simp] theorem State.appendPending_pending (s : State) (i : PendingItem) : (s.appendPending i).pending = s.pending := by unfold State.appendPending; (repeat' split) <;> simp

/-! `returnPending` touches at most: lines, spell. -/

@[simp] theorem State.returnPending_bus (s : State) (i : PendingItem) : (s.returnPending i).bus = s.bus := by unfold State.returnPending; (repeat' split) <;> simp
@[simp] theorem State.returnPending_intake (s : State) (i : PendingItem) : (s.returnPending i).intake = s.intake := by unfold State.returnPending; (repeat' split) <;> simp
@[simp] theorem State.returnPending_wheel (s : State) (i : PendingItem) : (s.returnPending i).wheel = s.wheel := by unfold State.returnPending; (repeat' split) <;> simp
@[simp] theorem State.returnPending_esc (s : State) (i : PendingItem) : (s.returnPending i).esc = s.esc := by unfold State.returnPending; (repeat' split) <;> simp
@[simp] theorem State.returnPending_seq (s : State) (i : PendingItem) : (s.returnPending i).seq = s.seq := by unfold State.returnPending; (repeat' split) <;> simp
@[simp] theorem State.returnPending_corr (s : State) (i : PendingItem) : (s.returnPending i).corr = s.corr := by unfold State.returnPending; (repeat' split) <;> simp
@[simp] theorem State.returnPending_disp (s : State) (i : PendingItem) : (s.returnPending i).disp = s.disp := by unfold State.returnPending; (repeat' split) <;> simp
@[simp] theorem State.returnPending_alert (s : State) (i : PendingItem) : (s.returnPending i).alert = s.alert := by unfold State.returnPending; (repeat' split) <;> simp
@[simp] theorem State.returnPending_store (s : State) (i : PendingItem) : (s.returnPending i).store = s.store := by unfold State.returnPending; (repeat' split) <;> simp
@[simp] theorem State.returnPending_supply (s : State) (i : PendingItem) : (s.returnPending i).supply = s.supply := by unfold State.returnPending; (repeat' split) <;> simp
@[simp] theorem State.returnPending_pins (s : State) (i : PendingItem) : (s.returnPending i).pins = s.pins := by unfold State.returnPending; (repeat' split) <;> simp
@[simp] theorem State.returnPending_pending (s : State) (i : PendingItem) : (s.returnPending i).pending = s.pending := by unfold State.returnPending; (repeat' split) <;> simp

/-! `handWord` touches at most: bus, lines, spell. -/

@[simp] theorem State.handWord_intake (s : State) (l n : Word) : (s.handWord l n).intake = s.intake := by simp only [State.handWord]; (repeat' split) <;> simp
@[simp] theorem State.handWord_wheel (s : State) (l n : Word) : (s.handWord l n).wheel = s.wheel := by simp only [State.handWord]; (repeat' split) <;> simp
@[simp] theorem State.handWord_esc (s : State) (l n : Word) : (s.handWord l n).esc = s.esc := by simp only [State.handWord]; (repeat' split) <;> simp
@[simp] theorem State.handWord_seq (s : State) (l n : Word) : (s.handWord l n).seq = s.seq := by simp only [State.handWord]; (repeat' split) <;> simp
@[simp] theorem State.handWord_corr (s : State) (l n : Word) : (s.handWord l n).corr = s.corr := by simp only [State.handWord]; (repeat' split) <;> simp
@[simp] theorem State.handWord_disp (s : State) (l n : Word) : (s.handWord l n).disp = s.disp := by simp only [State.handWord]; (repeat' split) <;> simp
@[simp] theorem State.handWord_alert (s : State) (l n : Word) : (s.handWord l n).alert = s.alert := by simp only [State.handWord]; (repeat' split) <;> simp
@[simp] theorem State.handWord_store (s : State) (l n : Word) : (s.handWord l n).store = s.store := by simp only [State.handWord]; (repeat' split) <;> simp
@[simp] theorem State.handWord_supply (s : State) (l n : Word) : (s.handWord l n).supply = s.supply := by simp only [State.handWord]; (repeat' split) <;> simp
@[simp] theorem State.handWord_pins (s : State) (l n : Word) : (s.handWord l n).pins = s.pins := by simp only [State.handWord]; (repeat' split) <;> simp
@[simp] theorem State.handWord_pending (s : State) (l n : Word) : (s.handWord l n).pending = s.pending := by simp only [State.handWord]; (repeat' split) <;> simp

/-! `dropWord` touches at most: spell. -/

@[simp] theorem State.dropWord_bus (s : State) (l n : Word) : (s.dropWord l n).bus = s.bus := rfl
@[simp] theorem State.dropWord_intake (s : State) (l n : Word) : (s.dropWord l n).intake = s.intake := rfl
@[simp] theorem State.dropWord_wheel (s : State) (l n : Word) : (s.dropWord l n).wheel = s.wheel := rfl
@[simp] theorem State.dropWord_esc (s : State) (l n : Word) : (s.dropWord l n).esc = s.esc := rfl
@[simp] theorem State.dropWord_lines (s : State) (l n : Word) : (s.dropWord l n).lines = s.lines := rfl
@[simp] theorem State.dropWord_seq (s : State) (l n : Word) : (s.dropWord l n).seq = s.seq := rfl
@[simp] theorem State.dropWord_corr (s : State) (l n : Word) : (s.dropWord l n).corr = s.corr := rfl
@[simp] theorem State.dropWord_disp (s : State) (l n : Word) : (s.dropWord l n).disp = s.disp := rfl
@[simp] theorem State.dropWord_alert (s : State) (l n : Word) : (s.dropWord l n).alert = s.alert := rfl
@[simp] theorem State.dropWord_store (s : State) (l n : Word) : (s.dropWord l n).store = s.store := rfl
@[simp] theorem State.dropWord_supply (s : State) (l n : Word) : (s.dropWord l n).supply = s.supply := rfl
@[simp] theorem State.dropWord_pins (s : State) (l n : Word) : (s.dropWord l n).pins = s.pins := rfl
@[simp] theorem State.dropWord_pending (s : State) (l n : Word) : (s.dropWord l n).pending = s.pending := rfl

/-! `resegment` touches at most: bus, lines, spell. -/

@[simp] theorem State.resegment_intake (s : State) (n : Word) : (s.resegment n).intake = s.intake := by
  simp only [State.resegment]
  split
  · rfl
  · exact (foldl_keeps (fun t : State => t.intake) (fun _ _ => by simp) _ _).trans
      ((foldl_keeps (fun t : State => t.intake) (fun _ _ => by simp) _ _).trans rfl)
@[simp] theorem State.resegment_wheel (s : State) (n : Word) : (s.resegment n).wheel = s.wheel := by
  simp only [State.resegment]
  split
  · rfl
  · exact (foldl_keeps (fun t : State => t.wheel) (fun _ _ => by simp) _ _).trans
      ((foldl_keeps (fun t : State => t.wheel) (fun _ _ => by simp) _ _).trans rfl)
@[simp] theorem State.resegment_esc (s : State) (n : Word) : (s.resegment n).esc = s.esc := by
  simp only [State.resegment]
  split
  · rfl
  · exact (foldl_keeps (fun t : State => t.esc) (fun _ _ => by simp) _ _).trans
      ((foldl_keeps (fun t : State => t.esc) (fun _ _ => by simp) _ _).trans rfl)
@[simp] theorem State.resegment_seq (s : State) (n : Word) : (s.resegment n).seq = s.seq := by
  simp only [State.resegment]
  split
  · rfl
  · exact (foldl_keeps (fun t : State => t.seq) (fun _ _ => by simp) _ _).trans
      ((foldl_keeps (fun t : State => t.seq) (fun _ _ => by simp) _ _).trans rfl)
@[simp] theorem State.resegment_corr (s : State) (n : Word) : (s.resegment n).corr = s.corr := by
  simp only [State.resegment]
  split
  · rfl
  · exact (foldl_keeps (fun t : State => t.corr) (fun _ _ => by simp) _ _).trans
      ((foldl_keeps (fun t : State => t.corr) (fun _ _ => by simp) _ _).trans rfl)
@[simp] theorem State.resegment_disp (s : State) (n : Word) : (s.resegment n).disp = s.disp := by
  simp only [State.resegment]
  split
  · rfl
  · exact (foldl_keeps (fun t : State => t.disp) (fun _ _ => by simp) _ _).trans
      ((foldl_keeps (fun t : State => t.disp) (fun _ _ => by simp) _ _).trans rfl)
@[simp] theorem State.resegment_alert (s : State) (n : Word) : (s.resegment n).alert = s.alert := by
  simp only [State.resegment]
  split
  · rfl
  · exact (foldl_keeps (fun t : State => t.alert) (fun _ _ => by simp) _ _).trans
      ((foldl_keeps (fun t : State => t.alert) (fun _ _ => by simp) _ _).trans rfl)
@[simp] theorem State.resegment_store (s : State) (n : Word) : (s.resegment n).store = s.store := by
  simp only [State.resegment]
  split
  · rfl
  · exact (foldl_keeps (fun t : State => t.store) (fun _ _ => by simp) _ _).trans
      ((foldl_keeps (fun t : State => t.store) (fun _ _ => by simp) _ _).trans rfl)
@[simp] theorem State.resegment_supply (s : State) (n : Word) : (s.resegment n).supply = s.supply := by
  simp only [State.resegment]
  split
  · rfl
  · exact (foldl_keeps (fun t : State => t.supply) (fun _ _ => by simp) _ _).trans
      ((foldl_keeps (fun t : State => t.supply) (fun _ _ => by simp) _ _).trans rfl)
@[simp] theorem State.resegment_pins (s : State) (n : Word) : (s.resegment n).pins = s.pins := by
  simp only [State.resegment]
  split
  · rfl
  · exact (foldl_keeps (fun t : State => t.pins) (fun _ _ => by simp) _ _).trans
      ((foldl_keeps (fun t : State => t.pins) (fun _ _ => by simp) _ _).trans rfl)
@[simp] theorem State.resegment_pending (s : State) (n : Word) : (s.resegment n).pending = s.pending := by
  simp only [State.resegment]
  split
  · rfl
  · exact (foldl_keeps (fun t : State => t.pending) (fun _ _ => by simp) _ _).trans
      ((foldl_keeps (fun t : State => t.pending) (fun _ _ => by simp) _ _).trans rfl)

/-! `setStation` touches at most: bus. -/

@[simp] theorem State.setStation_intake (s : State) (n : StationNo) (r : Station) : (s.setStation n r).intake = s.intake := rfl
@[simp] theorem State.setStation_wheel (s : State) (n : StationNo) (r : Station) : (s.setStation n r).wheel = s.wheel := rfl
@[simp] theorem State.setStation_esc (s : State) (n : StationNo) (r : Station) : (s.setStation n r).esc = s.esc := rfl
@[simp] theorem State.setStation_lines (s : State) (n : StationNo) (r : Station) : (s.setStation n r).lines = s.lines := rfl
@[simp] theorem State.setStation_seq (s : State) (n : StationNo) (r : Station) : (s.setStation n r).seq = s.seq := rfl
@[simp] theorem State.setStation_corr (s : State) (n : StationNo) (r : Station) : (s.setStation n r).corr = s.corr := rfl
@[simp] theorem State.setStation_spell (s : State) (n : StationNo) (r : Station) : (s.setStation n r).spell = s.spell := rfl
@[simp] theorem State.setStation_disp (s : State) (n : StationNo) (r : Station) : (s.setStation n r).disp = s.disp := rfl
@[simp] theorem State.setStation_alert (s : State) (n : StationNo) (r : Station) : (s.setStation n r).alert = s.alert := rfl
@[simp] theorem State.setStation_store (s : State) (n : StationNo) (r : Station) : (s.setStation n r).store = s.store := rfl
@[simp] theorem State.setStation_supply (s : State) (n : StationNo) (r : Station) : (s.setStation n r).supply = s.supply := rfl
@[simp] theorem State.setStation_pins (s : State) (n : StationNo) (r : Station) : (s.setStation n r).pins = s.pins := rfl
@[simp] theorem State.setStation_pending (s : State) (n : StationNo) (r : Station) : (s.setStation n r).pending = s.pending := rfl

/-! `countUnanswered` touches at most: bus. -/

@[simp] theorem State.countUnanswered_intake (s : State) (n : StationNo) : (s.countUnanswered n).intake = s.intake := by simp only [State.countUnanswered]; (repeat' split) <;> simp
@[simp] theorem State.countUnanswered_wheel (s : State) (n : StationNo) : (s.countUnanswered n).wheel = s.wheel := by simp only [State.countUnanswered]; (repeat' split) <;> simp
@[simp] theorem State.countUnanswered_esc (s : State) (n : StationNo) : (s.countUnanswered n).esc = s.esc := by simp only [State.countUnanswered]; (repeat' split) <;> simp
@[simp] theorem State.countUnanswered_lines (s : State) (n : StationNo) : (s.countUnanswered n).lines = s.lines := by simp only [State.countUnanswered]; (repeat' split) <;> simp
@[simp] theorem State.countUnanswered_seq (s : State) (n : StationNo) : (s.countUnanswered n).seq = s.seq := by simp only [State.countUnanswered]; (repeat' split) <;> simp
@[simp] theorem State.countUnanswered_corr (s : State) (n : StationNo) : (s.countUnanswered n).corr = s.corr := by simp only [State.countUnanswered]; (repeat' split) <;> simp
@[simp] theorem State.countUnanswered_spell (s : State) (n : StationNo) : (s.countUnanswered n).spell = s.spell := by simp only [State.countUnanswered]; (repeat' split) <;> simp
@[simp] theorem State.countUnanswered_disp (s : State) (n : StationNo) : (s.countUnanswered n).disp = s.disp := by simp only [State.countUnanswered]; (repeat' split) <;> simp
@[simp] theorem State.countUnanswered_alert (s : State) (n : StationNo) : (s.countUnanswered n).alert = s.alert := by simp only [State.countUnanswered]; (repeat' split) <;> simp
@[simp] theorem State.countUnanswered_store (s : State) (n : StationNo) : (s.countUnanswered n).store = s.store := by simp only [State.countUnanswered]; (repeat' split) <;> simp
@[simp] theorem State.countUnanswered_supply (s : State) (n : StationNo) : (s.countUnanswered n).supply = s.supply := by simp only [State.countUnanswered]; (repeat' split) <;> simp
@[simp] theorem State.countUnanswered_pins (s : State) (n : StationNo) : (s.countUnanswered n).pins = s.pins := by simp only [State.countUnanswered]; (repeat' split) <;> simp
@[simp] theorem State.countUnanswered_pending (s : State) (n : StationNo) : (s.countUnanswered n).pending = s.pending := by simp only [State.countUnanswered]; (repeat' split) <;> simp

/-! `clearUnanswered` touches at most: bus. -/

@[simp] theorem State.clearUnanswered_intake (s : State) (n : StationNo) : (s.clearUnanswered n).intake = s.intake := by simp only [State.clearUnanswered]; (repeat' split) <;> simp
@[simp] theorem State.clearUnanswered_wheel (s : State) (n : StationNo) : (s.clearUnanswered n).wheel = s.wheel := by simp only [State.clearUnanswered]; (repeat' split) <;> simp
@[simp] theorem State.clearUnanswered_esc (s : State) (n : StationNo) : (s.clearUnanswered n).esc = s.esc := by simp only [State.clearUnanswered]; (repeat' split) <;> simp
@[simp] theorem State.clearUnanswered_lines (s : State) (n : StationNo) : (s.clearUnanswered n).lines = s.lines := by simp only [State.clearUnanswered]; (repeat' split) <;> simp
@[simp] theorem State.clearUnanswered_seq (s : State) (n : StationNo) : (s.clearUnanswered n).seq = s.seq := by simp only [State.clearUnanswered]; (repeat' split) <;> simp
@[simp] theorem State.clearUnanswered_corr (s : State) (n : StationNo) : (s.clearUnanswered n).corr = s.corr := by simp only [State.clearUnanswered]; (repeat' split) <;> simp
@[simp] theorem State.clearUnanswered_spell (s : State) (n : StationNo) : (s.clearUnanswered n).spell = s.spell := by simp only [State.clearUnanswered]; (repeat' split) <;> simp
@[simp] theorem State.clearUnanswered_disp (s : State) (n : StationNo) : (s.clearUnanswered n).disp = s.disp := by simp only [State.clearUnanswered]; (repeat' split) <;> simp
@[simp] theorem State.clearUnanswered_alert (s : State) (n : StationNo) : (s.clearUnanswered n).alert = s.alert := by simp only [State.clearUnanswered]; (repeat' split) <;> simp
@[simp] theorem State.clearUnanswered_store (s : State) (n : StationNo) : (s.clearUnanswered n).store = s.store := by simp only [State.clearUnanswered]; (repeat' split) <;> simp
@[simp] theorem State.clearUnanswered_supply (s : State) (n : StationNo) : (s.clearUnanswered n).supply = s.supply := by simp only [State.clearUnanswered]; (repeat' split) <;> simp
@[simp] theorem State.clearUnanswered_pins (s : State) (n : StationNo) : (s.clearUnanswered n).pins = s.pins := by simp only [State.clearUnanswered]; (repeat' split) <;> simp
@[simp] theorem State.clearUnanswered_pending (s : State) (n : StationNo) : (s.clearUnanswered n).pending = s.pending := by simp only [State.clearUnanswered]; (repeat' split) <;> simp

/-! `queryFailed` touches at most: bus, lines, spell. -/

@[simp] theorem State.queryFailed_intake (s : State) (t : Fin 4) (q : Query) : (s.queryFailed t q).intake = s.intake := by unfold State.queryFailed; (repeat' split) <;> simp
@[simp] theorem State.queryFailed_wheel (s : State) (t : Fin 4) (q : Query) : (s.queryFailed t q).wheel = s.wheel := by unfold State.queryFailed; (repeat' split) <;> simp
@[simp] theorem State.queryFailed_esc (s : State) (t : Fin 4) (q : Query) : (s.queryFailed t q).esc = s.esc := by unfold State.queryFailed; (repeat' split) <;> simp
@[simp] theorem State.queryFailed_seq (s : State) (t : Fin 4) (q : Query) : (s.queryFailed t q).seq = s.seq := by unfold State.queryFailed; (repeat' split) <;> simp
@[simp] theorem State.queryFailed_corr (s : State) (t : Fin 4) (q : Query) : (s.queryFailed t q).corr = s.corr := by unfold State.queryFailed; (repeat' split) <;> simp
@[simp] theorem State.queryFailed_disp (s : State) (t : Fin 4) (q : Query) : (s.queryFailed t q).disp = s.disp := by unfold State.queryFailed; (repeat' split) <;> simp
@[simp] theorem State.queryFailed_alert (s : State) (t : Fin 4) (q : Query) : (s.queryFailed t q).alert = s.alert := by unfold State.queryFailed; (repeat' split) <;> simp
@[simp] theorem State.queryFailed_store (s : State) (t : Fin 4) (q : Query) : (s.queryFailed t q).store = s.store := by unfold State.queryFailed; (repeat' split) <;> simp
@[simp] theorem State.queryFailed_supply (s : State) (t : Fin 4) (q : Query) : (s.queryFailed t q).supply = s.supply := by unfold State.queryFailed; (repeat' split) <;> simp
@[simp] theorem State.queryFailed_pins (s : State) (t : Fin 4) (q : Query) : (s.queryFailed t q).pins = s.pins := by unfold State.queryFailed; (repeat' split) <;> simp
@[simp] theorem State.queryFailed_pending (s : State) (t : Fin 4) (q : Query) : (s.queryFailed t q).pending = s.pending := by unfold State.queryFailed; (repeat' split) <;> simp

/-! `queryEnded` touches at most: bus, lines, spell. -/

@[simp] theorem State.queryEnded_intake (s : State) (t : Fin 4) : (s.queryEnded t).intake = s.intake := by unfold State.queryEnded; (repeat' split) <;> simp
@[simp] theorem State.queryEnded_wheel (s : State) (t : Fin 4) : (s.queryEnded t).wheel = s.wheel := by unfold State.queryEnded; (repeat' split) <;> simp
@[simp] theorem State.queryEnded_esc (s : State) (t : Fin 4) : (s.queryEnded t).esc = s.esc := by unfold State.queryEnded; (repeat' split) <;> simp
@[simp] theorem State.queryEnded_seq (s : State) (t : Fin 4) : (s.queryEnded t).seq = s.seq := by unfold State.queryEnded; (repeat' split) <;> simp
@[simp] theorem State.queryEnded_corr (s : State) (t : Fin 4) : (s.queryEnded t).corr = s.corr := by unfold State.queryEnded; (repeat' split) <;> simp
@[simp] theorem State.queryEnded_disp (s : State) (t : Fin 4) : (s.queryEnded t).disp = s.disp := by unfold State.queryEnded; (repeat' split) <;> simp
@[simp] theorem State.queryEnded_alert (s : State) (t : Fin 4) : (s.queryEnded t).alert = s.alert := by unfold State.queryEnded; (repeat' split) <;> simp
@[simp] theorem State.queryEnded_store (s : State) (t : Fin 4) : (s.queryEnded t).store = s.store := by unfold State.queryEnded; (repeat' split) <;> simp
@[simp] theorem State.queryEnded_supply (s : State) (t : Fin 4) : (s.queryEnded t).supply = s.supply := by unfold State.queryEnded; (repeat' split) <;> simp
@[simp] theorem State.queryEnded_pins (s : State) (t : Fin 4) : (s.queryEnded t).pins = s.pins := by unfold State.queryEnded; (repeat' split) <;> simp
@[simp] theorem State.queryEnded_pending (s : State) (t : Fin 4) : (s.queryEnded t).pending = s.pending := by unfold State.queryEnded; (repeat' split) <;> simp

/-! `queryOutcome` touches at most: bus, lines, spell. -/

@[simp] theorem State.queryOutcome_intake (s : State) (d : StationNo) (t : Fin 4) (a : AnswerCode) : (s.queryOutcome d t a).intake = s.intake := by cases a <;> simp only [State.queryOutcome] <;> (repeat' split) <;> simp
@[simp] theorem State.queryOutcome_wheel (s : State) (d : StationNo) (t : Fin 4) (a : AnswerCode) : (s.queryOutcome d t a).wheel = s.wheel := by cases a <;> simp only [State.queryOutcome] <;> (repeat' split) <;> simp
@[simp] theorem State.queryOutcome_esc (s : State) (d : StationNo) (t : Fin 4) (a : AnswerCode) : (s.queryOutcome d t a).esc = s.esc := by cases a <;> simp only [State.queryOutcome] <;> (repeat' split) <;> simp
@[simp] theorem State.queryOutcome_seq (s : State) (d : StationNo) (t : Fin 4) (a : AnswerCode) : (s.queryOutcome d t a).seq = s.seq := by cases a <;> simp only [State.queryOutcome] <;> (repeat' split) <;> simp
@[simp] theorem State.queryOutcome_corr (s : State) (d : StationNo) (t : Fin 4) (a : AnswerCode) : (s.queryOutcome d t a).corr = s.corr := by cases a <;> simp only [State.queryOutcome] <;> (repeat' split) <;> simp
@[simp] theorem State.queryOutcome_disp (s : State) (d : StationNo) (t : Fin 4) (a : AnswerCode) : (s.queryOutcome d t a).disp = s.disp := by cases a <;> simp only [State.queryOutcome] <;> (repeat' split) <;> simp
@[simp] theorem State.queryOutcome_alert (s : State) (d : StationNo) (t : Fin 4) (a : AnswerCode) : (s.queryOutcome d t a).alert = s.alert := by cases a <;> simp only [State.queryOutcome] <;> (repeat' split) <;> simp
@[simp] theorem State.queryOutcome_store (s : State) (d : StationNo) (t : Fin 4) (a : AnswerCode) : (s.queryOutcome d t a).store = s.store := by cases a <;> simp only [State.queryOutcome] <;> (repeat' split) <;> simp
@[simp] theorem State.queryOutcome_supply (s : State) (d : StationNo) (t : Fin 4) (a : AnswerCode) : (s.queryOutcome d t a).supply = s.supply := by cases a <;> simp only [State.queryOutcome] <;> (repeat' split) <;> simp
@[simp] theorem State.queryOutcome_pins (s : State) (d : StationNo) (t : Fin 4) (a : AnswerCode) : (s.queryOutcome d t a).pins = s.pins := by cases a <;> simp only [State.queryOutcome] <;> (repeat' split) <;> simp
@[simp] theorem State.queryOutcome_pending (s : State) (d : StationNo) (t : Fin 4) (a : AnswerCode) : (s.queryOutcome d t a).pending = s.pending := by cases a <;> simp only [State.queryOutcome] <;> (repeat' split) <;> simp

/-! `applyVerdict` touches at most: bus, lines, spell, alert. -/

@[simp] theorem State.applyVerdict_intake (s : State) (t : Fin 4) (q : Query) (v : Nat) : (s.applyVerdict t q v).intake = s.intake := by unfold State.applyVerdict; (repeat' split) <;> simp
@[simp] theorem State.applyVerdict_wheel (s : State) (t : Fin 4) (q : Query) (v : Nat) : (s.applyVerdict t q v).wheel = s.wheel := by unfold State.applyVerdict; (repeat' split) <;> simp
@[simp] theorem State.applyVerdict_esc (s : State) (t : Fin 4) (q : Query) (v : Nat) : (s.applyVerdict t q v).esc = s.esc := by unfold State.applyVerdict; (repeat' split) <;> simp
@[simp] theorem State.applyVerdict_seq (s : State) (t : Fin 4) (q : Query) (v : Nat) : (s.applyVerdict t q v).seq = s.seq := by unfold State.applyVerdict; (repeat' split) <;> simp
@[simp] theorem State.applyVerdict_corr (s : State) (t : Fin 4) (q : Query) (v : Nat) : (s.applyVerdict t q v).corr = s.corr := by unfold State.applyVerdict; (repeat' split) <;> simp
@[simp] theorem State.applyVerdict_disp (s : State) (t : Fin 4) (q : Query) (v : Nat) : (s.applyVerdict t q v).disp = s.disp := by unfold State.applyVerdict; (repeat' split) <;> simp
@[simp] theorem State.applyVerdict_store (s : State) (t : Fin 4) (q : Query) (v : Nat) : (s.applyVerdict t q v).store = s.store := by unfold State.applyVerdict; (repeat' split) <;> simp
@[simp] theorem State.applyVerdict_supply (s : State) (t : Fin 4) (q : Query) (v : Nat) : (s.applyVerdict t q v).supply = s.supply := by unfold State.applyVerdict; (repeat' split) <;> simp
@[simp] theorem State.applyVerdict_pins (s : State) (t : Fin 4) (q : Query) (v : Nat) : (s.applyVerdict t q v).pins = s.pins := by unfold State.applyVerdict; (repeat' split) <;> simp
@[simp] theorem State.applyVerdict_pending (s : State) (t : Fin 4) (q : Query) (v : Nat) : (s.applyVerdict t q v).pending = s.pending := by unfold State.applyVerdict; (repeat' split) <;> simp

/-! `setCursor` touches at most: lines, disp. -/

@[simp] theorem State.setCursor_bus (s : State) (c : Nat) : (s.setCursor c).bus = s.bus := rfl
@[simp] theorem State.setCursor_intake (s : State) (c : Nat) : (s.setCursor c).intake = s.intake := rfl
@[simp] theorem State.setCursor_wheel (s : State) (c : Nat) : (s.setCursor c).wheel = s.wheel := rfl
@[simp] theorem State.setCursor_esc (s : State) (c : Nat) : (s.setCursor c).esc = s.esc := rfl
@[simp] theorem State.setCursor_seq (s : State) (c : Nat) : (s.setCursor c).seq = s.seq := rfl
@[simp] theorem State.setCursor_corr (s : State) (c : Nat) : (s.setCursor c).corr = s.corr := rfl
@[simp] theorem State.setCursor_spell (s : State) (c : Nat) : (s.setCursor c).spell = s.spell := rfl
@[simp] theorem State.setCursor_alert (s : State) (c : Nat) : (s.setCursor c).alert = s.alert := rfl
@[simp] theorem State.setCursor_store (s : State) (c : Nat) : (s.setCursor c).store = s.store := rfl
@[simp] theorem State.setCursor_supply (s : State) (c : Nat) : (s.setCursor c).supply = s.supply := rfl
@[simp] theorem State.setCursor_pins (s : State) (c : Nat) : (s.setCursor c).pins = s.pins := rfl
@[simp] theorem State.setCursor_pending (s : State) (c : Nat) : (s.setCursor c).pending = s.pending := rfl

/-! `showFrom` touches at most: lines, disp. -/

@[simp] theorem State.showFrom_bus (s : State) (d c : Nat) : (s.showFrom d c).bus = s.bus := rfl
@[simp] theorem State.showFrom_intake (s : State) (d c : Nat) : (s.showFrom d c).intake = s.intake := rfl
@[simp] theorem State.showFrom_wheel (s : State) (d c : Nat) : (s.showFrom d c).wheel = s.wheel := rfl
@[simp] theorem State.showFrom_esc (s : State) (d c : Nat) : (s.showFrom d c).esc = s.esc := rfl
@[simp] theorem State.showFrom_seq (s : State) (d c : Nat) : (s.showFrom d c).seq = s.seq := rfl
@[simp] theorem State.showFrom_corr (s : State) (d c : Nat) : (s.showFrom d c).corr = s.corr := rfl
@[simp] theorem State.showFrom_spell (s : State) (d c : Nat) : (s.showFrom d c).spell = s.spell := rfl
@[simp] theorem State.showFrom_alert (s : State) (d c : Nat) : (s.showFrom d c).alert = s.alert := rfl
@[simp] theorem State.showFrom_store (s : State) (d c : Nat) : (s.showFrom d c).store = s.store := rfl
@[simp] theorem State.showFrom_supply (s : State) (d c : Nat) : (s.showFrom d c).supply = s.supply := rfl
@[simp] theorem State.showFrom_pins (s : State) (d c : Nat) : (s.showFrom d c).pins = s.pins := rfl
@[simp] theorem State.showFrom_pending (s : State) (d c : Nat) : (s.showFrom d c).pending = s.pending := rfl

/-! `mapCurrent` touches at most: lines. -/

@[simp] theorem State.mapCurrent_bus (s : State) (f : Line → Line) : (s.mapCurrent f).bus = s.bus := rfl
@[simp] theorem State.mapCurrent_intake (s : State) (f : Line → Line) : (s.mapCurrent f).intake = s.intake := rfl
@[simp] theorem State.mapCurrent_wheel (s : State) (f : Line → Line) : (s.mapCurrent f).wheel = s.wheel := rfl
@[simp] theorem State.mapCurrent_esc (s : State) (f : Line → Line) : (s.mapCurrent f).esc = s.esc := rfl
@[simp] theorem State.mapCurrent_seq (s : State) (f : Line → Line) : (s.mapCurrent f).seq = s.seq := rfl
@[simp] theorem State.mapCurrent_corr (s : State) (f : Line → Line) : (s.mapCurrent f).corr = s.corr := rfl
@[simp] theorem State.mapCurrent_spell (s : State) (f : Line → Line) : (s.mapCurrent f).spell = s.spell := rfl
@[simp] theorem State.mapCurrent_disp (s : State) (f : Line → Line) : (s.mapCurrent f).disp = s.disp := rfl
@[simp] theorem State.mapCurrent_alert (s : State) (f : Line → Line) : (s.mapCurrent f).alert = s.alert := rfl
@[simp] theorem State.mapCurrent_store (s : State) (f : Line → Line) : (s.mapCurrent f).store = s.store := rfl
@[simp] theorem State.mapCurrent_supply (s : State) (f : Line → Line) : (s.mapCurrent f).supply = s.supply := rfl
@[simp] theorem State.mapCurrent_pins (s : State) (f : Line → Line) : (s.mapCurrent f).pins = s.pins := rfl
@[simp] theorem State.mapCurrent_pending (s : State) (f : Line → Line) : (s.mapCurrent f).pending = s.pending := rfl

/-! `setEntries` touches at most: lines, disp. -/

@[simp] theorem State.setEntries_bus (s : State) (n : Word) (es : List Entry) : (s.setEntries n es).bus = s.bus := by simp only [State.setEntries]; split <;> simp
@[simp] theorem State.setEntries_intake (s : State) (n : Word) (es : List Entry) : (s.setEntries n es).intake = s.intake := by simp only [State.setEntries]; split <;> simp
@[simp] theorem State.setEntries_wheel (s : State) (n : Word) (es : List Entry) : (s.setEntries n es).wheel = s.wheel := by simp only [State.setEntries]; split <;> simp
@[simp] theorem State.setEntries_esc (s : State) (n : Word) (es : List Entry) : (s.setEntries n es).esc = s.esc := by simp only [State.setEntries]; split <;> simp
@[simp] theorem State.setEntries_seq (s : State) (n : Word) (es : List Entry) : (s.setEntries n es).seq = s.seq := by simp only [State.setEntries]; split <;> simp
@[simp] theorem State.setEntries_corr (s : State) (n : Word) (es : List Entry) : (s.setEntries n es).corr = s.corr := by simp only [State.setEntries]; split <;> simp
@[simp] theorem State.setEntries_spell (s : State) (n : Word) (es : List Entry) : (s.setEntries n es).spell = s.spell := by simp only [State.setEntries]; split <;> simp
@[simp] theorem State.setEntries_alert (s : State) (n : Word) (es : List Entry) : (s.setEntries n es).alert = s.alert := by simp only [State.setEntries]; split <;> simp
@[simp] theorem State.setEntries_store (s : State) (n : Word) (es : List Entry) : (s.setEntries n es).store = s.store := by simp only [State.setEntries]; split <;> simp
@[simp] theorem State.setEntries_supply (s : State) (n : Word) (es : List Entry) : (s.setEntries n es).supply = s.supply := by simp only [State.setEntries]; split <;> simp
@[simp] theorem State.setEntries_pins (s : State) (n : Word) (es : List Entry) : (s.setEntries n es).pins = s.pins := by simp only [State.setEntries]; split <;> simp
@[simp] theorem State.setEntries_pending (s : State) (n : Word) (es : List Entry) : (s.setEntries n es).pending = s.pending := by simp only [State.setEntries]; split <;> simp

/-! `bellCheck` touches at most: esc, alert. -/

@[simp] theorem State.bellCheck_bus (s : State) : (s.bellCheck).bus = s.bus := by unfold State.bellCheck; (repeat' split) <;> simp
@[simp] theorem State.bellCheck_intake (s : State) : (s.bellCheck).intake = s.intake := by unfold State.bellCheck; (repeat' split) <;> simp
@[simp] theorem State.bellCheck_wheel (s : State) : (s.bellCheck).wheel = s.wheel := by unfold State.bellCheck; (repeat' split) <;> simp
@[simp] theorem State.bellCheck_lines (s : State) : (s.bellCheck).lines = s.lines := by unfold State.bellCheck; (repeat' split) <;> simp
@[simp] theorem State.bellCheck_seq (s : State) : (s.bellCheck).seq = s.seq := by unfold State.bellCheck; (repeat' split) <;> simp
@[simp] theorem State.bellCheck_corr (s : State) : (s.bellCheck).corr = s.corr := by unfold State.bellCheck; (repeat' split) <;> simp
@[simp] theorem State.bellCheck_spell (s : State) : (s.bellCheck).spell = s.spell := by unfold State.bellCheck; (repeat' split) <;> simp
@[simp] theorem State.bellCheck_disp (s : State) : (s.bellCheck).disp = s.disp := by unfold State.bellCheck; (repeat' split) <;> simp
@[simp] theorem State.bellCheck_store (s : State) : (s.bellCheck).store = s.store := by unfold State.bellCheck; (repeat' split) <;> simp
@[simp] theorem State.bellCheck_supply (s : State) : (s.bellCheck).supply = s.supply := by unfold State.bellCheck; (repeat' split) <;> simp
@[simp] theorem State.bellCheck_pins (s : State) : (s.bellCheck).pins = s.pins := by unfold State.bellCheck; (repeat' split) <;> simp
@[simp] theorem State.bellCheck_pending (s : State) : (s.bellCheck).pending = s.pending := by unfold State.bellCheck; (repeat' split) <;> simp

/-! `setMark` touches at most: lines. -/

@[simp] theorem State.setMark_bus (s : State) (m : Option FeedMark) : (s.setMark m).bus = s.bus := rfl
@[simp] theorem State.setMark_intake (s : State) (m : Option FeedMark) : (s.setMark m).intake = s.intake := rfl
@[simp] theorem State.setMark_wheel (s : State) (m : Option FeedMark) : (s.setMark m).wheel = s.wheel := rfl
@[simp] theorem State.setMark_esc (s : State) (m : Option FeedMark) : (s.setMark m).esc = s.esc := rfl
@[simp] theorem State.setMark_seq (s : State) (m : Option FeedMark) : (s.setMark m).seq = s.seq := rfl
@[simp] theorem State.setMark_corr (s : State) (m : Option FeedMark) : (s.setMark m).corr = s.corr := rfl
@[simp] theorem State.setMark_spell (s : State) (m : Option FeedMark) : (s.setMark m).spell = s.spell := rfl
@[simp] theorem State.setMark_disp (s : State) (m : Option FeedMark) : (s.setMark m).disp = s.disp := rfl
@[simp] theorem State.setMark_alert (s : State) (m : Option FeedMark) : (s.setMark m).alert = s.alert := rfl
@[simp] theorem State.setMark_store (s : State) (m : Option FeedMark) : (s.setMark m).store = s.store := rfl
@[simp] theorem State.setMark_supply (s : State) (m : Option FeedMark) : (s.setMark m).supply = s.supply := rfl
@[simp] theorem State.setMark_pins (s : State) (m : Option FeedMark) : (s.setMark m).pins = s.pins := rfl
@[simp] theorem State.setMark_pending (s : State) (m : Option FeedMark) : (s.setMark m).pending = s.pending := rfl

/-! `fixMark` touches at most: lines. -/

@[simp] theorem State.fixMark_bus (s : State) : (s.fixMark).bus = s.bus := by unfold State.fixMark; (repeat' split) <;> simp
@[simp] theorem State.fixMark_intake (s : State) : (s.fixMark).intake = s.intake := by unfold State.fixMark; (repeat' split) <;> simp
@[simp] theorem State.fixMark_wheel (s : State) : (s.fixMark).wheel = s.wheel := by unfold State.fixMark; (repeat' split) <;> simp
@[simp] theorem State.fixMark_esc (s : State) : (s.fixMark).esc = s.esc := by unfold State.fixMark; (repeat' split) <;> simp
@[simp] theorem State.fixMark_seq (s : State) : (s.fixMark).seq = s.seq := by unfold State.fixMark; (repeat' split) <;> simp
@[simp] theorem State.fixMark_corr (s : State) : (s.fixMark).corr = s.corr := by unfold State.fixMark; (repeat' split) <;> simp
@[simp] theorem State.fixMark_spell (s : State) : (s.fixMark).spell = s.spell := by unfold State.fixMark; (repeat' split) <;> simp
@[simp] theorem State.fixMark_disp (s : State) : (s.fixMark).disp = s.disp := by unfold State.fixMark; (repeat' split) <;> simp
@[simp] theorem State.fixMark_alert (s : State) : (s.fixMark).alert = s.alert := by unfold State.fixMark; (repeat' split) <;> simp
@[simp] theorem State.fixMark_store (s : State) : (s.fixMark).store = s.store := by unfold State.fixMark; (repeat' split) <;> simp
@[simp] theorem State.fixMark_supply (s : State) : (s.fixMark).supply = s.supply := by unfold State.fixMark; (repeat' split) <;> simp
@[simp] theorem State.fixMark_pins (s : State) : (s.fixMark).pins = s.pins := by unfold State.fixMark; (repeat' split) <;> simp
@[simp] theorem State.fixMark_pending (s : State) : (s.fixMark).pending = s.pending := by unfold State.fixMark; (repeat' split) <;> simp

/-! `feedOne` touches at most: lines, seq. -/

@[simp] theorem State.feedOne_bus (s : State) (m : FeedMark) : (s.feedOne m).bus = s.bus := by simp only [State.feedOne]; (repeat' split) <;> simp
@[simp] theorem State.feedOne_intake (s : State) (m : FeedMark) : (s.feedOne m).intake = s.intake := by simp only [State.feedOne]; (repeat' split) <;> simp
@[simp] theorem State.feedOne_wheel (s : State) (m : FeedMark) : (s.feedOne m).wheel = s.wheel := by simp only [State.feedOne]; (repeat' split) <;> simp
@[simp] theorem State.feedOne_esc (s : State) (m : FeedMark) : (s.feedOne m).esc = s.esc := by simp only [State.feedOne]; (repeat' split) <;> simp
@[simp] theorem State.feedOne_corr (s : State) (m : FeedMark) : (s.feedOne m).corr = s.corr := by simp only [State.feedOne]; (repeat' split) <;> simp
@[simp] theorem State.feedOne_spell (s : State) (m : FeedMark) : (s.feedOne m).spell = s.spell := by simp only [State.feedOne]; (repeat' split) <;> simp
@[simp] theorem State.feedOne_disp (s : State) (m : FeedMark) : (s.feedOne m).disp = s.disp := by simp only [State.feedOne]; (repeat' split) <;> simp
@[simp] theorem State.feedOne_alert (s : State) (m : FeedMark) : (s.feedOne m).alert = s.alert := by simp only [State.feedOne]; (repeat' split) <;> simp
@[simp] theorem State.feedOne_store (s : State) (m : FeedMark) : (s.feedOne m).store = s.store := by simp only [State.feedOne]; (repeat' split) <;> simp
@[simp] theorem State.feedOne_supply (s : State) (m : FeedMark) : (s.feedOne m).supply = s.supply := by simp only [State.feedOne]; (repeat' split) <;> simp
@[simp] theorem State.feedOne_pins (s : State) (m : FeedMark) : (s.feedOne m).pins = s.pins := by simp only [State.feedOne]; (repeat' split) <;> simp
@[simp] theorem State.feedOne_pending (s : State) (m : FeedMark) : (s.feedOne m).pending = s.pending := by simp only [State.feedOne]; (repeat' split) <;> simp

/-! `pumpUpTo` touches at most: lines, seq. -/

@[simp] theorem State.pumpUpTo_bus (s : State) (n : Nat) : (s.pumpUpTo n).bus = s.bus := by
  induction n generalizing s with
  | zero => rfl
  | succ n ih => simp only [State.pumpUpTo]; (repeat' split) <;> simp [ih]
@[simp] theorem State.pumpUpTo_intake (s : State) (n : Nat) : (s.pumpUpTo n).intake = s.intake := by
  induction n generalizing s with
  | zero => rfl
  | succ n ih => simp only [State.pumpUpTo]; (repeat' split) <;> simp [ih]
@[simp] theorem State.pumpUpTo_wheel (s : State) (n : Nat) : (s.pumpUpTo n).wheel = s.wheel := by
  induction n generalizing s with
  | zero => rfl
  | succ n ih => simp only [State.pumpUpTo]; (repeat' split) <;> simp [ih]
@[simp] theorem State.pumpUpTo_esc (s : State) (n : Nat) : (s.pumpUpTo n).esc = s.esc := by
  induction n generalizing s with
  | zero => rfl
  | succ n ih => simp only [State.pumpUpTo]; (repeat' split) <;> simp [ih]
@[simp] theorem State.pumpUpTo_corr (s : State) (n : Nat) : (s.pumpUpTo n).corr = s.corr := by
  induction n generalizing s with
  | zero => rfl
  | succ n ih => simp only [State.pumpUpTo]; (repeat' split) <;> simp [ih]
@[simp] theorem State.pumpUpTo_spell (s : State) (n : Nat) : (s.pumpUpTo n).spell = s.spell := by
  induction n generalizing s with
  | zero => rfl
  | succ n ih => simp only [State.pumpUpTo]; (repeat' split) <;> simp [ih]
@[simp] theorem State.pumpUpTo_disp (s : State) (n : Nat) : (s.pumpUpTo n).disp = s.disp := by
  induction n generalizing s with
  | zero => rfl
  | succ n ih => simp only [State.pumpUpTo]; (repeat' split) <;> simp [ih]
@[simp] theorem State.pumpUpTo_alert (s : State) (n : Nat) : (s.pumpUpTo n).alert = s.alert := by
  induction n generalizing s with
  | zero => rfl
  | succ n ih => simp only [State.pumpUpTo]; (repeat' split) <;> simp [ih]
@[simp] theorem State.pumpUpTo_store (s : State) (n : Nat) : (s.pumpUpTo n).store = s.store := by
  induction n generalizing s with
  | zero => rfl
  | succ n ih => simp only [State.pumpUpTo]; (repeat' split) <;> simp [ih]
@[simp] theorem State.pumpUpTo_supply (s : State) (n : Nat) : (s.pumpUpTo n).supply = s.supply := by
  induction n generalizing s with
  | zero => rfl
  | succ n ih => simp only [State.pumpUpTo]; (repeat' split) <;> simp [ih]
@[simp] theorem State.pumpUpTo_pins (s : State) (n : Nat) : (s.pumpUpTo n).pins = s.pins := by
  induction n generalizing s with
  | zero => rfl
  | succ n ih => simp only [State.pumpUpTo]; (repeat' split) <;> simp [ih]
@[simp] theorem State.pumpUpTo_pending (s : State) (n : Nat) : (s.pumpUpTo n).pending = s.pending := by
  induction n generalizing s with
  | zero => rfl
  | succ n ih => simp only [State.pumpUpTo]; (repeat' split) <;> simp [ih]

/-! `pump` touches at most: lines, seq. -/

@[simp] theorem State.pump_bus (s : State) : (s.pump).bus = s.bus := by simp [State.pump]
@[simp] theorem State.pump_intake (s : State) : (s.pump).intake = s.intake := by simp [State.pump]
@[simp] theorem State.pump_wheel (s : State) : (s.pump).wheel = s.wheel := by simp [State.pump]
@[simp] theorem State.pump_esc (s : State) : (s.pump).esc = s.esc := by simp [State.pump]
@[simp] theorem State.pump_corr (s : State) : (s.pump).corr = s.corr := by simp [State.pump]
@[simp] theorem State.pump_spell (s : State) : (s.pump).spell = s.spell := by simp [State.pump]
@[simp] theorem State.pump_disp (s : State) : (s.pump).disp = s.disp := by simp [State.pump]
@[simp] theorem State.pump_alert (s : State) : (s.pump).alert = s.alert := by simp [State.pump]
@[simp] theorem State.pump_store (s : State) : (s.pump).store = s.store := by simp [State.pump]
@[simp] theorem State.pump_supply (s : State) : (s.pump).supply = s.supply := by simp [State.pump]
@[simp] theorem State.pump_pins (s : State) : (s.pump).pins = s.pins := by simp [State.pump]
@[simp] theorem State.pump_pending (s : State) : (s.pump).pending = s.pending := by simp [State.pump]

/-! `settle` touches at most: bus, lines, seq, disp. -/

@[simp] theorem State.settle_intake (s : State) : (s.settle).intake = s.intake := by unfold State.settle; split <;> simp
@[simp] theorem State.settle_wheel (s : State) : (s.settle).wheel = s.wheel := by unfold State.settle; split <;> simp
@[simp] theorem State.settle_esc (s : State) : (s.settle).esc = s.esc := by unfold State.settle; split <;> simp
@[simp] theorem State.settle_corr (s : State) : (s.settle).corr = s.corr := by unfold State.settle; split <;> simp
@[simp] theorem State.settle_spell (s : State) : (s.settle).spell = s.spell := by unfold State.settle; split <;> simp
@[simp] theorem State.settle_alert (s : State) : (s.settle).alert = s.alert := by unfold State.settle; split <;> simp
@[simp] theorem State.settle_store (s : State) : (s.settle).store = s.store := by unfold State.settle; split <;> simp
@[simp] theorem State.settle_supply (s : State) : (s.settle).supply = s.supply := by unfold State.settle; split <;> simp
@[simp] theorem State.settle_pins (s : State) : (s.settle).pins = s.pins := by unfold State.settle; split <;> simp
@[simp] theorem State.settle_pending (s : State) : (s.settle).pending = s.pending := by unfold State.settle; split <;> simp

/-! `ringOverflow` touches at most: lines, spell. -/

@[simp] theorem State.ringOverflow_bus (s : State) : (s.ringOverflow).bus = s.bus := by
  unfold State.ringOverflow
  split
  · rfl
  · split
    · exact (foldl_keeps (fun t : State => t.bus) (fun _ _ => by simp) _ _).trans rfl
    · rfl
@[simp] theorem State.ringOverflow_intake (s : State) : (s.ringOverflow).intake = s.intake := by
  unfold State.ringOverflow
  split
  · rfl
  · split
    · exact (foldl_keeps (fun t : State => t.intake) (fun _ _ => by simp) _ _).trans rfl
    · rfl
@[simp] theorem State.ringOverflow_wheel (s : State) : (s.ringOverflow).wheel = s.wheel := by
  unfold State.ringOverflow
  split
  · rfl
  · split
    · exact (foldl_keeps (fun t : State => t.wheel) (fun _ _ => by simp) _ _).trans rfl
    · rfl
@[simp] theorem State.ringOverflow_esc (s : State) : (s.ringOverflow).esc = s.esc := by
  unfold State.ringOverflow
  split
  · rfl
  · split
    · exact (foldl_keeps (fun t : State => t.esc) (fun _ _ => by simp) _ _).trans rfl
    · rfl
@[simp] theorem State.ringOverflow_seq (s : State) : (s.ringOverflow).seq = s.seq := by
  unfold State.ringOverflow
  split
  · rfl
  · split
    · exact (foldl_keeps (fun t : State => t.seq) (fun _ _ => by simp) _ _).trans rfl
    · rfl
@[simp] theorem State.ringOverflow_corr (s : State) : (s.ringOverflow).corr = s.corr := by
  unfold State.ringOverflow
  split
  · rfl
  · split
    · exact (foldl_keeps (fun t : State => t.corr) (fun _ _ => by simp) _ _).trans rfl
    · rfl
@[simp] theorem State.ringOverflow_disp (s : State) : (s.ringOverflow).disp = s.disp := by
  unfold State.ringOverflow
  split
  · rfl
  · split
    · exact (foldl_keeps (fun t : State => t.disp) (fun _ _ => by simp) _ _).trans rfl
    · rfl
@[simp] theorem State.ringOverflow_alert (s : State) : (s.ringOverflow).alert = s.alert := by
  unfold State.ringOverflow
  split
  · rfl
  · split
    · exact (foldl_keeps (fun t : State => t.alert) (fun _ _ => by simp) _ _).trans rfl
    · rfl
@[simp] theorem State.ringOverflow_store (s : State) : (s.ringOverflow).store = s.store := by
  unfold State.ringOverflow
  split
  · rfl
  · split
    · exact (foldl_keeps (fun t : State => t.store) (fun _ _ => by simp) _ _).trans rfl
    · rfl
@[simp] theorem State.ringOverflow_supply (s : State) : (s.ringOverflow).supply = s.supply := by
  unfold State.ringOverflow
  split
  · rfl
  · split
    · exact (foldl_keeps (fun t : State => t.supply) (fun _ _ => by simp) _ _).trans rfl
    · rfl
@[simp] theorem State.ringOverflow_pins (s : State) : (s.ringOverflow).pins = s.pins := by
  unfold State.ringOverflow
  split
  · rfl
  · split
    · exact (foldl_keeps (fun t : State => t.pins) (fun _ _ => by simp) _ _).trans rfl
    · rfl
@[simp] theorem State.ringOverflow_pending (s : State) : (s.ringOverflow).pending = s.pending := by
  unfold State.ringOverflow
  split
  · rfl
  · split
    · exact (foldl_keeps (fun t : State => t.pending) (fun _ _ => by simp) _ _).trans rfl
    · rfl

/-! `commit` touches at most: bus, lines, seq, disp, spell, esc. -/

@[simp] theorem State.commit_intake (s : State) (c : List Entry) : (s.commit c).intake = s.intake := by simp [State.commit]
@[simp] theorem State.commit_wheel (s : State) (c : List Entry) : (s.commit c).wheel = s.wheel := by simp [State.commit]
@[simp] theorem State.commit_corr (s : State) (c : List Entry) : (s.commit c).corr = s.corr := by simp [State.commit]
@[simp] theorem State.commit_alert (s : State) (c : List Entry) : (s.commit c).alert = s.alert := by simp [State.commit]
@[simp] theorem State.commit_store (s : State) (c : List Entry) : (s.commit c).store = s.store := by simp [State.commit]
@[simp] theorem State.commit_supply (s : State) (c : List Entry) : (s.commit c).supply = s.supply := by simp [State.commit]
@[simp] theorem State.commit_pins (s : State) (c : List Entry) : (s.commit c).pins = s.pins := by simp [State.commit]
@[simp] theorem State.commit_pending (s : State) (c : List Entry) : (s.commit c).pending = s.pending := by simp [State.commit]

/-! `setOwner` touches at most: bus, intake, lines. -/

@[simp] theorem State.setOwner_wheel (s : State) (o : Owner) : (s.setOwner o).wheel = s.wheel := by simp [State.setOwner]
@[simp] theorem State.setOwner_esc (s : State) (o : Owner) : (s.setOwner o).esc = s.esc := by simp [State.setOwner]
@[simp] theorem State.setOwner_seq (s : State) (o : Owner) : (s.setOwner o).seq = s.seq := by simp [State.setOwner]
@[simp] theorem State.setOwner_corr (s : State) (o : Owner) : (s.setOwner o).corr = s.corr := by simp [State.setOwner]
@[simp] theorem State.setOwner_spell (s : State) (o : Owner) : (s.setOwner o).spell = s.spell := by simp [State.setOwner]
@[simp] theorem State.setOwner_disp (s : State) (o : Owner) : (s.setOwner o).disp = s.disp := by simp [State.setOwner]
@[simp] theorem State.setOwner_alert (s : State) (o : Owner) : (s.setOwner o).alert = s.alert := by simp [State.setOwner]
@[simp] theorem State.setOwner_store (s : State) (o : Owner) : (s.setOwner o).store = s.store := by simp [State.setOwner]
@[simp] theorem State.setOwner_supply (s : State) (o : Owner) : (s.setOwner o).supply = s.supply := by simp [State.setOwner]
@[simp] theorem State.setOwner_pins (s : State) (o : Owner) : (s.setOwner o).pins = s.pins := by simp [State.setOwner]
@[simp] theorem State.setOwner_pending (s : State) (o : Owner) : (s.setOwner o).pending = s.pending := by simp [State.setOwner]

/-! `arbitrate` touches at most: bus, intake, lines. -/

@[simp] theorem State.arbitrate_wheel (s : State) : (s.arbitrate).wheel = s.wheel := by unfold State.arbitrate; (repeat' split) <;> simp
@[simp] theorem State.arbitrate_esc (s : State) : (s.arbitrate).esc = s.esc := by unfold State.arbitrate; (repeat' split) <;> simp
@[simp] theorem State.arbitrate_seq (s : State) : (s.arbitrate).seq = s.seq := by unfold State.arbitrate; (repeat' split) <;> simp
@[simp] theorem State.arbitrate_corr (s : State) : (s.arbitrate).corr = s.corr := by unfold State.arbitrate; (repeat' split) <;> simp
@[simp] theorem State.arbitrate_spell (s : State) : (s.arbitrate).spell = s.spell := by unfold State.arbitrate; (repeat' split) <;> simp
@[simp] theorem State.arbitrate_disp (s : State) : (s.arbitrate).disp = s.disp := by unfold State.arbitrate; (repeat' split) <;> simp
@[simp] theorem State.arbitrate_alert (s : State) : (s.arbitrate).alert = s.alert := by unfold State.arbitrate; (repeat' split) <;> simp
@[simp] theorem State.arbitrate_store (s : State) : (s.arbitrate).store = s.store := by unfold State.arbitrate; (repeat' split) <;> simp
@[simp] theorem State.arbitrate_supply (s : State) : (s.arbitrate).supply = s.supply := by unfold State.arbitrate; (repeat' split) <;> simp
@[simp] theorem State.arbitrate_pins (s : State) : (s.arbitrate).pins = s.pins := by unfold State.arbitrate; (repeat' split) <;> simp
@[simp] theorem State.arbitrate_pending (s : State) : (s.arbitrate).pending = s.pending := by unfold State.arbitrate; (repeat' split) <;> simp

/-! `releaseLine` touches at most: bus, intake, lines. -/

@[simp] theorem State.releaseLine_wheel (s : State) : (s.releaseLine).wheel = s.wheel := by simp [State.releaseLine]
@[simp] theorem State.releaseLine_esc (s : State) : (s.releaseLine).esc = s.esc := by simp [State.releaseLine]
@[simp] theorem State.releaseLine_seq (s : State) : (s.releaseLine).seq = s.seq := by simp [State.releaseLine]
@[simp] theorem State.releaseLine_corr (s : State) : (s.releaseLine).corr = s.corr := by simp [State.releaseLine]
@[simp] theorem State.releaseLine_spell (s : State) : (s.releaseLine).spell = s.spell := by simp [State.releaseLine]
@[simp] theorem State.releaseLine_disp (s : State) : (s.releaseLine).disp = s.disp := by simp [State.releaseLine]
@[simp] theorem State.releaseLine_alert (s : State) : (s.releaseLine).alert = s.alert := by simp [State.releaseLine]
@[simp] theorem State.releaseLine_store (s : State) : (s.releaseLine).store = s.store := by simp [State.releaseLine]
@[simp] theorem State.releaseLine_supply (s : State) : (s.releaseLine).supply = s.supply := by simp [State.releaseLine]
@[simp] theorem State.releaseLine_pins (s : State) : (s.releaseLine).pins = s.pins := by simp [State.releaseLine]
@[simp] theorem State.releaseLine_pending (s : State) : (s.releaseLine).pending = s.pending := by simp [State.releaseLine]

/-! `popKey` touches at most: intake, disp. -/

@[simp] theorem State.popKey_bus (s : State) : (s.popKey).bus = s.bus := rfl
@[simp] theorem State.popKey_wheel (s : State) : (s.popKey).wheel = s.wheel := rfl
@[simp] theorem State.popKey_esc (s : State) : (s.popKey).esc = s.esc := rfl
@[simp] theorem State.popKey_lines (s : State) : (s.popKey).lines = s.lines := rfl
@[simp] theorem State.popKey_seq (s : State) : (s.popKey).seq = s.seq := rfl
@[simp] theorem State.popKey_corr (s : State) : (s.popKey).corr = s.corr := rfl
@[simp] theorem State.popKey_spell (s : State) : (s.popKey).spell = s.spell := rfl
@[simp] theorem State.popKey_alert (s : State) : (s.popKey).alert = s.alert := rfl
@[simp] theorem State.popKey_store (s : State) : (s.popKey).store = s.store := rfl
@[simp] theorem State.popKey_supply (s : State) : (s.popKey).supply = s.supply := rfl
@[simp] theorem State.popKey_pins (s : State) : (s.popKey).pins = s.pins := rfl
@[simp] theorem State.popKey_pending (s : State) : (s.popKey).pending = s.pending := rfl

/-! `showOptional` touches at most: disp. -/

@[simp] theorem State.showOptional_bus (s : State) (m : Option Message) : (s.showOptional m).bus = s.bus := by cases m <;> simp [State.showOptional]
@[simp] theorem State.showOptional_intake (s : State) (m : Option Message) : (s.showOptional m).intake = s.intake := by cases m <;> simp [State.showOptional]
@[simp] theorem State.showOptional_wheel (s : State) (m : Option Message) : (s.showOptional m).wheel = s.wheel := by cases m <;> simp [State.showOptional]
@[simp] theorem State.showOptional_esc (s : State) (m : Option Message) : (s.showOptional m).esc = s.esc := by cases m <;> simp [State.showOptional]
@[simp] theorem State.showOptional_lines (s : State) (m : Option Message) : (s.showOptional m).lines = s.lines := by cases m <;> simp [State.showOptional]
@[simp] theorem State.showOptional_seq (s : State) (m : Option Message) : (s.showOptional m).seq = s.seq := by cases m <;> simp [State.showOptional]
@[simp] theorem State.showOptional_corr (s : State) (m : Option Message) : (s.showOptional m).corr = s.corr := by cases m <;> simp [State.showOptional]
@[simp] theorem State.showOptional_spell (s : State) (m : Option Message) : (s.showOptional m).spell = s.spell := by cases m <;> simp [State.showOptional]
@[simp] theorem State.showOptional_alert (s : State) (m : Option Message) : (s.showOptional m).alert = s.alert := by cases m <;> simp [State.showOptional]
@[simp] theorem State.showOptional_store (s : State) (m : Option Message) : (s.showOptional m).store = s.store := by cases m <;> simp [State.showOptional]
@[simp] theorem State.showOptional_supply (s : State) (m : Option Message) : (s.showOptional m).supply = s.supply := by cases m <;> simp [State.showOptional]
@[simp] theorem State.showOptional_pins (s : State) (m : Option Message) : (s.showOptional m).pins = s.pins := by cases m <;> simp [State.showOptional]
@[simp] theorem State.showOptional_pending (s : State) (m : Option Message) : (s.showOptional m).pending = s.pending := by cases m <;> simp [State.showOptional]

/-! `relocated` touches at most: bus, lines, seq, disp. -/

@[simp] theorem State.relocated_intake (s : State) : (s.relocated).intake = s.intake := by simp only [State.relocated]; split <;> simp
@[simp] theorem State.relocated_wheel (s : State) : (s.relocated).wheel = s.wheel := by simp only [State.relocated]; split <;> simp
@[simp] theorem State.relocated_esc (s : State) : (s.relocated).esc = s.esc := by simp only [State.relocated]; split <;> simp
@[simp] theorem State.relocated_corr (s : State) : (s.relocated).corr = s.corr := by simp only [State.relocated]; split <;> simp
@[simp] theorem State.relocated_spell (s : State) : (s.relocated).spell = s.spell := by simp only [State.relocated]; split <;> simp
@[simp] theorem State.relocated_alert (s : State) : (s.relocated).alert = s.alert := by simp only [State.relocated]; split <;> simp
@[simp] theorem State.relocated_store (s : State) : (s.relocated).store = s.store := by simp only [State.relocated]; split <;> simp
@[simp] theorem State.relocated_supply (s : State) : (s.relocated).supply = s.supply := by simp only [State.relocated]; split <;> simp
@[simp] theorem State.relocated_pins (s : State) : (s.relocated).pins = s.pins := by simp only [State.relocated]; split <;> simp
@[simp] theorem State.relocated_pending (s : State) : (s.relocated).pending = s.pending := by simp only [State.relocated]; split <;> simp

/-! `lapseLost` touches at most: bus, intake, lines, seq, disp, spell, esc. -/

@[simp] theorem State.lapseLost_wheel (s : State) : (s.lapseLost).wheel = s.wheel := by simp only [State.lapseLost]; (repeat' split) <;> simp
@[simp] theorem State.lapseLost_corr (s : State) : (s.lapseLost).corr = s.corr := by simp only [State.lapseLost]; (repeat' split) <;> simp
@[simp] theorem State.lapseLost_alert (s : State) : (s.lapseLost).alert = s.alert := by simp only [State.lapseLost]; (repeat' split) <;> simp
@[simp] theorem State.lapseLost_store (s : State) : (s.lapseLost).store = s.store := by simp only [State.lapseLost]; (repeat' split) <;> simp
@[simp] theorem State.lapseLost_supply (s : State) : (s.lapseLost).supply = s.supply := by simp only [State.lapseLost]; (repeat' split) <;> simp
@[simp] theorem State.lapseLost_pins (s : State) : (s.lapseLost).pins = s.pins := by simp only [State.lapseLost]; (repeat' split) <;> simp
@[simp] theorem State.lapseLost_pending (s : State) : (s.lapseLost).pending = s.pending := by simp only [State.lapseLost]; (repeat' split) <;> simp

/-! `afterKey` touches at most: bus, intake, lines, seq, disp, spell, esc. -/

@[simp] theorem State.afterKey_wheel (s : State) (b : Bool) : (s.afterKey b).wheel = s.wheel := by unfold State.afterKey; (repeat' split) <;> simp
@[simp] theorem State.afterKey_corr (s : State) (b : Bool) : (s.afterKey b).corr = s.corr := by unfold State.afterKey; (repeat' split) <;> simp
@[simp] theorem State.afterKey_alert (s : State) (b : Bool) : (s.afterKey b).alert = s.alert := by unfold State.afterKey; (repeat' split) <;> simp
@[simp] theorem State.afterKey_store (s : State) (b : Bool) : (s.afterKey b).store = s.store := by unfold State.afterKey; (repeat' split) <;> simp
@[simp] theorem State.afterKey_supply (s : State) (b : Bool) : (s.afterKey b).supply = s.supply := by unfold State.afterKey; (repeat' split) <;> simp
@[simp] theorem State.afterKey_pins (s : State) (b : Bool) : (s.afterKey b).pins = s.pins := by unfold State.afterKey; (repeat' split) <;> simp
@[simp] theorem State.afterKey_pending (s : State) (b : Bool) : (s.afterKey b).pending = s.pending := by unfold State.afterKey; (repeat' split) <;> simp

/-! `refuseKey` touches at most: bus, intake, lines, seq, disp, spell, esc, alert. -/

@[simp] theorem State.refuseKey_wheel (s : State) (k : Keystroke) (m : Option Message) : (s.refuseKey k m).wheel = s.wheel := by simp only [State.refuseKey]; split <;> simp
@[simp] theorem State.refuseKey_corr (s : State) (k : Keystroke) (m : Option Message) : (s.refuseKey k m).corr = s.corr := by simp only [State.refuseKey]; split <;> simp
@[simp] theorem State.refuseKey_store (s : State) (k : Keystroke) (m : Option Message) : (s.refuseKey k m).store = s.store := by simp only [State.refuseKey]; split <;> simp
@[simp] theorem State.refuseKey_supply (s : State) (k : Keystroke) (m : Option Message) : (s.refuseKey k m).supply = s.supply := by simp only [State.refuseKey]; split <;> simp
@[simp] theorem State.refuseKey_pins (s : State) (k : Keystroke) (m : Option Message) : (s.refuseKey k m).pins = s.pins := by simp only [State.refuseKey]; split <;> simp
@[simp] theorem State.refuseKey_pending (s : State) (k : Keystroke) (m : Option Message) : (s.refuseKey k m).pending = s.pending := by simp only [State.refuseKey]; split <;> simp

/-! `claimLine` touches at most: bus, intake, lines. -/

@[simp] theorem State.claimLine_wheel (s : State) (k : Keystroke) : (s.claimLine k).wheel = s.wheel := by unfold State.claimLine; (repeat' split) <;> simp
@[simp] theorem State.claimLine_esc (s : State) (k : Keystroke) : (s.claimLine k).esc = s.esc := by unfold State.claimLine; (repeat' split) <;> simp
@[simp] theorem State.claimLine_seq (s : State) (k : Keystroke) : (s.claimLine k).seq = s.seq := by unfold State.claimLine; (repeat' split) <;> simp
@[simp] theorem State.claimLine_corr (s : State) (k : Keystroke) : (s.claimLine k).corr = s.corr := by unfold State.claimLine; (repeat' split) <;> simp
@[simp] theorem State.claimLine_spell (s : State) (k : Keystroke) : (s.claimLine k).spell = s.spell := by unfold State.claimLine; (repeat' split) <;> simp
@[simp] theorem State.claimLine_disp (s : State) (k : Keystroke) : (s.claimLine k).disp = s.disp := by unfold State.claimLine; (repeat' split) <;> simp
@[simp] theorem State.claimLine_alert (s : State) (k : Keystroke) : (s.claimLine k).alert = s.alert := by unfold State.claimLine; (repeat' split) <;> simp
@[simp] theorem State.claimLine_store (s : State) (k : Keystroke) : (s.claimLine k).store = s.store := by unfold State.claimLine; (repeat' split) <;> simp
@[simp] theorem State.claimLine_supply (s : State) (k : Keystroke) : (s.claimLine k).supply = s.supply := by unfold State.claimLine; (repeat' split) <;> simp
@[simp] theorem State.claimLine_pins (s : State) (k : Keystroke) : (s.claimLine k).pins = s.pins := by unfold State.claimLine; (repeat' split) <;> simp
@[simp] theorem State.claimLine_pending (s : State) (k : Keystroke) : (s.claimLine k).pending = s.pending := by unfold State.claimLine; (repeat' split) <;> simp

/-! `closeJob` touches at most: bus, intake, lines, seq, disp, spell, esc. -/

@[simp] theorem State.closeJob_wheel (s : State) (n : SourceNo) : (s.closeJob n).wheel = s.wheel := by simp only [State.closeJob]; (repeat' split) <;> simp
@[simp] theorem State.closeJob_corr (s : State) (n : SourceNo) : (s.closeJob n).corr = s.corr := by simp only [State.closeJob]; (repeat' split) <;> simp
@[simp] theorem State.closeJob_alert (s : State) (n : SourceNo) : (s.closeJob n).alert = s.alert := by simp only [State.closeJob]; (repeat' split) <;> simp
@[simp] theorem State.closeJob_store (s : State) (n : SourceNo) : (s.closeJob n).store = s.store := by simp only [State.closeJob]; (repeat' split) <;> simp
@[simp] theorem State.closeJob_supply (s : State) (n : SourceNo) : (s.closeJob n).supply = s.supply := by simp only [State.closeJob]; (repeat' split) <;> simp
@[simp] theorem State.closeJob_pins (s : State) (n : SourceNo) : (s.closeJob n).pins = s.pins := by simp only [State.closeJob]; (repeat' split) <;> simp
@[simp] theorem State.closeJob_pending (s : State) (n : SourceNo) : (s.closeJob n).pending = s.pending := by simp only [State.closeJob]; (repeat' split) <;> simp

/-! `endJob` touches at most: bus, intake, lines, seq, disp, spell, esc. -/

@[simp] theorem State.endJob_wheel (s : State) (n : SourceNo) (i l : Nat) : (s.endJob n i l).wheel = s.wheel := by simp [State.endJob]
@[simp] theorem State.endJob_corr (s : State) (n : SourceNo) (i l : Nat) : (s.endJob n i l).corr = s.corr := by simp [State.endJob]
@[simp] theorem State.endJob_alert (s : State) (n : SourceNo) (i l : Nat) : (s.endJob n i l).alert = s.alert := by simp [State.endJob]
@[simp] theorem State.endJob_store (s : State) (n : SourceNo) (i l : Nat) : (s.endJob n i l).store = s.store := by simp [State.endJob]
@[simp] theorem State.endJob_supply (s : State) (n : SourceNo) (i l : Nat) : (s.endJob n i l).supply = s.supply := by simp [State.endJob]
@[simp] theorem State.endJob_pins (s : State) (n : SourceNo) (i l : Nat) : (s.endJob n i l).pins = s.pins := by simp [State.endJob]
@[simp] theorem State.endJob_pending (s : State) (n : SourceNo) (i l : Nat) : (s.endJob n i l).pending = s.pending := by simp [State.endJob]

end Sys2Proof.Machine
end

