-- ==== Sys2Proof/Laws/Lines.lean ====
section
/-! SUPPORT. What the operations on lines, words and the print queue can do, said once each: the word
records and serials apart, the Spelling Unit changes no line; the strike states apart, neither does the
feeding; the feeding and the head examination only add to the print queue; and a write that is started
changes the store unit alone. -/

namespace Sys2Proof.Machine

/-! ### Lines by number -/

theorem updateFirst_numbers {f : Line → Line} (hf : ∀ l, (f l).number = l.number) (n : Word)
    (ls : List Line) : (updateFirst n f ls).map (·.number) = ls.map (·.number) := by
  induction ls with
  | nil => rfl
  | cons l ls ih => by_cases h : l.number = n <;> simp [updateFirst, h, ih, hf]

theorem updateFirst_map {α : Type} {f : Line → Line} {g : Line → α} {n : Word} {ls : List Line}
    (h : ∀ l, ls.find? (·.number == n) = some l → g (f l) = g l) :
    (updateFirst n f ls).map g = ls.map g := by
  induction ls with
  | nil => rfl
  | cons l ls ih =>
    by_cases hl : l.number = n
    · simp [updateFirst, hl, h l (by simp [hl])]
    · simp only [updateFirst, hl, if_false, List.map_cons]
      rw [ih fun x hx => h x (by simp [hl, hx])]

theorem find?_updateFirst {f : Line → Line} (hf : ∀ l, (f l).number = l.number) (n m : Word)
    (ls : List Line) :
    (updateFirst n f ls).find? (·.number == m) =
      (ls.find? (·.number == m)).map fun l => if m = n then f l else l := by
  induction ls with
  | nil => rfl
  | cons l ls ih =>
    by_cases hl : l.number = n
    · by_cases hm : m = n
      · simp [updateFirst, hl, hm, hf]
      · have : ¬ n = m := fun h => hm h.symm
        simp [updateFirst, hl, hf, this, hm]
    · by_cases hm : l.number = m
      · have : ¬ m = n := fun h => hl (hm.trans h)
        simp [updateFirst, hm, this]
      · simp [updateFirst, hl, hm, ih]

/-- The line of a number after the line of a number has changed. -/
theorem LineStore.find_updateLine {f : Line → Line} (hf : ∀ l, (f l).number = l.number)
    (ls : LineStore) (n m : Word) :
    (ls.updateLine n f).find m = (ls.find m).map fun l => if m = n then f l else l := by
  unfold LineStore.updateLine LineStore.find
  by_cases hc : ls.current.number = n
  · by_cases hm : n = m
    · simp [hc, hm, hf]
    · have : ¬ m = n := fun h => hm h.symm
      simp [hc, hf, hm, this]
  · by_cases hm : ls.current.number = m
    · have : ¬ m = n := fun h => hc (hm.trans h)
      simp [hm, this]
    · simp [hc, hm, find?_updateFirst hf]

theorem LineStore.find_number {ls : LineStore} {n : Word} {l : Line} (h : ls.find n = some l) :
    l.number = n := by
  unfold LineStore.find at h
  split at h
  · cases h; assumption
  · simpa using List.find?_some h

/-- A change of the line of a number changes the current line or the ring alone. -/
theorem LineStore.updateLine_eq (ls : LineStore) (n : Word) (f : Line → Line) :
    ls.updateLine n f =
      { ls with current := (ls.updateLine n f).current, ring := (ls.updateLine n f).ring } := by
  unfold LineStore.updateLine; split <;> rfl

@[simp] theorem LineStore.updateLine_ring_length (ls : LineStore) (n : Word) (f : Line → Line) :
    (ls.updateLine n f).ring.length = ls.ring.length := by
  unfold LineStore.updateLine
  split
  · rfl
  · induction ls.ring with
    | nil => rfl
    | cons l r ih => by_cases h : l.number = n <;> simp_all [updateFirst]

/-! ### Lines without their words, and without the state of their strikes -/

/-- A line without its word records and serials. -/
def Line.wordless (l : Line) : Line := { l with entries := l.entries.map Entry.bare, words := [] }

/-- The Line Store without word records, serials and the serial counter. -/
def LineStore.wordless (ls : LineStore) : LineStore :=
  { ls with current := ls.current.wordless, ring := ls.ring.map Line.wordless, serialCounter := 0 }

/-- A line without its words and the state of its strikes. -/
def Line.layout (l : Line) : Line := { l with entries := l.entries.map Entry.shape, words := [] }

/-- The Line Store without words, strike states and the feeding mark. -/
def LineStore.layout (ls : LineStore) : LineStore :=
  { ls with
    current := ls.current.layout, ring := ls.ring.map Line.layout, mark := none, serialCounter := 0 }

theorem Entry.shape_bare (e : Entry) : e.bare.shape = e.shape := rfl

theorem Line.layout_wordless (l : Line) : l.wordless.layout = l.layout := by
  simp [Line.wordless, Line.layout, Function.comp_def, Entry.shape_bare]

theorem LineStore.layout_wordless (ls : LineStore) : ls.wordless.layout = ls.layout := by
  simp [LineStore.wordless, LineStore.layout, Line.layout_wordless, Function.comp_def]

theorem LineStore.layout_of_wordless {a b : LineStore} (h : a.wordless = b.wordless) :
    a.layout = b.layout := by rw [← a.layout_wordless, h, b.layout_wordless]

/-- A change that leaves a line as it is but for its words leaves the Line Store so. -/
theorem LineStore.updateLine_wordless {ls : LineStore} {n : Word} {f : Line → Line}
    (h : ∀ l, ls.find n = some l → (f l).wordless = l.wordless) :
    (ls.updateLine n f).wordless = ls.wordless := by
  unfold LineStore.updateLine
  split
  · next hc => simp [LineStore.wordless, h ls.current (by simp [LineStore.find, hc])]
  · next hc =>
    simp only [LineStore.wordless]
    rw [updateFirst_map fun l hl => h l (by simp [LineStore.find, hc, hl])]

/-- A change that leaves a line as it is but for its strikes and words leaves the Line Store so. -/
theorem LineStore.updateLine_layout {ls : LineStore} {n : Word} {f : Line → Line}
    (h : ∀ l, ls.find n = some l → (f l).layout = l.layout) :
    (ls.updateLine n f).layout = ls.layout := by
  unfold LineStore.updateLine
  split
  · next hc => simp [LineStore.layout, h ls.current (by simp [LineStore.find, hc])]
  · next hc =>
    simp only [LineStore.layout]
    rw [updateFirst_map fun l hl => h l (by simp [LineStore.find, hc, hl])]

theorem LineStore.find_wordless (ls : LineStore) (n : Word) :
    ls.wordless.find n = (ls.find n).map Line.wordless := by
  unfold LineStore.find LineStore.wordless
  split <;> rename_i h
  · simp [show ls.current.number = n from h]
  · have h' : ¬ ls.current.number = n := h
    simp [h', List.find?_map, Function.comp_def, Line.wordless]

theorem LineStore.find_layout (ls : LineStore) (n : Word) :
    ls.layout.find n = (ls.find n).map Line.layout := by
  unfold LineStore.find LineStore.layout
  split <;> rename_i h
  · simp [show ls.current.number = n from h]
  · have h' : ¬ ls.current.number = n := h
    simp [h', List.find?_map, Function.comp_def, Line.layout]

/-! ### The Spelling Unit changes words alone -/

/-- `t` is `s` but for words, pending items, query slots and the QUERY frames enqueued: what the
Spelling Unit may change on a call of the Line Store (R110, R164 to R175). -/
structure SpellingOnly (s t : State) : Prop where
  lines : t.lines.wordless = s.lines.wordless
  rest : t = { s with
    bus := { s.bus with queue := t.bus.queue }
    lines := t.lines
    spell := { s.spell with pending := t.spell.pending, slots := t.spell.slots } }
  frames : s.bus.queue <+: t.bus.queue
  silent : s.bus.conflict = true → t.bus.queue = s.bus.queue
  queries : t.bus.queue.countP OutFrame.isReport = s.bus.queue.countP OutFrame.isReport

theorem SpellingOnly.refl (s : State) : SpellingOnly s s :=
  ⟨rfl, rfl, List.prefix_refl _, fun _ => rfl, rfl⟩

theorem SpellingOnly.trans {s t u : State} (h : SpellingOnly s t) (k : SpellingOnly t u) :
    SpellingOnly s u := by
  have hb : t.bus.conflict = s.bus.conflict := by rw [h.rest]
  exact ⟨k.lines.trans h.lines, by rw [k.rest, h.rest], h.frames.trans k.frames,
    fun c => (k.silent (hb.trans c)).trans (h.silent c), k.queries.trans h.queries⟩

theorem SpellingOnly.of_lines {s : State} {f : LineStore → LineStore}
    (h : (f s.lines).wordless = s.lines.wordless) : SpellingOnly s (s.mapLines f) :=
  ⟨h, rfl, List.prefix_refl _, fun _ => rfl, rfl⟩

theorem SpellingOnly.of_spell (s : State) (p : List PendingItem) (q : Vector Slot 4) :
    SpellingOnly s (s.mapSpell fun u => { u with pending := p, slots := q }) :=
  ⟨rfl, rfl, List.prefix_refl _, fun _ => rfl, rfl⟩

theorem State.updateLine_only (s : State) (n : Word) {f : Line → Line}
    (h : ∀ l, (f l).wordless = l.wordless) : SpellingOnly s (s.updateLine n f) :=
  .of_lines (f := fun ls => ls.updateLine n f) (LineStore.updateLine_wordless fun l _ => h l)

theorem State.setWord_only (s : State) (line serial : Word) (st : WordState)
    (tag : Option (Fin 4)) : SpellingOnly s (s.setWord line serial st tag) :=
  s.updateLine_only line fun _ => rfl

theorem State.setSlot_only (s : State) (tag : Fin 4) (x : Slot) : SpellingOnly s (s.setSlot tag x) :=
  .of_spell s s.spell.pending _

theorem State.enqueueQuery_only (s : State) (d : StationNo) (tag : Fin 4) (letters : List Nat) :
    SpellingOnly s (s.enqueueFrame (.query d tag letters)) := by
  unfold State.enqueueFrame
  split
  · exact .refl s
  · next h => exact ⟨rfl, rfl, List.prefix_append _ _, fun c => absurd c h, by
      simp [OutFrame.isReport]⟩

theorem State.slotTakes_only (s : State) (tag : Fin 4) (line serial : Word) (r : DictRole)
    (already : Option DictRole) : SpellingOnly s (s.slotTakes tag line serial r already) :=
  ((s.setSlot_only _ _).trans (State.setWord_only _ _ _ _ _)).trans
    (State.enqueueQuery_only _ _ _ _)

theorem State.takeItemsUpTo_only (n : Nat) (s : State) : SpellingOnly s (s.takeItemsUpTo n) := by
  induction n generalizing s with
  | zero => exact .refl s
  | succ n ih =>
    unfold State.takeItemsUpTo
    split
    · exact .refl s
    · split
      · next item rest tag _ _ =>
        have h := SpellingOnly.of_spell s rest s.spell.slots
        dsimp only
        split
        · exact (h.trans (State.slotTakes_only _ _ _ _ _ _)).trans (ih _)
        · exact (h.trans (State.setWord_only _ _ _ _ _)).trans (ih _)
      · exact .refl s

theorem State.takeItems_only (s : State) : SpellingOnly s s.takeItems := State.takeItemsUpTo_only _ s

theorem State.freeSlot_only (s : State) (tag : Fin 4) : SpellingOnly s (s.freeSlot tag) :=
  (s.setSlot_only _ _).trans (State.takeItems_only _)

theorem State.appendPending_only (s : State) (i : PendingItem) : SpellingOnly s (s.appendPending i) := by
  unfold State.appendPending
  split
  · split
    · exact (State.setWord_only _ _ _ _ _).trans (.of_spell _ _ _)
    · exact .of_spell s _ s.spell.slots
  · exact .of_spell s _ s.spell.slots

theorem State.returnPending_only (s : State) (i : PendingItem) : SpellingOnly s (s.returnPending i) := by
  unfold State.returnPending
  split
  · split
    · exact (State.setWord_only _ _ _ _ _).trans (.of_spell _ _ _)
    · exact .of_spell s _ s.spell.slots
  · exact .of_spell s _ s.spell.slots

/-- A word handed to the Spelling Unit (R110, R159). -/
theorem State.handWord_only (s : State) (line serial : Word) :
    SpellingOnly s (s.handWord line serial) := by
  unfold State.handWord
  split
  · exact .refl s
  · split
    · exact .refl s
    · have h := s.updateLine_only line (f := fun l' => { l' with words := l'.words.map fun w =>
        if w.serial = serial then { w with capital := some (capitalOf (l'.wordCodes serial)) }
        else w }) fun _ => rfl
      dsimp only
      generalize s.updateLine line _ = s' at h ⊢
      (repeat' split) <;> first
        | exact .refl s
        | exact h.trans (State.setWord_only _ _ _ _ _)
        | exact ((h.trans (State.setWord_only _ _ _ _ _)).trans
            (State.appendPending_only _ _)).trans (State.takeItems_only _)

/-- A word that goes away (R174). -/
theorem State.dropWord_only (s : State) (line serial : Word) :
    SpellingOnly s (s.dropWord line serial) := .of_spell s _ _

theorem SpellingOnly.foldl {α : Type} {f : State → α → State}
    (h : ∀ s a, SpellingOnly s (f s a)) (l : List α) (s : State) :
    SpellingOnly s (l.foldl f s) := by
  induction l generalizing s with
  | nil => exact .refl s
  | cons a l ih => exact (h s a).trans (ih _)

theorem Line.segment_wordless (l : Line) (counter : Word) :
    (l.segment counter).line.wordless = l.wordless := by
  simp [Line.segment, Line.wordless, Entry.bare, Function.comp_def]

/-- Segmenting a line, and handing its closed words, changes words alone (R108 to R110). -/
theorem State.resegment_only (s : State) (number : Word) : SpellingOnly s (s.resegment number) := by
  unfold State.resegment
  split
  · exact .refl s
  · next l hl =>
    have h1 : SpellingOnly s (s.updateLine number fun _ => (l.segment s.lines.serialCounter).line) :=
      .of_lines (f := fun ls => ls.updateLine number fun _ => (l.segment s.lines.serialCounter).line)
        (LineStore.updateLine_wordless fun x hx => by
          rw [hl] at hx; cases hx; exact l.segment_wordless _)
    have h2 := h1.trans (SpellingOnly.of_lines (s := s.updateLine number fun _ =>
      (l.segment s.lines.serialCounter).line)
      (f := fun ls => { ls with serialCounter := (l.segment s.lines.serialCounter).counter }) rfl)
    exact (h2.trans (.foldl (fun s a => s.dropWord_only number a) _ _)).trans
      (.foldl (fun s a => s.handWord_only number a) _ _)

theorem State.queryFailed_only (s : State) (tag : Fin 4) (q : Query) :
    SpellingOnly s (s.queryFailed tag q) := by
  unfold State.queryFailed
  split
  · exact State.slotTakes_only _ _ _ _ _ _
  · exact (State.setWord_only _ _ _ _ _).trans (State.freeSlot_only _ _)

theorem State.queryEnded_only (s : State) (tag : Fin 4) : SpellingOnly s (s.queryEnded tag) := by
  unfold State.queryEnded
  split
  · exact .refl s
  · exact State.queryFailed_only _ _ _
  · exact State.freeSlot_only _ _

/-! ### The feeding (R102) -/

/-- `t` is `s` but for strike states, the feeding mark and actions that joined the print queue: what the
feeding of a line may change. -/
structure FeedingOnly (s t : State) : Prop where
  lines : t.lines.layout = s.lines.layout
  rest : t = { s with
    lines := { t.lines with serialCounter := s.lines.serialCounter }
    seq := { s.seq with queue := t.seq.queue } }
  actions : s.seq.queue <+: t.seq.queue
  room : s.seq.queue.length ≤ 48 → t.seq.queue.length ≤ 48
  plain : ∀ (n : Word) (l : Line), s.lines.find n = some l → ∃ l', t.lines.find n = some l' ∧
    l'.live.map (·.id) = l.live.map (·.id)

theorem FeedingOnly.refl (s : State) : FeedingOnly s s :=
  ⟨rfl, rfl, List.prefix_refl _, id, fun _ l h => ⟨l, h, rfl⟩⟩

theorem FeedingOnly.trans {s t u : State} (h : FeedingOnly s t) (k : FeedingOnly t u) :
    FeedingOnly s u := by
  have hc : t.lines.serialCounter = s.lines.serialCounter := by rw [h.rest]
  refine ⟨k.lines.trans h.lines, ?_, h.actions.trans k.actions, fun c => k.room (h.room c), ?_⟩
  · have := k.rest
    rw [hc] at this
    rw [this, h.rest]
  · intro n l hl
    obtain ⟨l', h1, h2⟩ := h.plain n l hl
    obtain ⟨l'', h3, h4⟩ := k.plain n l' h1
    exact ⟨l'', h3, h4.trans h2⟩

theorem State.setMark_feeding (s : State) (m : Option FeedMark) : FeedingOnly s (s.setMark m) :=
  ⟨rfl, rfl, List.prefix_refl _, id, fun _ l h => ⟨l, h, rfl⟩⟩

theorem State.enqueueOne_feeding {s : State} (h : s.freePlaces ≠ 0) (a : Action) :
    FeedingOnly s (s.enqueue [a]) := by
  refine ⟨rfl, rfl, List.prefix_append _ _, fun _ => ?_, fun _ l h => ⟨l, h, rfl⟩⟩
  simp [State.freePlaces, Config.printCapacity, State.enqueue, State.mapSeq] at *
  omega

theorem State.beginEntry_shape (s : State) (n : Word) (e : Entry) : (s.beginEntry n e).shape = e.shape := by
  unfold State.beginEntry
  split <;> rfl

/-- A change of the entries of a line that concerns their strikes alone. -/
theorem State.mapEntries_feeding (s : State) (n : Word) {g : Entry → Entry}
    (hs : ∀ x, (g x).shape = x.shape) (hl : ∀ x, (g x).live = x.live) :
    FeedingOnly s (s.updateLine n fun l => { l with entries := l.entries.map g }) := by
  have hi : ∀ x, (g x).id = x.id := fun x => by
    have := congrArg Entry.id (hs x)
    exact this
  have hf := fun m => LineStore.find_updateLine
    (f := fun l : Line => { l with entries := l.entries.map g }) (fun _ => rfl) s.lines n m
  refine ⟨LineStore.updateLine_layout fun x _ => ?_, ?_, List.prefix_refl _, fun h => h, ?_⟩
  · simp [Line.layout, Function.comp_def, hs]
  · simp only [State.updateLine, State.mapLines]
    rw [LineStore.updateLine_eq]
  · intro m x hx
    refine ⟨_, (hf m).trans (by rw [hx]; rfl), ?_⟩
    split
    · simp only [Line.live, List.filter_map, List.map_map, Function.comp_def, hl, hi]
    · rfl

/-- Enqueueing from the feeding mark (R102). -/
theorem State.feedOne_feeding {s : State} (h : s.freePlaces ≠ 0) (m : FeedMark) :
    FeedingOnly s (s.feedOne m) := by
  have up : ∀ (l : Line) (id : Nat), FeedingOnly s (s.updateLine l.number fun l' =>
      { l' with entries := l'.entries.map fun x =>
        if x.id = id ∧ x.strike = some .held then s.beginEntry l.number x else x }) := by
    intro l id
    refine s.mapEntries_feeding _ (fun x => ?_) fun x => ?_
    · split
      · exact s.beginEntry_shape _ _
      · rfl
    · split
      · next hx =>
        simp only [State.beginEntry, hx.2, Entry.begin, Entry.live, Option.isSome_some, if_true]
        rfl
      · rfl
  unfold State.feedOne
  split
  · split
    · exact (State.enqueueOne_feeding h _).trans (State.setMark_feeding _ _)
    · exact s.setMark_feeding _
  · split
    · exact s.setMark_feeding _
    · split
      · exact s.setMark_feeding _
      · next l hl _ e he =>
        dsimp only
        split
        · exact (up l _).trans (State.setMark_feeding _ _)
        · exact ((up l _).trans (State.enqueueOne_feeding (by simpa [State.freePlaces] using h) _)).trans
            (State.setMark_feeding _ _)

theorem State.pumpUpTo_feeding (n : Nat) (s : State) : FeedingOnly s (s.pumpUpTo n) := by
  induction n generalizing s with
  | zero => exact .refl s
  | succ n ih =>
    unfold State.pumpUpTo
    split
    · exact .refl s
    · split
      · exact .refl s
      · next h => exact (State.feedOne_feeding h _).trans (ih _)

/-- The feeding into free places (R102). -/
theorem State.pump_feeding (s : State) : FeedingOnly s s.pump := State.pumpUpTo_feeding _ s

/-! ### The examination of the head (R117, R118) -/

/-- A REPORT that reports a change of the machine state. -/
theorem State.reportIfChanged_spec (s : State) (m : MachineState) :
    s.reportIfChanged m = { s with bus := { s.bus with
      queue := (s.reportIfChanged m).bus.queue
      heldReport := (s.reportIfChanged m).bus.heldReport } } := by
  unfold State.reportIfChanged
  split
  · rfl
  · rw [State.triggerReport]
    repeat' split
    all_goals simp [State.mapBus]

/-- The mechanism enters a state: its own field, the panel's conditions and REPORTs change (R118). -/
theorem State.setMech_spec (s : State) (m : MechState) (p : Option PauseCause)
    (n : Option WheelNeed) :
    s.setMech m p n = { s with
      seq := { s.seq with mech := m }
      disp := { s.disp with standing := { s.disp.standing with pause := p, wheel := n } }
      bus := { s.bus with
        queue := (s.setMech m p n).bus.queue, heldReport := (s.setMech m p n).bus.heldReport } } := by
  unfold State.setMech
  rw [State.reportIfChanged_spec]
  rfl

/-- What an examination of the head may change (R117, R118). -/
theorem State.examineHead_spec (s : State) :
    s.examineHead = { s with
      seq := { s.seq with
        mech := s.examineHead.seq.mech, work := s.examineHead.seq.work
        headStarted := s.examineHead.seq.headStarted }
      disp := { s.disp with standing := { s.disp.standing with
        pause := s.examineHead.disp.standing.pause, wheel := s.examineHead.disp.standing.wheel } }
      bus := { s.bus with
        queue := s.examineHead.bus.queue, heldReport := s.examineHead.bus.heldReport } } := by
  unfold State.examineHead
  repeat' split
  all_goals first
    | rfl
    | (rw [State.setMech_spec] <;> rfl)

/-- The settling of a change of the print queue: the feeding, and then the examination of the head. -/
theorem State.settle_feeding (s : State) :
    s.settle = { s with
      lines := s.pump.lines
      seq := { s.seq with
        queue := s.pump.seq.queue, mech := s.settle.seq.mech, work := s.settle.seq.work
        headStarted := s.settle.seq.headStarted }
      disp := { s.disp with standing := { s.disp.standing with
        pause := s.settle.disp.standing.pause, wheel := s.settle.disp.standing.wheel } }
      bus := { s.bus with queue := s.settle.bus.queue, heldReport := s.settle.bus.heldReport } } := by
  have h := s.pump.examineHead_spec
  have k := s.pump_feeding.rest
  unfold State.settle
  split
  · generalize s.pump = t at *
    rw [k]
  · rw [h]
    generalize s.pump.examineHead = t at *
    rw [k]

/-! ### Lines at work -/

/-- `t` is `s` but for words, strike states, the feeding mark, what the Spelling Unit asks, actions that
joined the print queue, what the mechanism does with its head, and REPORTs: what every change of a line
may bring with it. -/
structure WorkOnly (s t : State) : Prop where
  lines : t.lines.layout = s.lines.layout
  rest : t = { s with
    bus := { s.bus with queue := t.bus.queue, heldReport := t.bus.heldReport }
    lines := t.lines
    seq := { s.seq with
      queue := t.seq.queue, mech := t.seq.mech, work := t.seq.work
      headStarted := t.seq.headStarted }
    spell := { s.spell with pending := t.spell.pending, slots := t.spell.slots }
    disp := { s.disp with standing := { s.disp.standing with
      pause := t.disp.standing.pause, wheel := t.disp.standing.wheel } } }
  actions : s.seq.queue <+: t.seq.queue
  room : s.seq.queue.length ≤ 48 → t.seq.queue.length ≤ 48

theorem WorkOnly.refl (s : State) : WorkOnly s s := ⟨rfl, rfl, List.prefix_refl _, fun h => h⟩

theorem WorkOnly.trans {s t u : State} (h : WorkOnly s t) (k : WorkOnly t u) : WorkOnly s u :=
  ⟨k.lines.trans h.lines, by rw [k.rest, h.rest], h.actions.trans k.actions,
    fun c => k.room (h.room c)⟩

theorem SpellingOnly.work {s t : State} (h : SpellingOnly s t) : WorkOnly s t :=
  ⟨LineStore.layout_of_wordless h.lines, by rw [h.rest], by rw [h.rest], by rw [h.rest]; exact id⟩

theorem FeedingOnly.work {s t : State} (h : FeedingOnly s t) : WorkOnly s t :=
  ⟨h.lines, by rw [h.rest], h.actions, h.room⟩

theorem State.examineHead_work (s : State) : WorkOnly s s.examineHead :=
  ⟨by rw [s.examineHead_spec], by rw [s.examineHead_spec], by rw [s.examineHead_spec],
    by rw [s.examineHead_spec]; exact id⟩

/-- The settling of a change of the print queue. -/
theorem State.settle_work (s : State) : WorkOnly s s.settle := by
  unfold State.settle
  split
  · exact s.pump_feeding.work
  · exact s.pump_feeding.work.trans (State.examineHead_work _)

theorem State.resegment_work (s : State) (n : Word) : WorkOnly s (s.resegment n) :=
  (s.resegment_only n).work

/-- The segmentation of a changed line, and the settling. -/
theorem State.resegment_settle_work (s : State) (n : Word) : WorkOnly s (s.resegment n).settle :=
  (s.resegment_work n).trans (State.settle_work _)

/-! ### Commits (R99) -/

/-- The lines after a commit, but for words, strikes and the mark: the current line stands at the newest
end of the ring, of which the newest three lines stay, and the opened line is current. -/
def State.committedLines (s : State) (carried : List Entry) : LineStore :=
  let ring := s.lines.ring ++ [{ s.lines.current with state := .committed }]
  { s.lines with
    current := s.openedLine s.lines.current carried
    ring := if 3 < ring.length then ring.tail else ring
    viewDepth := 0
    cursor := (s.openedLine s.lines.current carried).live.length
    mark := none
    nextLine := s.lines.nextLine + 1 }

theorem State.ringOverflow_spec (s : State) :
    s.ringOverflow = { s with
      lines := { s.lines with
        ring := if 3 < s.lines.ring.length then s.lines.ring.tail else s.lines.ring }
      spell := { s.spell with
        pending := s.ringOverflow.spell.pending, slots := s.ringOverflow.spell.slots } } := by
  unfold State.ringOverflow
  split
  · next h =>
    have : s.lines = { s.lines with ring := [] } := by rw [← h]
    simp [h, ← this]
  · next oldest rest h =>
    have key := SpellingOnly.foldl (f := fun s (w : WordRec) => s.dropWord oldest.number w.serial)
      (fun s w => s.dropWord_only _ _) oldest.words (s.mapLines fun ls => { ls with ring := rest })
    have lines : ∀ (ws : List WordRec) (s : State),
        (ws.foldl (fun s w => s.dropWord oldest.number w.serial) s).lines = s.lines ∧
        (ws.foldl (fun s w => s.dropWord oldest.number w.serial) s).bus = s.bus := by
      intro ws
      induction ws with
      | nil => exact fun s => ⟨rfl, rfl⟩
      | cons w ws ih => exact fun s => ih _
    by_cases hl : 3 < s.lines.ring.length
    · rw [if_pos hl, if_pos (show Config.ringCapacity < _ from hl)]
      have k := key.rest
      rw [(lines _ _).1, (lines _ _).2] at k
      refine k.trans ?_
      simp [State.mapLines, h]
    · rw [if_neg hl, if_neg (show ¬ Config.ringCapacity < _ from hl)]

/-- What a commit does (R99, R103): the lines go on, and the rest is work. -/
theorem State.commit_work (s : State) (carried : List Entry) :
    ∃ u, WorkOnly u (s.commit carried) ∧ u.lines.layout = (s.committedLines carried).layout ∧
      u = { s with
        lines := u.lines
        esc := { s.esc with
          paperOffset := s.lines.current.offset + BitVec.ofNat 16 s.esc.spacing, bellRung := false }
        bus := { s.bus with queue := u.bus.queue }
        spell := { s.spell with pending := u.spell.pending, slots := u.spell.slots }
        disp := { s.disp with
          window := windowFor 0 (s.openedLine s.lines.current carried).live.length } } ∧
      s.bus.queue <+: u.bus.queue ∧ (s.bus.conflict = true → u.bus.queue = s.bus.queue) ∧
      u.bus.queue.countP OutFrame.isReport = s.bus.queue.countP OutFrame.isReport ∧
      u.lines.current = s.openedLine s.lines.current carried := by
  have h := (s.mapCurrent fun l => { l with state := .committed }).resegment_only
    s.lines.current.number
  refine ⟨_, State.settle_work _, ?_⟩
  generalize (s.mapCurrent fun l => { l with state := .committed }).resegment
    s.lines.current.number = s1 at h ⊢
  obtain ⟨hl, hr, hf, hs, hq⟩ := h
  have hcur := congrArg LineStore.current hl
  have hring := congrArg LineStore.ring hl
  have hnext := congrArg LineStore.nextLine hl
  have hhold := congrArg LineStore.hold hl
  simp only [LineStore.wordless, State.mapCurrent, State.mapLines] at hcur hring hnext hhold
  have hfresh : s1.openedLine s1.lines.current carried = s.openedLine s.lines.current carried := by
    have hesc : s1.esc = s.esc := by rw [hr]; rfl
    have ho := congrArg Line.owner hcur
    have hoff := congrArg Line.offset hcur
    simp only [Line.wordless] at ho hoff
    simp only [State.openedLine, LineStore.keyboardMode, hesc, hnext, hhold, ho, hoff]
  have hlen : s1.lines.ring.length = s.lines.ring.length := by
    simpa using congrArg List.length hring
  simp only [hfresh]
  refine ⟨?_, ?_, ?_, ?_, ?_, ?_⟩
  · rw [State.ringOverflow_spec]
    simp only [State.showFrom, State.setCursor, State.mapLines, State.mapDisp, State.mapEsc,
      LineStore.layout, State.committedLines]
    have hold : s1.lines.current.layout = ({ s.lines.current with state := .committed } : Line).layout := by
      rw [← Line.layout_wordless, hcur, Line.layout_wordless]
    have hringl : s1.lines.ring.map Line.layout = s.lines.ring.map Line.layout := by
      have := congrArg (List.map Line.layout) hring
      simpa [Function.comp_def, Line.layout_wordless] using this
    simp only [List.length_append, hlen, List.length_singleton, hnext, hhold]
    split
    · rw [List.map_tail, List.map_tail, List.map_append, List.map_append, hringl]
      simp [hold]
    · rw [List.map_append, List.map_append, hringl]
      simp [hold]
  · rw [State.ringOverflow_spec]
    simp only [State.showFrom, State.setCursor, State.mapLines, State.mapDisp, State.mapEsc]
    rw [hr]
    rfl
  all_goals
    rw [State.ringOverflow_spec]
    simp only [State.showFrom, State.setCursor, State.mapLines, State.mapDisp, State.mapEsc]
  · exact hf
  · exact hs
  · exact hq

/-! ### The LIFTs of a target, and what a write starts -/

@[simp] theorem State.liftActions_length (s : State) (line : Word) (e : Entry) :
    (s.liftActions line e).length = s.liftsFor line e := by
  simp [State.liftActions]

@[simp] theorem liftCount_append (a b : List Action) : liftCount (a ++ b) = liftCount a + liftCount b :=
  List.countP_append

/-- Every action of a target's LIFTs is a LIFT of that entry with its own sub-index (R145). -/
theorem State.mem_liftActions {s : State} {line : Word} {e : Entry} {a : Action}
    (h : a ∈ s.liftActions line e) :
    ∃ i < s.liftsFor line e, ∃ g, a = .lift (s.liftedBlow line e i) g := by
  simp only [State.liftActions, List.mem_map, List.mem_range] at h
  obtain ⟨i, hi, rfl⟩ := h
  exact ⟨i, hi, _, rfl⟩

@[simp] theorem State.liftActions_count (s : State) (line : Word) (e : Entry) :
    liftCount (s.liftActions line e) = s.liftsFor line e := by
  have h : liftCount (s.liftActions line e) = (s.liftActions line e).length :=
    List.countP_eq_length.mpr fun a ha => by
      obtain ⟨i, -, g, rfl⟩ := State.mem_liftActions ha
      rfl
  rw [h, State.liftActions_length]

/-- A write that is started changes the store unit alone, as R196 has it. -/
theorem State.startWrite_spec (s : State) :
    s.startWrite = { s with store := s.startWrite.store } ∧ NextWrite s s.store s.startWrite.store := by
  refine ⟨?_, ?_⟩
  · unfold State.startWrite
    split
    · rename_i b _ _ _
      cases b <;> rfl
    · rfl
  · constructor
    · intro h
      unfold State.startWrite
      split
      · rename_i hi hf _
        rcases h with h | h <;> simp_all
      · rfl
    all_goals
      intros
      simp_all [State.startWrite, StoreUnit.firstDirty, State.writeBlock, State.mapStore]

end Sys2Proof.Machine
end

