-- ==== Sys2Proof/Laws/Ownership.lean ====
section
/-! SUPPORT. What the REPORT triggers, the arbiter, the lapses and the head of the key queue can do,
said once each. -/

namespace Sys2Proof.Machine

/-- A trigger changes the outgoing queue and the held triggers only. -/
theorem State.triggerReport_spec (s : State) (c : ReportCause) :
    s.triggerReport c = { s with bus := { s.bus with
      queue := (s.triggerReport c).bus.queue, heldReport := (s.triggerReport c).bus.heldReport } } := by
  unfold State.triggerReport
  repeat' split
  all_goals simp [State.mapBus]

theorem OwnershipOnly.refl (s : State) : OwnershipOnly s s := ⟨fun _ => rfl, fun h => absurd rfl h⟩

/-- A change of the owner changes the ownership and the frames of the bus only. -/
theorem State.setOwner_spec (s : State) (o : Owner) :
    s.setOwner o = { s with
      intake := { s.intake with owner := o }
      lines := { s.lines with
        current := { s.lines.current with owner := o, mode := (s.setOwner o).lines.current.mode } }
      bus := { s.bus with
        queue := (s.setOwner o).bus.queue, heldReport := (s.setOwner o).bus.heldReport } } := by
  unfold State.setOwner
  rw [State.triggerReport_spec]
  simp [State.mapIntake, State.mapCurrent, State.mapLines]

@[simp] theorem State.setOwner_owner (s : State) (o : Owner) : (s.setOwner o).intake.owner = o := by
  rw [State.setOwner_spec]

@[simp] theorem State.setOwner_keys (s : State) (o : Owner) :
    (s.setOwner o).intake.keys = s.intake.keys := by
  rw [State.setOwner_spec]

/-- A grant to another owner changes the ownership only. -/
theorem State.setOwner_ownershipOnly {s : State} {o : Owner} (h : o ≠ s.intake.owner) :
    OwnershipOnly s (s.setOwner o) :=
  ⟨fun k => absurd (by simpa using k) h, fun _ => .inl (by simp)⟩

/-- The arbiter leaves the state, or grants a line without an owner (R39). -/
theorem State.arbitrate_cases (s : State) : s.arbitrate = s ∨
    s.intake.owner = .none ∧ ∃ o, o ≠ .none ∧ s.arbitrate = s.setOwner o ∧
      (o = .keyboard → s.intake.keyboardClaims = true) := by
  unfold State.arbitrate
  split
  · exact .inl rfl
  · rename_i h
    have ho : s.intake.owner = .none := Decidable.not_not.mp h
    split
    · rename_i hk; exact .inr ⟨ho, .keyboard, nofun, rfl, fun _ => hk⟩
    split
    · exact .inr ⟨ho, .source1, nofun, rfl, nofun⟩
    split
    · exact .inr ⟨ho, .source2, nofun, rfl, nofun⟩
    · exact .inl rfl

/-- The arbiter changes the ownership only (R39). -/
theorem State.arbitrate_ownershipOnly (s : State) : OwnershipOnly s s.arbitrate := by
  obtain h | ⟨ho, o, hn, h, -⟩ := s.arbitrate_cases
  · rw [h]; exact .refl s
  · rw [h]; exact State.setOwner_ownershipOnly (ho ▸ hn)

/-- The end of the keyboard's ownership, with no head key that claims the line, and the examination after
it change the ownership only (R40, R41). -/
theorem State.releaseLine_ownershipOnly {s : State} (ho : s.intake.owner = .keyboard)
    (hk : s.intake.keyboardClaims = false) : OwnershipOnly s s.releaseLine := by
  unfold State.releaseLine
  obtain h | ⟨-, o, -, h, hc⟩ := (s.setOwner .none).arbitrate_cases
  · rw [h]; exact State.setOwner_ownershipOnly (by simp [ho])
  · have hko : o ≠ .keyboard := fun e => by
      have := hc e
      simp only [Intake.keyboardClaims, State.setOwner_keys] at this hk
      rw [hk] at this; cases this
    rw [h]
    exact ⟨fun k => absurd (by simpa [ho] using k) hko, fun _ => .inr (by simp)⟩

/-- A key queue without line work has no head key that claims the line. -/
theorem Intake.keyboardClaims_of_hasLineWork {i : Intake} (h : i.hasLineWork = false) :
    i.keyboardClaims = false := by
  unfold Intake.keyboardClaims
  unfold Intake.hasLineWork at h
  cases hk : i.keys with
  | nil => rfl
  | cons k r => simp only [hk, List.any_cons, Bool.or_eq_false_iff] at h; simpa using h.1

/-- After a key that commits no line, with the keyboard there to keep the line, the ownership alone may
change. -/
theorem State.afterKey_ownershipOnly {s : State} (h : s.keyboardHeld) :
    OwnershipOnly s (s.afterKey false) := by
  unfold State.afterKey
  simp only [Bool.false_and, Bool.false_eq_true, if_false]
  (repeat' split)
  · rename_i hl
    simp only [State.lapsesEmpty, Bool.and_eq_true, beq_iff_eq, Bool.not_eq_true'] at hl
    exact State.releaseLine_ownershipOnly hl.1.1.1 (Intake.keyboardClaims_of_hasLineWork hl.2)
  · rename_i hl
    simp only [State.lapsesLost, Bool.and_eq_true, beq_iff_eq, Bool.not_eq_true'] at hl
    rcases h with h | h
    · rw [hl.1.2] at h; cases h
    · exact absurd hl.1.1 h
  · exact s.arbitrate_ownershipOnly

/-- After a key that commits no line the arbiter decides while no one owns the line (R39). -/
theorem State.afterKey_unowned {s : State} (h : s.intake.owner = .none) :
    s.afterKey false = s.arbitrate := by
  simp [State.afterKey, State.lapsesEmpty, State.lapsesLost, h]

/-- After a key that commits no line the lapses of a keyboard that owns the line are those of
KEYBOARD_LAPSE (R40). -/
theorem State.afterKey_owned {s : State} (hr : s.stopped = false) (h : s.intake.owner = .keyboard) :
    exec .keyboardLapse s = .next (s.afterKey false) := by
  simp [exec, execKeyboardLapse, State.whenRunning, hr, State.afterKey, State.arbitrate, h]

/-- With the keyboard there to keep what it owns, an owned line with a use stays owned (R40). -/
theorem State.afterKey_stays {s : State} (h : s.keyboardHeld) (ho : s.intake.owner ≠ .none)
    (he : s.lapsesEmpty = false) : s.afterKey false = s := by
  have hl : s.lapsesLost = false := by
    unfold State.lapsesLost
    rcases h with h | h <;> simp [h]
  simp [State.afterKey, he, hl, State.arbitrate, ho]

/-- What a key that commits no line leaves (R39, R40). -/
theorem State.afterKey_leaves {s : State} (hr : s.stopped = false) : KeyLeaves s (s.afterKey false) :=
  ⟨State.afterKey_unowned, State.afterKey_owned hr,
    fun h => ⟨State.afterKey_ownershipOnly h, State.afterKey_stays h⟩⟩

/-- What a key that commits a line leaves (R40). -/
theorem State.afterKey_commits {s : State} (hr : s.stopped = false) :
    KeyCommits s (s.afterKey true) := by
  have he : s.lapsesCommitted = true ↔ s.intake.owner = .keyboard ∧ s.lines.current.entries = [] ∧
      ∀ x ∈ s.intake.keys, x.code < 32 ∨ 159 < x.code := by
    have hp (x : Keystroke) : ¬ isPrintingKey x.code = true ↔ x.code < 32 ∨ 159 < x.code := by
      simp only [isPrintingKey, Bool.and_eq_true, decide_eq_true_eq]; omega
    simp only [State.lapsesCommitted, Intake.hasPrintingKey, Bool.and_eq_true, beq_iff_eq,
      List.isEmpty_iff, Bool.not_eq_true', List.any_eq_false, hp, and_assoc]
  refine ⟨fun h => ?_, fun h => ?_⟩
  · simp [State.afterKey, he.mpr h, State.releaseLine]
  · have hc : s.lapsesCommitted = false := Bool.eq_false_iff.mpr fun k => h (he.mp k)
    have : s.afterKey true = s.afterKey false := by simp [State.afterKey, hc]
    rw [this]; exact State.afterKey_leaves hr

/-- Taking the head key off changes the key queue and the transient message. -/
theorem State.popKey_eq {s : State} {k : Keystroke} {rest : List Keystroke}
    (h : s.intake.keys = k :: rest) : s.popKey = s.withoutKey rest := by
  simp [State.popKey, State.endMessage, State.withoutKey, State.mapIntake, State.mapDisp, h]

/-- A head key refused by its chapter, by a halt or by a source's ownership (R32). -/
theorem State.refuseKey_eq {s : State} {k : Keystroke} {rest : List Keystroke}
    (h : s.intake.keys = k :: rest) (m : Option Message) :
    s.refuseKey k m = (s.refusedAs k rest m).afterKey false := by
  unfold State.refuseKey State.refusedAs
  simp only [State.popKey_eq h]

/-- A setting key, or a line key of a keyboard that owns the line, does what its chapter says on the
state without the key (R28). -/
theorem State.examineKey_due {s : State} {k : Keystroke} {rest : List Keystroke}
    (h : s.KeyDue k rest) {ours : Nat → Bool} (hc : ours k.code = true)
    (act : Keystroke → State → KeyOutcome)
    (own : claimsLine k.code = true → s.intake.owner ≠ .none) :
    s.examineKey ours act = s.carryKey k (act k (s.withoutKey rest)) := by
  have hcl : s.claimLine k = s := by
    unfold State.claimLine State.arbitrate
    by_cases hk : claimsLine k.code = true
    · simp [hk, own hk]
    · simp [hk]
  unfold State.examineKey
  rw [h.keys]
  simp only [h.running, h.consuming, hc, h.notHalted, h.noSource, hcl, State.popKey_eq h.keys]
  simp

end Sys2Proof.Machine
end

