-- ==== Sys2Proof/Tests/Slice0.lean ====
section
/-! SUPPORT. Tests: operands out of range are refused, frames written out from the layout of R5 are
read right, one step on small states with results taken from the manual's tables and worked cases, and
for each statement of Obligations.lean with hypotheses a state and operands that meet them. -/

namespace Sys2Proof.Tests

open Sys2Proof Sys2Proof.Machine

set_option Elab.async false

/-! ### Operands out of range -/

theorem test_position_past_the_round_is_ill_formed :
    Instr.wellFormed 2 (.frameSendStart 40) = false ∧
      Instr.wellFormed 2 (.frameSendStart 39) = true := by decide +kernel

theorem test_key_out_of_range_is_ill_formed :
    Instr.wellFormed 2 (.key 0 0 0) = false ∧ Instr.wellFormed 2 (.key 0 160 0) = false ∧
      Instr.wellFormed 2 (.key 0 64 2) = false ∧ Instr.wellFormed 2 (.key 0 159 1) = true := by decide +kernel

theorem test_text_out_of_range_is_ill_formed :
    Instr.wellFormed 2 (.text 1 ⟨0, 0, true, true, [65]⟩) = false ∧
      Instr.wellFormed 2 (.text 1 ⟨256, 0, true, true, [65]⟩) = false ∧
      Instr.wellFormed 2 (.text 1 ⟨1, 256, true, true, [65]⟩) = false ∧
      Instr.wellFormed 2 (.text 1 ⟨1, 0, true, true, []⟩) = false ∧
      Instr.wellFormed 2 (.text 1 ⟨1, 0, true, true, List.replicate 17 65⟩) = false ∧
      Instr.wellFormed 2 (.text 1 ⟨1, 0, true, true, [256]⟩) = false ∧
      Instr.wellFormed 2 (.text 1 ⟨255, 255, false, false, List.replicate 16 255⟩) = true := by decide +kernel

theorem test_answer_out_of_range_is_ill_formed :
    Instr.wellFormed 2 (.answer 3 4 1) = false ∧ Instr.wellFormed 2 (.answer 3 0 0) = false ∧
      Instr.wellFormed 2 (.answer 3 0 4) = false ∧ Instr.wellFormed 2 (.answer 3 3 3) = true := by decide +kernel

theorem test_roll_out_of_range_is_ill_formed :
    Instr.wellFormed 2 (.roll 5 5 1 0) = false ∧ Instr.wellFormed 2 (.roll 5 0 1 0) = false ∧
      Instr.wellFormed 2 (.roll 5 1 3 0) = false ∧ Instr.wellFormed 2 (.roll 5 3 16 0) = false ∧
      Instr.wellFormed 2 (.roll 2 256 0 0) = false ∧ Instr.wellFormed 2 (.roll 2 255 9 9) = true ∧
      Instr.wellFormed 2 (.roll 5 3 15 255) = true := by decide +kernel

/-! ### Frames written out from R5, their check bytes worked out by long division -/

/-- KEY 64, first press, from the keyboard at station 0 to the controller at station 2. -/
def keyFrame : List Byte := [0x30, 0x08, 0x00, 0x02, 0x40, 0x00, 0x31]
/-- The same with the last bit of its check byte flipped. -/
def spoiltFrame : List Byte := [0x30, 0x08, 0x00, 0x02, 0x40, 0x00, 0x30]
/-- A QUERY of the letters "ab" under tag 1 from station 0 to station 3. -/
def queryFrame : List Byte := [0x54, 0x0C, 0x00, 0x03, 0x01, 0x61, 0x62, 0x90]
/-- A KEY frame with code 160. -/
def badKeyFrame : List Byte := [0x30, 0x08, 0x00, 0x02, 0xA0, 0x00, 0x72]
/-- A KEY frame with the broadcast flag set. -/
def broadcastKey : List Byte := [0x32, 0x00, 0x00, 0x02, 0x40, 0x00, 0x7A]

theorem test_key_frame_is_read :
    commandOfFrame 2 keyFrame = .key 0 64 0 ∧
      commandOfFrame 2 [0x30, 0x08, 0x00, 0x02, 0x9F, 0x01, 0x4F] = .key 0 159 1 := by decide +kernel

theorem test_text_frame_is_read :
    commandOfFrame 2 [0x48, 0x28, 0x00, 0x04, 0x0E, 0xFF, 0x03, 0x41, 0x90] =
      .text 1 ⟨14, 255, true, true, [65]⟩ := by decide +kernel

theorem test_answer_frame_is_read :
    commandOfFrame 2 [0x64, 0x68, 0x00, 0x02, 0x03, 0x02, 0xBB] = .answer 3 3 2 := by decide +kernel

theorem test_roll_frame_is_read :
    commandOfFrame 2 [0x12, 0xA0, 0x00, 0x03, 0x03, 0x0F, 0x01, 0xFE] = .roll 5 3 15 1 ∧
      commandOfFrame 2 [0x12, 0x40, 0x00, 0x00, 0xCD] = .roll 2 0 0 0 := by decide +kernel

/-- A ROLL from the controller's own number without the broadcast flag is taken as one (R14, log 37). -/
theorem test_own_roll_not_broadcast :
    commandOfFrame 2 [0x10, 0x48, 0x00, 0x00, 0xB0] = .roll 2 0 0 0 := by decide +kernel

theorem test_frames_for_no_unit_are_read :
    commandOfFrame 2 spoiltFrame = .frameCheckFailed spoiltFrame ∧
      commandOfFrame 2 queryFrame = .queryLeftToDictionary queryFrame ∧
      commandOfFrame 2 badKeyFrame = .refusedFrame badKeyFrame ∧
      commandOfFrame 2 broadcastKey = .discardedBroadcast broadcastKey := by decide +kernel

theorem test_bytes_of_another_command_are_ill_formed :
    Instr.wellFormed 2 (.frameCheckFailed keyFrame) = false ∧
      Instr.wellFormed 2 (.refusedFrame keyFrame) = false ∧
      Instr.wellFormed 2 (.discardedBroadcast queryFrame) = false ∧
      Instr.wellFormed 2 (.queryLeftToDictionary spoiltFrame) = false := by decide +kernel

theorem test_refusing_conditions_are_read :
    commandOfFrame 2 [0x31, 0x08, 0x00, 0x02, 0x40, 0x00, 0x18] =
        .refusedFrame [0x31, 0x08, 0x00, 0x02, 0x40, 0x00, 0x18] ∧
      commandOfFrame 2 [0x34, 0x08, 0x00, 0x02, 0x40, 0x00, 0x95] =
        .refusedFrame [0x34, 0x08, 0x00, 0x02, 0x40, 0x00, 0x95] ∧
      commandOfFrame 2 [0x30, 0x0C, 0x00, 0x02, 0x40, 0x00, 0xBE] =
        .refusedFrame [0x30, 0x0C, 0x00, 0x02, 0x40, 0x00, 0xBE] ∧
      commandOfFrame 2 [0x30, 0x08, 0x01, 0x02, 0x40, 0x00, 0x27] =
        .refusedFrame [0x30, 0x08, 0x01, 0x02, 0x40, 0x00, 0x27] := by decide +kernel

/-- The REPORT of the example of §1.8: READY, no owner, tape 50, SOURCE-1 stopped 14. -/
theorem test_report_is_written :
    OutFrame.bytes 2 (.report ⟨.ready, .none, none, some 50, none, some 14, none, true⟩) =
      [0x7E, 0x40, 0x0A, 0x05, 0x02, 0x00, 0x00, 0x32, 0x0E, 0x7D] := by decide +kernel

theorem test_own_roll_and_query_are_written :
    OutFrame.bytes 2 .roll = [0x12, 0x40, 0x00, 0x03, 0x02, 0x02, 0x00, 0xDA] ∧
      OutFrame.bytes 2 (.query 3 1 [97, 98]) =
        [0x54, 0x4C, 0x00, 0x03, 0x01, 0x61, 0x62, 0xE6] := by decide +kernel

/-- The table gives no row any bits. -/
theorem test_no_word_is_a_command : decodeTableWord 16 0xFFFF = none := by decide +kernel

/-! ### Small states -/

/-- Station 0 is the keyboard, 1 and 4 the sources, 3 and 5 the dictionaries, 2 the controller; 6 was
not heard, and 7 is ignored. -/
def deskTable : Vector Station 8 := #v[
  ⟨some .keyboard, 1, 0, .adopted, some .keyboard, 0⟩, ⟨some .source, 1, 0, .adopted, some .source1, 0⟩,
  .own, ⟨some .dictionary, 1, 50, .adopted, some .primary, 0⟩,
  ⟨some .source, 1, 0, .adopted, some .source2, 0⟩,
  ⟨some .dictionary, 1, 30, .adopted, some .secondary, 0⟩, .unheard,
  ⟨some .keyboard, 1, 0, .ignored, none, 0⟩]

/-- A machine that is READY: family 4 mounted, tape 900, nothing queued, no owner of the line. -/
def desk : State := { State.reset with
  bus := { State.reset.bus with table := deskTable, language := some 1, queue := [], window := .closed }
  wheel := ⟨some .f4, .fabric⟩
  seq := { State.reset.seq with mech := .idle, work := none }
  corr := { State.reset.corr with tape := 900 }
  spell := { State.reset.spell with hadPrimary := true, hadSecondary := true }
  disp := { State.reset.disp with panel := .on }
  supply := { State.reset.supply with power := .run, rollCallDone := true, homingDone := true } }

/-- The machine with another wheel. -/
def withWheel (f : Option Family) (s : State) : State := { s with wheel := { s.wheel with mounted := f } }

/-- The keyboard owns the line and has pressed this key. -/
def keyed (code : Nat) (s : State) : State := { s with
  intake := { s.intake with keys := [⟨code, false⟩], owner := .keyboard }
  lines := { s.lines with current := { s.lines.current with owner := .keyboard } } }

/-- The HELD and plain entries that some codes make on a wheel, from a position and an id on. -/
def typed (f : Family) : Nat → Nat → List Nat → List Entry
  | _, _, [] => []
  | id, x, 32 :: r => newEntry id .space x f.spaceWidth false :: typed f (id + 1) (x + f.spaceWidth) r
  | id, x, c :: r =>
    newEntry id (.char c f false) x ((f.width c).getD 0) false ::
      typed f (id + 1) (x + (f.width c).getD 0) r

/-- A HELD entry as it stands when all its strikes are done; a plain one stays. -/
def struck (e : Entry) : Entry :=
  if e.strike.isSome then
    let q := e.begin 10
    { q with strike := some .struck, done := q.total }
  else e

/-- The current line is line 30 in a mode with these entries, the cursor at its end. -/
def onLine (mode : Mode) (es : List Entry) (s : State) : State := { s with
  lines := { s.lines with
    current := { s.lines.current with number := 30, mode := mode, entries := es, nextId := es.length }
    cursor := es.length, nextLine := 31 } }

/-- A committed keyboard line of family 4 with this number, these entries and this offset. -/
def ringLine (number offset : Word) (es : List Entry) : Line :=
  ⟨number, .keyboard, 120, offset, .direct, .committed, es, [], es.length⟩

/-- The cursor at an index. -/
def cursorAt (c : Nat) (s : State) : State := { s with lines := { s.lines with cursor := c } }

/-- The right margin. -/
def rightAt (r : Nat) (s : State) : State := { s with esc := { s.esc with right := r } }

/-- The tab stops. -/
def stopsAt (tabs : List Nat) (s : State) : State := { s with esc := { s.esc with tabs := tabs } }

/-- The machine in another power state. -/
def powered (p : Power) (s : State) : State := { s with supply := { s.supply with power := p, prior := .run } }

/-- A ring line with a SPACE of 8 and a character is displayed, the cursor before the SPACE. -/
def spaced (s : State) : State :=
  let t := onLine .direct [] s
  { t with lines := { t.lines with
      ring := [ringLine 29 40 ((typed .f4 0 120 [32, 98]).map struck)], viewDepth := 1, cursor := 0 } }

/-- The keyboard's record is LOST, so that its role is not usable (R17, R19). -/
def lost (s : State) : State := { s with bus := { s.bus with
  table := s.bus.table.set 0 ⟨some .keyboard, 1, 0, .lost, some .keyboard, 2⟩ } }

/-- Source 1 owns the line and holds a block of these codes; its job 14 is open at block 0. -/
def sourced (last : Bool) (codes : List Nat) (s : State) : State := { s with
  intake := { s.intake with
    owner := .source1
    src1 := ⟨some ⟨⟨14, 0, true, last, codes⟩, 0⟩, .opened 14 0, false, false, none, 0, false⟩ }
  lines := { s.lines with current := { s.lines.current with owner := .source1, mode := .hold } } }

/-- The mechanism carries out the head of this queue. -/
def running (queue : List Action) (s : State) : State := { s with
  seq := { s.seq with
    queue := queue, mech := .running, work := some (.action none), headStarted := true } }

/-- The machine with its cover open. -/
def uncovered (s : State) : State := { s with pins := { s.pins with coverOpen := true } }

/-- A STRIKE or LIFT blow of entry 0 of line 30. -/
def blow (code position : Nat) : Blow := ⟨30, 0, 0, code, position, false, false⟩

/-- A query about word 7 of line 30 asked of the primary dictionary, waiting for its answer. -/
def waiting : Query := ⟨30, 7, 3, .primary, none, .waiting, true⟩

/-- Slot 0 holds this, and line 30 the one word "ab", word 7, asked under tag 0. -/
def asked (slot : Slot) (c : Capital) (s : State) : State :=
  let t := onLine .direct ((typed .f4 0 120 [97, 98, 32]).map fun e =>
    if e.isSpace then e else { struck e with serial := some 7 }) s
  { t with
    lines := { t.lines with current := { t.lines.current with
      words := [⟨7, 0, 2, 2, some c, .asking, some 0⟩] } }
    spell := { t.spell with slots := t.spell.slots.set 0 slot } }

/-- What holds of the state that a command answers. -/
def after (i : Instr) (s : State) (p : State → Bool) : Bool :=
  match exec i s with
  | .next t => p t
  | _ => false

/-! ### The bus -/

/-- The example of §1.2: the controller is station 2 and its QUERY goes at position 12. -/
theorem test_query_goes_at_its_position :
    (let s := desk.enqueueFrame (.query 3 1 [97, 98])
     after (.frameSendStart 12) s (fun t => t.bus.sending = some 0) &&
       after (.frameSendStart 11) s (fun t => t.bus.sending = none)) = true := by decide +kernel

theorem test_sent_roll_opens_the_window :
    after (.frameSent .absent) { State.reset with bus := { State.reset.bus with sending := some 0 } }
      (fun t => t.bus.window = .opened ∧ t.bus.queue.length = 1) = true := by decide +kernel

/-- A second QUERY without an answer makes the dictionary LOST, and the word moves on (R20, R170). -/
theorem test_absent_query_moves_on :
    (let s := asked (.asking { waiting with phase := .sending, expiryRunning := false }) .lower desk
     after (.frameSent .absent) { s with bus := { s.bus with
         queue := [.query 3 0 [97, 98]], sending := some 0
         table := s.bus.table.set 3 ⟨some .dictionary, 1, 50, .adopted, some .primary, 1⟩ } }
       fun t => t.bus.table[3].status = .lost ∧ t.bus.queue = [.query 5 0 [97, 98]]) = true := by
  decide +kernel

theorem test_mismatch_is_a_conflict :
    (let s := desk.enqueueFrame (.query 3 1 [97, 98])
     after .sendMismatch { s with bus := { s.bus with sending := some 0 } }
       fun t => t.bus.conflict = true ∧ t.bus.queue = [] ∧
         t.disp.standing.conflict = true) = true := by decide +kernel

theorem test_answers_to_frames_for_no_unit :
    (after (.frameCheckFailed spoiltFrame) desk (fun t => t.bus.answer = .absent) &&
      after (.refusedFrame badKeyFrame) desk (fun t => t.bus.answer = .refused) &&
      after (.discardedBroadcast broadcastKey) desk (fun t => t.bus.answer = .absent) &&
      after (.queryLeftToDictionary queryFrame) desk (fun t => t.bus.answer = .absent)) = true := by
  decide +kernel

theorem test_key_is_queued :
    after (.key 0 64 1) desk
      (fun t => t.bus.answer = .taken ∧ t.intake.keys = [⟨64, true⟩] ∧ t.intake.owner = .keyboard) =
        true := by decide +kernel

theorem test_key_while_starting_is_busy :
    after (.key 0 64 0) State.reset (fun t => t.bus.answer = .busy ∧ t.intake.keys = []) = true := by
  decide +kernel

theorem test_text_opens_a_job :
    after (.text 4 ⟨9, 255, true, false, [65]⟩) desk
      (fun t => t.bus.answer = .taken ∧ t.intake.src2.job = .opened 9 255 ∧
        t.intake.owner = .source2 ∧ t.lines.current.mode = .hold) = true := by decide +kernel

theorem test_block_sequence_wraps :
    (let s := { desk with intake := { desk.intake with
       src1 := ⟨none, .opened 9 255, false, false, none, 0, true⟩ } }
     after (.text 1 ⟨9, 0, false, false, [65]⟩) s (fun t => t.bus.answer = .taken ∧
         t.intake.src1.job = .opened 9 0) &&
       after (.text 1 ⟨9, 255, false, false, [65]⟩) s (fun t => t.bus.answer = .taken ∧
         t.intake.src1.slot = none) &&
       after (.text 1 ⟨9, 1, false, false, [65]⟩) s (fun t => t.bus.answer = .refused)) = true := by
  decide +kernel

/-- KNOWN-CAPITAL is acceptable for a capital word and not for one in lower case (R172). -/
theorem test_known_capital :
    (after (.answer 3 0 2) (asked (.asking waiting) .capital desk)
        (fun t => t.lines.current.words.map (·.state) = [.accepted]) &&
      after (.answer 3 0 2) (asked (.asking waiting) .lower desk)
        (fun t => t.bus.queue = [.query 5 0 [97, 98]])) = true := by decide +kernel

theorem test_answer_expiry_of_the_last_dictionary :
    after (.answerExpiry 0)
      (asked (.asking { waiting with station := 5, stage := .secondary, already := some .primary })
        .lower desk)
      (fun t => t.bus.table[5].unanswered = 1 ∧ t.spell.slots[0] = .free ∧
        t.lines.current.words.map (·.state) = [.uncheckable]) = true := by decide +kernel

theorem test_roll_after_the_window_is_late :
    after (.roll 6 4 1 0) desk
      (fun t => t.bus.table[6] = ⟨some .source, 1, 0, .late, none, 0⟩) = true := by decide +kernel

theorem test_roll_call_gives_roles :
    (let heard (k : StationKind) (a : Nat) : Station := ⟨some k, a, 0, .adopted, none, 0⟩
     after .rollWindowClose { State.reset with bus := { State.reset.bus with
         window := .opened
         table := #v[heard .dictionary 3, heard .keyboard 1, .own, heard .dictionary 4,
           heard .keyboard 1, heard .source 1, heard .dictionary 3, .unheard] } }
       fun t => t.bus.table.toList.map (·.role) =
           [some .primary, some .keyboard, none, none, none, some .source1, some .secondary, none] ∧
         t.bus.table[3].status = .ignored ∧ t.bus.language = some 3 ∧
         t.bus.queue.getLast? = some (.summary [(0, 2), (1, 1), (2, 0), (5, 4), (6, 3)])) = true := by
  decide +kernel

/-- The example of §1.9: the stop of job 14 joins the REPORT of the tape count in its place. -/
theorem test_reports_merge :
    (let s := { (sourced false [65] desk) with
       bus := { desk.bus with queue := [.query 3 0 [97, 98],
         .report ⟨.ready, .source1, none, some 50, none, none, none, true⟩] }
       corr := { desk.corr with tape := 50 } }
     after .stopJob { s with intake := { s.intake with keys := [⟨29, false⟩] } } fun t =>
       t.bus.queue = [.query 3 0 [97, 98],
         .report ⟨.ready, .none, none, some 50, none, some 14, none, true⟩] ∧
       t.intake.src1.stoppedJob = 14) = true := by decide +kernel

/-! ### The wheel and the hammer -/

/-- The table of §3.8. -/
theorem test_one_code_on_several_wheels :
    ([109, 64, 131, 46].map fun c =>
      [Family.f2, .f4, .f6].map fun f => (f.petal c, f.width c, impactClass c)) =
      [[(some 13, some 10, 3), (some 13, some 15, 3), (some 13, some 15, 3)],
       [(some 83, some 10, 4), (some 83, some 15, 4), (none, none, 4)],
       [(none, none, 3), (none, none, 3), (some 83, some 12, 3)],
       [(some 26, some 10, 1), (some 26, some 6, 1), (some 26, some 6, 1)]] ∧
      fold 130 = 131 ∧ fold 131 = 131 := by decide +kernel

/-- The worked hammer cases of §6.6; M is of class 4, a of class 2 and the underscore of class 1. -/
theorem test_worked_pulses :
    let b (code : Nat) (second : Bool) : Blow := ⟨30, 0, 0, code, 120, second, false⟩
    strikePulse 3 .fabric (b 77 false) = 160 ∧ strikePulse 3 .film (b 97 false) = 90 ∧
      strikePulse 3 .film (b 97 true) = 85 ∧ liftPulse 3 (b 77 false) = 200 ∧
      strikePulse 1 .fabric (b 97 false) = 70 ∧ strikePulse 1 .film (b 95 false) = 45 ∧
      strikePulse 1 .film (b 95 true) = 40 ∧ liftPulse 1 (b 95 false) = 65 ∧
      liftPulse 3 (b 109 false) = 165 ∧ liftPulse 2 (b 77 false) = 170 := by decide +kernel

theorem test_turns :
    wheelTurn 90 10 = ⟨true, 16⟩ ∧ wheelTurn 10 90 = ⟨false, 16⟩ ∧ wheelTurn 0 48 = ⟨true, 48⟩ ∧
      wheelTurn 7 7 = ⟨true, 0⟩ := by decide +kernel

/-- The actions of four entries (§6.3). -/
theorem test_actions_of_entries :
    let ps (e : Entry) (uw : Nat) := (e.strikeList uw).map fun b => (b.1, b.2.1, b.2.2.1)
    ps (newEntry 0 (.char 109 .f4 true) 200 15 true) 10 =
        [(109, 200, false), (109, 201, true), (95, 200, false), (95, 205, false)] ∧
      ps (newEntry 0 (.char 105 .f4 false) 215 6 true) 10 = [(105, 215, false), (95, 215, false)] ∧
      ps (newEntry 0 .space 221 14 true) 10 = [(95, 221, false), (95, 225, false)] ∧
      (ps (newEntry 0 (.tab false) 144 96 true) 12).map (·.2.1) =
        [144, 156, 168, 180, 192, 204, 216, 228] := by decide +kernel

/-! ### Keys -/

/-- Family 4 gives m 15 steps; its STRIKE goes to the head of the idle mechanism (R95, R119). -/
theorem test_character_is_typed_direct :
    after .printingCharacter (keyed 109 (onLine .direct [] desk)) (fun t =>
      t.lines.current.entries.map (fun e => (e.start, e.advance, e.strike, e.total)) =
        [(120, 15, some .queued, 1)] ∧
      t.seq.work = some (.action (some ⟨13, ⟨true, 13⟩, 110⟩))) = true := by decide +kernel

/-- A wheel exchanged (§3.8): the at sign is not on a wheel of family 6. -/
theorem test_character_not_on_wheel :
    after .printingCharacter (keyed 64 (withWheel (some .f6) desk)) (fun t =>
      t.disp.transient = some .notOnWheel ∧ t.alert.current = some .refuse ∧
        t.lines.current.entries = []) = true := by decide +kernel

theorem test_space_moves_the_carriage :
    after .space (keyed 32 (onLine .direct (typed .f4 0 120 [97] |>.map struck) desk)) (fun t =>
      t.seq.queue = [.move 138] ∧ t.lines.cursor = 2) = true := by decide +kernel

/-- A SPACE closes the word before it: the word is handed and asked about (R110, R165). -/
theorem test_space_hands_the_word :
    after .space (keyed 32 (onLine .direct ((typed .f4 0 120 [97, 98]).map struck) desk)) (fun t =>
      (t.lines.current.words.map fun w => (w.length, w.state)) = [(2, .asking)] ∧
        t.spell.slots[0] ≠ .free) = true := by decide +kernel

/-- A character whose end first passes R - 60 sounds BELL, and one at R - 60 does not (R65). -/
theorem test_bell_at_the_margin :
    let at_ (r : Nat) := rightAt r (keyed 97 (onLine .direct ((typed .f4 0 120 [97]).map struck) desk))
    after .printingCharacter (at_ 199) (fun t =>
      t.esc.bellRung = true ∧ t.alert.current = some .bell) = true ∧
    after .printingCharacter (at_ 200) (fun t =>
      t.esc.bellRung = false ∧ t.alert.current = none) = true := by decide +kernel

/-- An underlined TAB of more than 48 underscores leaves the mark at its next one (R95). -/
theorem test_long_tab_sets_the_mark :
    after .tab (let s := keyed 2 (stopsAt [1300] (onLine .direct [] desk))
      { s with seq := { s.seq with underline := true } }) (fun t =>
        t.seq.queue.length = 48 ∧
          t.lines.mark = some ⟨30, .action 0 48, none⟩) = true := by decide +kernel

theorem test_half_space_is_half :
    after .halfSpace (keyed 8 (onLine .hold (typed .f4 0 120 [97]) desk)) (fun t =>
      (t.lines.current.entries.map (·.advance)) = [10, 4] ∧ t.seq.queue = []) = true := by
  decide +kernel

/-- The example of §4.4, the row of 7 characters inserted and the row of 8. -/
theorem test_tab_is_laid_out_anew :
    let tab : Entry := newEntry 2 (.tab false) 144 96 false
    let line (n : Nat) := typed .f1 0 120 (List.replicate (n + 2) 97) ++ tab :: typed .f1 3 240 [120]
    let ends (n : Nat) := (relayout [240, 360] (some .f1) 120 (line n)).drop (n + 2) |>.map
      fun e => (e.start, e.advance)
    ends 7 = [(228, 12), (240, 12)] ∧ ends 8 = [(240, 120), (360, 12)] ∧
      ends 18 = [(360, 12), (372, 12)] := by decide +kernel

theorem test_tab_key_without_a_stop :
    after .tab (keyed 2 (onLine .direct [] desk)) (fun t =>
      t.disp.transient = some .noTabStop ∧ t.lines.current.entries = []) = true := by decide +kernel


/-- A reopened HOLD line, its second entry struck, the cursor before it. -/
def reopenedHold (s : State) : State :=
  let t := cursorAt 1 (onLine .hold (typed .f4 0 120 [97] ++ (typed .f4 1 130 [98]).map struck) s)
  { t with lines := { t.lines with current := { t.lines.current with state := .reopened } } }

/-- A TAB that is to be filled, with no wheel: NO WHEEL without a stop beyond, NO ROOM with one (R58,
R94). -/
theorem test_tab_filled_without_a_wheel :
    after .tab (keyed 2 (reopenedHold (withWheel none desk))) (fun t =>
      t.disp.transient = some .noWheel) = true ∧
    after .tab (keyed 2 (stopsAt [200] (reopenedHold (withWheel none desk)))) (fun t =>
      t.disp.transient = some .noRoom) = true := by decide +kernel

/-- The settings of the worked cases of §4.5. -/
def wrapping (codes : List Nat) (k : Nat) : State :=
  let s := keyed k (onLine .hold (typed .f4 0 120 codes) desk)
  { s with
    esc := { s.esc with right := 240, justify := true, paperOffset := 100 }
    lines := { s.lines with current := { s.lines.current with offset := 100 } } }

/-- The wrap with justification of §4.5: "Mix the ink " and w. -/
theorem test_wrap_justifies :
    after .printingCharacter (wrapping [77, 105, 120, 32, 116, 104, 101, 32, 105, 110, 107, 32] 119)
      (fun t => (t.lines.ring.flatMap (·.entries)).map (fun e => (e.start, e.advance)) =
          [(120, 15), (135, 6), (141, 12), (153, 14), (167, 8), (175, 12), (187, 10), (197, 13),
            (210, 6), (216, 12), (228, 12)] ∧
        t.lines.current.entries.map (fun e => (e.id, e.start, e.endPos)) = [(0, 120, 135)] ∧
        t.lines.current.offset = 102) = true := by decide +kernel

/-- The carried word and the cap of §4.5: "Mix the inks" and an exclamation mark. -/
theorem test_wrap_carries_a_word :
    after .printingCharacter (wrapping [77, 105, 120, 32, 116, 104, 101, 32, 105, 110, 107, 115] 33)
      (fun t => t.lines.current.entries.map (fun e => (e.id, e.start)) =
          [(8, 120), (9, 126), (10, 138), (11, 150), (12, 160)] ∧
        (t.lines.ring.map fun l => l.endPoint) = [191] ∧
        t.lines.current.endPoint = 166) = true := by decide +kernel

/-- A wrap of "the", a SPACE and a GAP before the carried "b": the GAP and the SPACE go (R70, R88,
log 48). -/
theorem test_wrap_drops_the_space_before_a_gap :
    after .printingCharacter (let es := typed .f4 0 120 [116, 104, 101, 32] ++
        [⟨4, .gap, 158, 10, false, none, 0, 0, none, none⟩] ++ typed .f4 5 168 [98]
      let s := keyed 109 (onLine .hold es desk)
      { s with esc := { s.esc with right := 190 } }) (fun t =>
        t.lines.ring.map (fun l => l.entries.map (·.id)) = [[0, 1, 2]] ∧
        t.lines.current.entries.map (·.id) = [5, 6]) = true := by decide +kernel


/-- A carried word of 32 and the key's character: the window is set once, with the cursor at 33 (R99,
R184, R185). -/
theorem test_wrap_sets_the_window_once :
    after .printingCharacter (rightAt 330 (keyed 105
      (onLine .hold (typed .f4 0 120 ([97, 32] ++ List.replicate 32 105)) desk))) (fun t =>
        t.lines.cursor = 33 ∧ t.disp.window = 9) = true := by decide +kernel

/-- The trailing SPACEs and GAPs go, the LIFTING entries among them stay (R70, R88, logs 18 and 48). -/
theorem test_trim_keeps_lifting_entries :
    (trimLine (typed .f4 0 120 [97, 32] ++ [{ newEntry 2 (.char 98 .f4 false) 138 12 false with
      strike := some .lifting }] ++ typed .f4 3 150 [32])).map (·.id) = [0, 2] := by decide +kernel

/-- The first RETURN of the example of §5.10: line 20 leaves the ring. -/
theorem test_return_commits :
    (let s := keyed 1 (withWheel (some .f2) (onLine .direct ((typed .f2 0 120 [84, 97, 120]).map struck)
       desk))
     after .returnKey { s with lines := { s.lines with
         ring := [ringLine 20 40 [], ringLine 21 42 [], ringLine 22 44 []]
         current := { s.lines.current with offset := 46 } } } fun t =>
       t.lines.ring.map (·.number) = [21, 22, 30] ∧ t.esc.paperOffset = 48 ∧
         t.seq.queue = [.feed 2 120] ∧ t.lines.mark = none) = true := by decide +kernel

/-- The fourth line pushes the oldest out of the ring: its word's slot becomes DISCARDED (R103, R174). -/
theorem test_words_of_a_line_pushed_out :
    after .returnKey (let s := keyed 1 (asked .free .lower desk)
      let l := s.lines.current
      { s with
        lines := { s.lines with
          current := { l with number := 33, entries := [], words := [] }, nextLine := 34
          ring := [{ l with state := .committed }, ringLine 31 0 [], ringLine 32 0 []] }
        spell := { s.spell with slots := s.spell.slots.set 0 (.asking waiting) } }) (fun t =>
        t.lines.ring.map (·.number) = [31, 32, 33] ∧
          t.spell.slots[0] = .discarded waiting) = true := by decide +kernel

theorem test_backspace_moves_the_carriage :
    after .backspace (keyed 3 (onLine .direct ((typed .f4 0 120 [97, 98]).map struck) desk)) (fun t =>
      t.lines.cursor = 1 ∧ t.seq.queue = [.move 130]) = true := by decide +kernel

theorem test_cursor_right_at_the_end :
    after .cursorRight (keyed 4 (onLine .hold (typed .f4 0 120 [97]) desk)) (fun t =>
      t.disp.transient = some .lineEnd ∧ t.lines.cursor = 1) = true := by decide +kernel

/-- The window along a long line (§9.2). -/
theorem test_window_follows_the_cursor :
    windowFor 0 31 = 0 ∧ windowFor 0 32 = 8 ∧ windowFor 16 16 = 16 ∧ windowFor 16 15 = 7 ∧
      windowFor 7 40 = 16 := by decide

/-- One committed line below an empty current line, whose offset is 2 more. -/
def withRing (s : State) : State :=
  let t := onLine .direct [] s
  { t with lines := { t.lines with
      ring := [ringLine 29 40 ((typed .f4 0 120 [97, 98]).map struck)]
      current := { t.lines.current with offset := 42 } } }

theorem test_line_up_feeds_back :
    after .lineUp (keyed 5 (withRing desk)) (fun t =>
      t.lines.viewDepth = 1 ∧ t.lines.cursor = 0 ∧
        t.seq.queue = [.feed (-2) 120, .move 120]) = true := by decide +kernel

/-- The view is on that line, the cursor at its end. -/
def viewing (s : State) : State :=
  let t := withRing s
  { t with lines := { t.lines with viewDepth := 1, cursor := 2 } }

theorem test_line_down_returns :
    after .lineDown (keyed 6 (viewing desk)) (fun t =>
      t.lines.viewDepth = 0 ∧ t.seq.queue = [.feed 2 142, .move 120]) = true := by decide +kernel

theorem test_relocate_returns :
    after .relocate (keyed 7 (viewing desk)) (fun t =>
      t.lines.viewDepth = 0 ∧ t.seq.queue = [.feed 2 142, .move 120]) = true := by decide +kernel

/-- The reopen of the example of §5.10, with the mark "." at 190 as its last entry. -/
theorem test_correct_reopens :
    (let s := keyed 9 (withWheel (some .f2) (onLine .direct [] desk))
     after .correct { s with lines := { s.lines with
         ring := [ringLine 21 42 [], ringLine 23 46 ((typed .f2 0 180 [101, 46]).map struck)]
         current := { s.lines.current with offset := 48 } } } fun t =>
       t.lines.current.number = 23 ∧ t.lines.current.state = .reopened ∧ t.esc.paperOffset = 46 ∧
         t.seq.queue = [.feed (-2) 200, .lift ⟨23, 1, 0, 46, 190, false, false⟩ .f2] ∧
         t.corr.reserved = 1 ∧ t.corr.lifts = [⟨23, 1, 1⟩]) = true := by decide +kernel

theorem test_correct_deletes_in_a_hold_line :
    after .correct (keyed 9 (onLine .hold (typed .f4 0 120 [97, 98]) desk)) (fun t =>
      t.lines.current.entries.map (·.id) = [0] ∧ t.seq.queue = [] ∧ t.corr.tape = 900) = true := by
  decide +kernel

/-- A tab struck with 5 underscores and laid out anew at 20 of width 10 needs 5 LIFTs all the same (R144,
R145, log 47). -/
theorem test_lifts_of_a_shortened_tab :
    let tab : Entry := ⟨0, .tab false, 120, 20, true, some .struck, 5, 5, some 10, none⟩
    (desk.liftActions 30 tab).length = 5 ∧
      ((desk.liftActions 30 tab).take 2 = [.lift ⟨30, 0, 0, 95, 120, false, true⟩ .f4,
        .lift ⟨30, 0, 1, 95, 130, false, true⟩ .f4]) := by
  refine ⟨?_, ?_⟩ <;> rfl

theorem test_word_correct_takes_the_word :
    after .wordCorrect (keyed 10 (onLine .hold (typed .f4 0 120 [97, 32, 98, 99]) desk)) (fun t =>
      t.lines.current.entries.map (·.id) = [0, 1]) = true := by decide +kernel

theorem test_spell_correct_without_a_flag :
    after .spellCorrect (keyed 11 (onLine .hold (typed .f4 0 120 [97]) desk)) (fun t =>
      t.disp.transient = some .noFlaggedWord) = true := by decide +kernel

theorem test_setting_keys :
    (after .marginRelease (keyed 12 desk) (fun t => t.esc.marginRelease = true) &&
      after .justify (keyed 19 desk) (fun t => t.esc.justify = true) &&
      after .bold (keyed 20 desk) (fun t => t.seq.bold = true) &&
      after .underline (keyed 21 desk) (fun t => t.seq.underline = true) &&
      after .impression (keyed 22 desk) (fun t => t.seq.impression = 3) &&
      after .lineSpacing (keyed 23 desk) (fun t => t.esc.spacing = 3) &&
      after .spell (keyed 24 desk) (fun t => t.spell.isOn = false) &&
      after .hold (keyed 18 desk) (fun t => t.lines.hold = true ∧
        t.lines.keyboardMode = .hold)) = true := by decide +kernel

/-- The cursor stands at 240 in a DIRECT line. -/
def at240 : State :=
  onLine .direct [{ newEntry 0 (.tab true) 120 120 false with id := 0 }] desk

theorem test_margin_keys :
    (after .setLeftMargin (keyed 13 at240) (fun t => t.esc.left = 240) &&
      after .setRightMargin (keyed 14 at240) (fun t => t.esc.right = 240) &&
      after .setRightMargin (keyed 14 (cursorAt 0 at240)) (fun t => t.esc.right = 1440 ∧
        t.disp.transient = some .marginTooNarrow)) = true := by decide +kernel

theorem test_tab_keys :
    (let s := { at240 with esc := { at240.esc with tabs := [180, 300] } }
     after .setTab (keyed 15 s) (fun t => t.esc.tabs = [180, 240, 300]) &&
       after .clearTab (keyed 16 s) (fun t => t.disp.transient = some .noTabHere) &&
       after .clearAllTabs (keyed 17 s) (fun t => t.esc.tabs = [])) = true := by decide +kernel

theorem test_add_word :
    (let s := asked .free .lower desk
     after .addWord (keyed 25 { s with lines := { s.lines with current := { s.lines.current with
         words := [⟨7, 0, 2, 2, some .lower, .flagged, none⟩] } } }) fun t =>
       t.spell.userWords = [[97, 98]] ∧ t.lines.current.words.map (·.state) = [.accepted] ∧
         t.store.inFlight = some .userList) = true := by decide +kernel

/-- A warning during a settings write (§10.2), the first two rows. -/
theorem test_store_settings_starts_a_write :
    after .storeSettings (keyed 26 desk) (fun t =>
      t.store.inFlight = some .settings ∧ t.store.dirtyTape = true ∧
        t.store.settings.valid = false) = true := by decide +kernel

theorem test_paper_keys :
    (after .paperUp (keyed 27 desk) (fun t =>
        t.esc.paperOffset = 1 ∧ t.seq.queue = [.feed 1 120]) &&
      after .paperDown (keyed 28 desk) (fun t =>
        t.esc.paperOffset = 65535 ∧ t.seq.queue = [.feed (-1) 120])) = true := by decide +kernel

theorem test_tone_silences :
    after .tone (keyed 31 desk) (fun t =>
      t.alert.silence = true ∧ t.disp.transient = some .toneOff) = true := by decide +kernel

/-! ### Text -/

theorem test_text_rows :
    (after .textBold (sourced false [20, 65] desk) (fun t => t.intake.src1.bold = true) &&
      after .textUnderline (sourced false [21, 65] desk) (fun t => t.intake.src1.underline = true) &&
      after .textCharacter (sourced false [109, 65] desk) (fun t =>
        t.lines.current.entries.map (fun e => (e.start, e.advance, e.strike)) =
          [(120, 15, some .held)] ∧ t.seq.queue = []) &&
      after .textHalfSpace (sourced false [8, 65] desk) (fun t =>
        t.lines.current.entries.map (·.advance) = [4]) &&
      after .textTab (sourced false [2, 65] desk) (fun t =>
        t.lines.current.entries.map (·.advance) = [8]) &&
      after .textReturn (sourced false [1, 65] desk) (fun t =>
        t.lines.current.number = 1 ∧ t.lines.current.mode = .hold ∧
          t.seq.queue = [.feed 2 120])) = true := by decide +kernel

theorem test_last_block_closes_the_job :
    after .textCharacter (sourced true [0] desk) (fun t =>
      t.intake.src1.job = .idle ∧ t.intake.src1.closedJob = some (14, 0) ∧
        t.intake.owner = .none) = true := by decide +kernel

/-- Source 1 waits for its next block, the job's idle expiry running. -/
def idling : State :=
  let s := sourced false [] desk
  { s with intake := { s.intake with src1 := { s.intake.src1 with slot := none, idleRunning := true } } }

/-- Source 1's job is ENDING. -/
def ending : State :=
  let s := sourced false [] desk
  { s with intake := { s.intake with src1 := { s.intake.src1 with slot := none, job := .ending 14 0 } } }

theorem test_jobs_close :
    (after (.jobIdleExpiry .source1) idling (fun t => t.intake.src1.closedJob = some (14, 0)) &&
      after .jobClose ending (fun t => t.intake.src1.job = .idle ∧ t.intake.owner = .none)) = true := by
  decide +kernel

/-- A key of a lost keyboard does what it does, and with no key left that would use the line the line is
committed as it then stands and given up; a printing key left keeps it (R40). -/
theorem test_key_of_a_lost_keyboard :
    let line := lost (onLine .direct ((typed .f4 0 120 [97]).map struck) desk)
    let more (s : State) : State := { s with
      intake := { s.intake with keys := s.intake.keys ++ [⟨98, false⟩] } }
    after .printingCharacter (keyed 109 line) (fun t =>
      t.intake.owner = .none ∧ t.lines.ring.map (·.entries.length) = [2] ∧
        t.lines.current.entries = []) = true ∧
    after .bold (keyed 20 line) (fun t =>
      t.seq.bold = true ∧ t.intake.owner = .none ∧ t.lines.ring.length = 1) = true ∧
    after .printingCharacter (more (keyed 109 line)) (fun t =>
      t.intake.owner = .keyboard ∧ t.lines.current.entries.length = 2) = true := by decide +kernel

theorem test_keyboard_lapses :
    after .keyboardLapse { keyed 20 desk with intake := { (keyed 20 desk).intake with keys := [] } }
      (fun t => t.intake.owner = .none) = true := by decide +kernel

/-! ### The mechanism -/

/-- A keyboard that leaves has its line committed: the closed word is asked about, but in STANDBY and in a
power warning it stays OPEN and is handed when the line is segmented again afterwards (R110, R178). -/
theorem test_no_word_is_handed_in_standby :
    let line (p : Power) : State :=
      let s := powered p (keyed 32 (onLine .hold (typed .f4 0 120 [97, 98]) desk))
      { s with intake := { s.intake with keys := [] } }
    let words (t : State) := t.lines.ring.flatMap fun l => l.words.map fun w => (w.state, w.capital)
    after (.roll 0 0 0 0) (line .run) (fun t => words t = [(.asking, some .lower)]) = true ∧
    (∀ p ∈ [Power.standby, .powerWarn], after (.roll 0 0 0 0) (line p) (fun t =>
      words t = [(.opened, none)] ∧ t.spell.pending = [] ∧
        words ((powered .run t).resegment 30) = [(.asking, some .lower)]) = true) := by decide +kernel

theorem test_strike_completes :
    after .strikeComplete (running [.strike (blow 97 120)]
        (onLine .direct ((typed .f4 0 120 [97]).map fun e => e.begin 10) desk))
      (fun t => t.lines.current.entries.map (fun e => (e.done, e.strike)) = [(1, some .struck)] ∧
        t.seq.queue = [] ∧ t.seq.mech = .idle ∧ t.seq.carriage = 120) = true := by decide +kernel

theorem test_lift_completes :
    after .liftComplete
      { (running [.lift (blow 97 120) .f4] (onLine .direct ((typed .f4 0 120 [97]).map fun e =>
          { struck e with strike := some .lifting }) desk)) with
        corr := ⟨51, 1, [⟨30, 0, 1⟩], false⟩ }
      (fun t => t.corr = ⟨50, 0, [], false⟩ ∧ t.lines.current.entries = [] ∧
        t.bus.queue = [.report ⟨.ready, .none, none, some 50, none, none, none, true⟩]) = true := by
  decide +kernel

theorem test_move_and_feed_complete :
    (after .moveComplete (running [.move 300] desk) (fun t => t.seq.carriage = 300) &&
      after .feedComplete (running [.feed (-1) 120] desk) (fun t =>
        t.seq.paperCount = 65535 ∧ t.seq.carriage = 120)) = true := by decide +kernel

theorem test_homing_reads_the_wheel :
    after (.homingComplete 6) { State.reset with seq := { State.reset.seq with petal := 9 } }
      (fun t => t.wheel.mounted = some .f6 ∧ t.seq.petal = 0 ∧ t.supply.homingDone = true ∧
        t.supply.power = .starting) = true := by decide +kernel

theorem test_wheel_read_of_no_wheel :
    after (.wheelReadComplete 7) { desk with seq := { desk.seq with
        mech := .running, work := some .wheelRead, readDue := true } }
      (fun t => t.wheel.mounted = none ∧ t.seq.readDue = false ∧ t.seq.mech = .idle) = true := by
  decide +kernel

/-- The example of §6.9: a first expiry homes, a second halts with cause CARRIAGE. -/
theorem test_limit_expires :
    (let s := running [.strike (blow 97 135)] desk
     after (.actionLimitExpiry ⟨true, true, false⟩) s (fun t =>
         t.seq.mech = .homing ∧ t.seq.retry = true ∧ t.bus.queue = []) &&
       after (.actionLimitExpiry ⟨true, true, false⟩) { s with seq := { s.seq with retry := true } }
         (fun t => t.machine = .halted ∧ t.alert.current = some .fault ∧
           t.disp.standing.halt = some .carriage ∧
           t.bus.queue = [.report ⟨.halted, .none, some .carriage, none, none, none, none,
             false⟩])) = true := by decide +kernel

/-- The machine halted with one strike in its queue. -/
def haltedDesk : State := { desk with seq := { desk.seq with
  queue := [.strike (blow 97 120)], mech := .halted, haltCause := some .hammer, headStarted := true
  retry := true } }

theorem test_clear_recovers :
    after .clear (keyed 30 (onLine .direct ((typed .f4 0 120 [97]).map fun e => e.begin 10) haltedDesk))
      (fun t => t.seq.mech = .homing ∧ t.seq.queue = [.feed 0 120] ∧ t.lines.current.entries = [] ∧
        t.seq.haltCause = none) = true := by decide +kernel

/-- A bold character whose second strike is discarded leaves the record (R132; log 54). -/
theorem test_clear_drops_a_half_struck_bold_character :
    after .clear (let es := ((typed .f4 0 120 [97]).map struck) ++
        [{ newEntry 1 (.char 98 .f4 true) 130 12 false with
          strike := some .queued, total := 2, done := 1 }]
      let s := keyed 30 (onLine .direct es haltedDesk)
      { s with seq := { s.seq with queue := [.strike ⟨30, 1, 1, 98, 131, true, false⟩] } }) (fun t =>
        t.lines.current.entries.map (·.id) = [0]) = true := by decide +kernel

theorem test_cover_and_ribbon :
    (after .coverOpen desk (fun t =>
        t.machine = .paused ∧ t.disp.standing.pause = some .cover) &&
      after .coverClose { uncovered desk with corr := ⟨3, 0, [], true⟩ } (fun t =>
        t.seq.work = some .wheelRead ∧ t.corr.tape = 900) &&
      after (.ribbonKindChange .out) { desk with seq := { desk.seq with
          queue := [.strike (blow 97 120)] } } (fun t =>
        t.disp.standing.pause = some .ribbon ∧ t.machine = .paused) &&
      after .tapeNew (uncovered desk) (fun t => t.corr.newTape = true)) = true := by
  decide +kernel

/-- A tape exchanged while PARKED is noted when the cover next opens (R137), and the wake does not watch
the ribbon (R56, R201). -/
theorem test_tape_and_ribbon_in_standby :
    (let parked : State := { uncovered desk with
       supply := { desk.supply with power := .standby }, seq := { desk.seq with mech := .parked } }
     after .tapeNew parked (fun t => t.pins.freshTape = true ∧ t.corr.newTape = false) &&
       after .coverOpen { desk with pins := { desk.pins with freshTape := true } } (fun t =>
         t.corr.newTape = true ∧ t.pins.freshTape = false) &&
       after (.ribbonKindChange .out) { parked with seq := { desk.seq with mech := .homing } }
         (fun t => t.wheel.ribbon = .fabric ∧ t.pins.ribbon = .out)) = true := by decide +kernel

/-! ### Panel, tone, store and supply -/

theorem test_panel_and_tone_end :
    (after .messageTimeExpiry { desk with disp := { desk.disp with transient := some .lineFull } }
        (fun t => t.disp.transient = none) &&
      after .blink desk (fun t => t.disp.lit = false) &&
      after .tonePatternEnd { desk with alert := ⟨some .refuse, false⟩ }
        (fun t => t.alert.current = none)) = true := by decide +kernel

/-- Tones in a burst of typing (§9.5). -/
theorem test_tones_by_severity :
    let tone (c : Option Alert) (silence : Bool) (a : Alert) :=
      ({ desk with alert := ⟨c, silence⟩ }.requestAlert a).alert.current
    tone none false .bell = some .bell ∧ tone (some .bell) false .spell = some .spell ∧
      tone (some .spell) false .refuse = some .refuse ∧
      tone (some .refuse) false .spell = some .refuse ∧ tone none true .refuse = none ∧
      tone none true .fault = some .fault := by decide +kernel

/-- The pattern column of R190. -/
theorem test_tone_patterns :
    ([none, some .fault, some .refuse, some .spell, some .bell].map fun a =>
      ({ desk with alert := ⟨a, false⟩ } : State).tone) =
      [none, some .oneLongTone, some .oneShortTone, some .twoShortTones, some .bellStroke] := by
  decide +kernel

theorem test_store_write_completes :
    after .storeWriteComplete { desk with store := { desk.store with
        inFlight := some .settings, dirtyTape := true } }
      (fun t => t.store.settings.valid = true ∧ t.store.inFlight = some .tape ∧
        t.store.tape.contents = 900) = true := by decide +kernel

theorem test_warning_and_recovery :
    (after .supplyWarning desk (fun t =>
        t.machine = .powerWarn ∧ t.seq.hold = true ∧ t.store.inFlight = some .tape) &&
      after .supplyRecovery { desk with
          supply := { desk.supply with power := .powerWarn, prior := .run }
          seq := { desk.seq with hold := true } }
        (fun t => t.machine = .ready ∧ t.seq.hold = false)) = true := by decide +kernel

/-- The store still finishes a write: nothing else is started, and no REPORT before the roll call (R196,
R202). -/
theorem test_warning_while_the_load_waits :
    after .supplyWarning { State.reset with
        bus := { State.reset.bus with queue := [] }
        store := { State.reset.store with finishing := some .tape, loadWaits := true } }
      (fun t => t.store.inFlight = none ∧ t.store.dirtyTape = true ∧ t.bus.queue = []) = true := by
  decide +kernel

theorem test_standby_and_wake :
    (after .standbyIdleExpiry desk (fun t =>
        t.machine = .standby ∧ t.seq.mech = .parked ∧ t.disp.panel = .off) &&
      after (.key 0 97 0) { desk with
          supply := { desk.supply with power := .standby }
          seq := { desk.seq with mech := .parked } }
        (fun t => t.bus.answer = .taken ∧ t.supply.wakeMark = true ∧
          t.seq.mech = .homing)) = true := by decide +kernel

theorem test_stops :
    (after .supplyReset desk (fun t => t.stopped = true) &&
      after .resetAsserted { desk with store := { desk.store with inFlight := some .tape } }
        (fun t => t.stopped = true ∧ t.store.finishing = some .tape)) = true := by decide +kernel

/-- The clamp of §10.1: 1500 and 1700 of a wide platen on one of 1560 steps. -/
theorem test_margins_are_clamped :
    (let c := Settings.clamp ⟨1500, 1700, [1400, 1600], 2, 2, false, false, true, false⟩ 1560
     (c.left, c.right, c.tabs)) = (1320, 1440, [1400]) := by decide +kernel

theorem test_starts :
    (after (.coldStart ⟨5, true⟩) desk (fun t =>
        t.bus.own = 5 ∧ t.esc.platen = 1800 ∧ t.esc.right = 1680 ∧ t.machine = .starting ∧
          t.bus.queue.length = 2) &&
      after (.lineStart ⟨2, false⟩) { desk with supply := { desk.supply with resetHeld := true } }
        (fun t => t.stopped = false ∧ t.supply.startCause = .line ∧
          t.seq.work = some (.homing .start))) = true := by decide +kernel

/-! ### The queue of commands -/

theorem test_step_takes_the_front :
    (match step { desk with pending := [.blink, .tonePatternEnd] } with
     | .next t => decide (t.pending = [.tonePatternEnd] ∧ t.disp.lit = false)
     | _ => false) = true := by decide +kernel

theorem test_empty_queue_idles :
    (match step State.reset with
     | .next t => decide (t = State.reset)
     | _ => false) = true := by decide +kernel

/-! ### States and operands that meet the hypotheses of the statements

Each theorem `witness_<Name>` shows, for the statement of that name, states and operands that meet its
hypotheses, clause by clause. -/

/-- The head key `code` is due, and the keyboard owns the line. -/
@[irreducible] def Due (s : State) (code : Nat) : Prop :=
  s.KeyDue ⟨code, false⟩ [] ∧ s.intake.owner = .keyboard

/-- Running, with keys consumed and no halt. -/
def calm (s : State) : Bool :=
  !s.stopped && !s.keysSuspended && decide (s.machine ≠ .halted)

theorem due_of {s : State} {code : Nat}
    (h : s.intake.keys = [⟨code, false⟩] ∧ calm s = true ∧ s.intake.owner = .keyboard) : Due s code := by
  obtain ⟨hk, hc, ho⟩ := h
  simp only [calm, Bool.and_eq_true, Bool.not_eq_true', decide_eq_true_eq] at hc
  unfold Due
  exact ⟨⟨⟨hk, hc.1.1, hc.1.2⟩, hc.2, by rw [ho]; rfl⟩, ho⟩

theorem due_keyed (code : Nat) {s : State} (h : calm s = true) : Due (keyed code s) code :=
  due_of ⟨rfl, h, rfl⟩

theorem headKey_of {s : State} {k : Keystroke} {rest : List Keystroke}
    (h : s.intake.keys = k :: rest ∧ s.stopped = false ∧ s.keysSuspended = false) :
    s.HeadKey k rest := ⟨h.1, h.2.1, h.2.2⟩

/-- Every place of the print queue is taken. -/
def full (s : State) : State := { s with seq := { s.seq with queue := List.replicate 48 (.move 120) } }

/-- Line 29 is still feeding: its final FEED waits for a place. -/
def feeding (s : State) : State := { s with lines := { s.lines with
  mark := some ⟨29, .finalFeed, some (2, 120)⟩ } }

/-- The current line holds as many entries as a record can. -/
def crowded (s : State) : State := { s with lines := { s.lines with
  current := { s.lines.current with nextId := 256 } } }

/-- Put a frame on the line. -/
def sendingOf (queue : List OutFrame) (s : State) : State :=
  { s with bus := { s.bus with queue := queue, sending := some 0 } }

theorem witness_StepRunsFrontCommand :
    { desk with pending := [.blink, .clear] }.pending = .blink :: [.clear] ∧
      State.reset.pending = [] := by decide

theorem witness_FramesReadBack :
    (Instr.key 0 159 1).wellFormed 2 = true ∧
      frameOfCommand 2 (.key 0 159 1) = some [0x30, 0x08, 0x00, 0x02, 0x9F, 0x01, 0x4F] ∧
      (Instr.text 1 ⟨14, 255, true, true, [65]⟩).wellFormed 2 = true ∧
      frameOfCommand 2 (.text 1 ⟨14, 255, true, true, [65]⟩) =
        some [0x48, 0x28, 0x00, 0x04, 0x0E, 0xFF, 0x03, 0x41, 0x90] ∧
      (Instr.answer 3 3 2).wellFormed 2 = true ∧
      frameOfCommand 2 (.answer 3 3 2) = some [0x64, 0x68, 0x00, 0x02, 0x03, 0x02, 0xBB] ∧
      (Instr.roll 5 3 15 1).wellFormed 2 = true ∧
      frameOfCommand 2 (.roll 5 3 15 1) =
        some [0x12, 0xA0, 0x00, 0x03, 0x03, 0x0F, 0x01, 0xFE] := by decide +kernel

/-- A frame that is answered by its contents, one refused for its kind, and a QUERY to the controller. -/
theorem witness_RefusedFrameConditions :
    let met (own : StationNo) (f : RxFrame) := ¬ (f.kind = 5 ∧ f.dest ≠ own)
    met 2 ⟨3, 0, false, false, 0, 2, 0, [64, 0]⟩ ∧
      readAddressed 2 ⟨3, 0, false, false, 0, 2, 0, [64, 0]⟩ ≠ none ∧
      met 2 ⟨4, 2, false, false, 1, 2, 0, 255 :: 255 :: 3 :: List.replicate 16 255⟩ ∧
      readAddressed 2 ⟨4, 2, false, false, 1, 2, 0, 255 :: 255 :: 3 :: List.replicate 16 255⟩ ≠
        none ∧
      met 2 ⟨6, 1, false, false, 3, 2, 0, [3, 3]⟩ ∧
      readAddressed 2 ⟨6, 1, false, false, 3, 2, 0, [3, 3]⟩ ≠ none ∧
      met 2 ⟨5, 1, false, false, 3, 2, 0, [0, 97, 98]⟩ ∧
      readAddressed 2 ⟨5, 1, false, false, 3, 2, 0, [0, 97, 98]⟩ = none ∧
      met 2 ⟨3, 0, false, false, 0, 2, 0, [160, 0]⟩ ∧
      readAddressed 2 ⟨3, 0, false, false, 0, 2, 0, [160, 0]⟩ = none := by decide

theorem witness_FramesAreSent :
    let s := (desk.enqueueFrame (.query 3 1 [97, 98])).triggerReport .plain
    (s.stopped = false ∧ s.bus.conflict = false ∧ s.bus.sending = none ∧
      s.bus.queue[0]? = some (.query 3 1 [97, 98]) ∧
      ∀ j g, s.bus.queue[j]? = some g →
        OutFrame.cls (.query 3 1 [97, 98]) ≤ g.cls ∧
          (g.cls = OutFrame.cls (.query 3 1 [97, 98]) → 0 ≤ j)) ∧
    frameWait 3 7 = frameWait 3 7 ∧
    (∀ f ∈ [OutFrame.roll, .summary [(2, 0)], .report (firstReport .cold)],
      (sendingOf [f] desk).bus.sending = some 0 ∧ (sendingOf [f] desk).bus.queue[0]? = some f ∧
      (sendingOf [f] desk).stopped = false ∧ (sendingOf [f] desk).bus.heldReport = none) ∧
    (let t : State := sendingOf [.report (firstReport .cold)]
      { desk with bus := { desk.bus with heldReport := some .plain } }
     t.bus.heldReport = some .plain ∧ t.bus.conflict = false ∧
      ∀ g ∈ t.bus.queue.eraseIdx 0, g.isReport = false) := by
  refine ⟨⟨by decide +kernel, by decide +kernel, by decide +kernel, by decide +kernel, ?_⟩, rfl,
    by decide +kernel, by decide +kernel⟩
  intro j g h
  have hq : ((desk.enqueueFrame (.query 3 1 [97, 98])).triggerReport .plain).bus.queue =
      [.query 3 1 [97, 98], .report ⟨.ready, .none, none, none, none, none, none, false⟩] := by
    decide +kernel
  rw [hq] at h
  match j with
  | 0 => simp only [List.getElem?_cons_zero, Option.some.injEq] at h; subst h; decide
  | 1 => simp at h; subst h; decide
  | _ + 2 => simp at h

/-- The state with the outcome of a QUERY counted on the record of this station (R20). -/
def countedAt (n : StationNo) (s : State) : State :=
  let r := s.bus.table[n]
  if r.role = some .primary ∨ r.role = some .secondary then
    { s with bus := { s.bus with table := s.bus.table.set n { r with
        unanswered := min 2 (r.unanswered + 1)
        status := if 1 ≤ r.unanswered then .lost else r.status } } }
  else s

/-- Roles: a dictionary; and a source, which no longer holds a dictionary role. -/
theorem witness_QueryOutcomeCounted :
    let sent (dest : StationNo) (x : Slot) := sendingOf [.query dest 0 [97, 98]] (asked x .lower desk)
    let q : Query := { waiting with phase := .sending, expiryRunning := false }
    ((sent 3 (.asking q)).stopped = false ∧ (sent 3 (.asking q)).bus.sending = some 0 ∧
      (sent 3 (.asking q)).bus.queue[0]? = some (.query 3 0 [97, 98]) ∧
      (sent 3 (.asking q)).bus.table[3].role = some .primary ∧
      (sent 3 (.asking q)).spell.slots[0] = .asking q) ∧
    (sent 3 (.discarded q)).spell.slots[0] = .discarded q ∧
    ((sent 1 (.asking q)).bus.queue[0]? = some (.query 1 0 [97, 98]) ∧
      (sent 1 (.asking q)).bus.table[1].role ≠ some .primary ∧
      (sent 1 (.asking q)).bus.table[1].role ≠ some .secondary) := by decide +kernel

/-- A pending list of 7 and of 8 items for a word that comes back, another dictionary, and none. -/
theorem witness_QueryOutcomeCounted_word :
    let sent (dest : StationNo) (x : Slot) := sendingOf [.query dest 0 [97, 98]] (asked x .lower desk)
    let q : Query := { waiting with phase := .sending, expiryRunning := false }
    let last : Query := { q with station := 5, stage := .secondary, already := some .primary }
    let items (n : Nat) (s : State) : State :=
      { s with spell := { s.spell with pending := List.replicate n ⟨30, 9, none⟩ } }
    (items 7 (sent 3 (.asking q))).spell.pending.length < 8 ∧
    (items 8 (sent 3 (.asking q))).spell.pending = List.replicate 7 ⟨30, 9, none⟩ ++ [⟨30, 9, none⟩] ∧
    ((countedAt 5 (sent 5 (.asking last))).candidate (some last.stage) last.already = none ∧
      (sent 5 (.asking last)).spell.slots[0] = .asking last) ∧
    ((sent 3 (.asking q)).bus.conflict = false ∧
      (countedAt 3 (sent 3 (.asking q))).candidate (some q.stage) q.already = some .secondary ∧
      (countedAt 3 (sent 3 (.asking q))).bus.holder .secondary = some 5) := by decide +kernel

/-- A controller in CONFLICT. -/
def inConflict : State := { desk with bus := { desk.bus with conflict := true } }

theorem witness_ConflictIsSilent :
    (sendingOf [.roll] desk).stopped = false ∧ (sendingOf [.roll] desk).bus.sending.isSome = true ∧
      desk.stopped = false ∧ desk.bus.conflict = false ∧
      inConflict.stopped = false ∧ inConflict.bus.conflict = true := by decide

theorem witness_FramesForNoUnit :
    desk.stopped = false ∧ desk.bus.conflict = false ∧
      commandOfFrame desk.bus.own spoiltFrame = .frameCheckFailed spoiltFrame ∧
      commandOfFrame desk.bus.own badKeyFrame = .refusedFrame badKeyFrame ∧
      commandOfFrame desk.bus.own broadcastKey = .discardedBroadcast broadcastKey ∧
      commandOfFrame desk.bus.own queryFrame = .queryLeftToDictionary queryFrame := by decide +kernel

/-- A key queue of this many keys. -/
def queued (n : Nat) (s : State) : State :=
  { s with intake := { s.intake with keys := List.replicate n ⟨20, false⟩ } }

theorem witness_KeyFrames :
    let ready (s : State) := s.stopped = false ∧ s.bus.conflict = false
    let roles (s : State) := s.rolesUnsettled = false
    let keyboard (s : State) (n : StationNo) :=
      s.bus.table[n].status = .adopted ∧ s.bus.table[n].role = some .keyboard
    (∀ s ∈ [desk, queued 31 desk, powered .standby desk], ready s ∧ roles s ∧ keyboard s 0 ∧
      s.machine ≠ .powerWarn ∧ s.intake.keys.length < 32) ∧
    (queued 31 desk).intake.keys ≠ [] ∧ desk.supply.power ≠ .standby ∧
    (powered .standby desk).supply.power = .standby ∧
    (powered .standby desk).supply.wakeMark = false ∧
    (ready State.reset ∧ State.reset.rolesUnsettled = true) ∧
    ¬ keyboard desk 1 ∧
    (roles (powered .powerWarn desk) ∧ keyboard (powered .powerWarn desk) 0 ∧
      (powered .powerWarn desk).machine = .powerWarn) ∧
    (roles (queued 32 desk) ∧ keyboard (queued 32 desk) 0 ∧
      32 ≤ (queued 32 desk).intake.keys.length) := by decide +kernel


/-- A wake that has begun, with an empty key queue and with a key in it. -/
theorem witness_KeyFrames_wake :
    let waking (s : State) : State :=
      { s with supply := { (powered .standby s).supply with wakeMark := true } }
    ∀ s ∈ [waking desk, waking (queued 1 desk)],
      s.stopped = false ∧ s.bus.conflict = false ∧ s.rolesUnsettled = false ∧
      s.machine ≠ .powerWarn ∧ s.bus.table[0].status = .adopted ∧
      s.bus.table[0].role = some .keyboard ∧ s.intake.keys.length < 32 ∧
      s.supply.power = .standby ∧ s.supply.wakeMark = true := by decide +kernel

/-- Source 1 with this record. -/
def source1 (r : SourceIntake) (s : State) : State := { s with intake := { s.intake with src1 := r } }

theorem witness_TextFrames :
    let b (seq : Nat) (first : Bool) : TextBlock := ⟨9, seq, first, false, [65]⟩
    let idle : SourceIntake := ⟨none, .idle, false, false, some (9, 4), 0, false⟩
    let opened : SourceIntake := ⟨none, .opened 9 255, true, true, none, 0, true⟩
    let taken (s : State) (seq : Nat) (first : Bool) :=
      s.stopped = false ∧ s.bus.conflict = false ∧ textFieldsOk (b seq first) = true ∧
      s.rolesUnsettled = false ∧ s.machine ≠ .powerWarn ∧ s.sourceOf 1 = some .source1
    (taken (source1 opened desk) 0 false ∧ (0 : Nat) = (255 + 1) % 256 ∧
      (source1 opened desk).intake.src1.slot = none) ∧
    (taken (source1 idle desk) 0 true ∧ (source1 idle desk).intake.src1.job = .idle ∧
      idle.closedJob ≠ some ((b 0 true).job, (b 0 true).seq)) ∧
    (taken (source1 opened (powered .standby desk)) 0 false ∧
      (powered .standby desk).supply.power = .standby ∧
      (powered .standby desk).supply.wakeMark = false) ∧
    (State.reset.stopped = false ∧ State.reset.bus.conflict = false ∧
      State.reset.rolesUnsettled = true) ∧
    (desk.rolesUnsettled = false ∧ desk.sourceOf 0 = none) ∧
    ((powered .powerWarn desk).rolesUnsettled = false ∧
      (powered .powerWarn desk).sourceOf 1 = some .source1 ∧
      (powered .powerWarn desk).machine = .powerWarn) ∧
    (b 0 true).job = (source1 { idle with stoppedJob := 9 } desk).intake.src1.stoppedJob ∧
    (source1 { idle with job := .ending 9 4 } desk).intake.src1.job = .ending 9 4 ∧
    (source1 { opened with slot := some ⟨b 255 false, 0⟩ } desk).intake.src1.slot.isSome = true ∧
    (taken (source1 opened desk) 255 false ∧ (b 255 false).seq = 255) ∧
    (taken (source1 opened desk) 1 false ∧ (b 1 false).seq ≠ 255 ∧
      (b 1 false).seq ≠ (255 + 1) % 256) ∧
    (taken (source1 idle desk) 4 false ∧ idle.closedJob = some ((b 4 false).job, (b 4 false).seq)) ∧
    (taken (source1 idle desk) 5 false ∧
      idle.closedJob ≠ some ((b 5 false).job, (b 5 false).seq) ∧ (b 5 false).first = false) := by
  and_intros <;> decide +kernel

theorem witness_AnswerOffered :
    let ready (s : State) (sender : StationNo) :=
      s.stopped = false ∧ s.bus.conflict = false ∧ s.isDictionary sender = true
    let at_ (x : Slot) := asked x .lower desk
    let last : Query := { waiting with station := 5, stage := .secondary, already := some .primary }
    (∀ n ∈ ([0, 1, 6, 7] : List StationNo), ¬ (desk.bus.table[n].status = .adopted ∧
      (desk.bus.table[n].role = some .primary ∨ desk.bus.table[n].role = some .secondary))) ∧
    (ready (at_ .free) 3 ∧ (at_ .free).spell.slots[0] = .free) ∧
    (ready (at_ (.asking waiting)) 5 ∧ (at_ (.asking waiting)).spell.slots[0] = .asking waiting ∧
      waiting.station ≠ 5) ∧
    (ready (at_ (.discarded { waiting with phase := .sending })) 3 ∧
      (at_ (.discarded { waiting with phase := .sending })).spell.slots[0] =
        .discarded { waiting with phase := .sending }) ∧
    (ready (at_ (.discarded waiting)) 3 ∧
      (at_ (.discarded waiting)).spell.slots[0] = .discarded waiting ∧
      waiting.station = 3 ∧ waiting.phase = .waiting) ∧
    (ready (at_ (.asking waiting)) 3 ∧
      (asked (.asking waiting) .capital desk).capitalState 30 7 ≠ .lower) ∧
    ((at_ (.asking waiting)).capitalState 30 7 = .lower ∧
      (at_ (.asking waiting)).candidate (some waiting.stage) waiting.already = some .secondary ∧
      (at_ (.asking waiting)).bus.holder .secondary = some 5) ∧
    (ready (at_ (.asking last)) 5 ∧ (at_ (.asking last)).capitalState 30 7 = .lower ∧
      (at_ (.asking last)).candidate (some last.stage) last.already = none) := by decide +kernel

/-- The pending list: empty, with a dictionary for its head, and with none. -/
theorem witness_AnswerOffered_list :
    let item : PendingItem := ⟨30, 7, none⟩
    let later : PendingItem := ⟨30, 7, some .primary⟩
    let listed (l : List PendingItem) (s : State) : State :=
      { s with spell := { s.spell with pending := l } }
    let s := listed [item, later] (asked .free .lower desk)
    let only3 (s : State) : State := { s with bus := { s.bus with
      table := s.bus.table.set 5 Station.unheard } }
    (desk.bus.usable .primary = true ∧ desk.bus.usable .secondary = true) ∧
    (State.reset.candidate none none = none ∧ desk.spell.pending = []) ∧
    (s.bus.conflict = false ∧ s.spell.pending = item :: [later] ∧ s.spell.slots[0] = .free ∧
      (∀ other < (0 : Fin 4), s.spell.slots[other] ≠ .free) ∧
      s.candidate item.already none = some .primary ∧ s.bus.holder .primary = some 3) ∧
    ((listed [later] (only3 s)).spell.pending = later :: [] ∧
      (listed [later] (only3 s)).candidate later.already none = none) ∧
    inConflict.bus.conflict = true := by decide +kernel

theorem witness_AnswerExpires :
    let at_ (x : Slot) := asked x .lower desk
    let last : Query := { waiting with station := 5, stage := .secondary, already := some .primary }
    (desk.stopped = false ∧ waiting.phase = .waiting ∧ waiting.expiryRunning = true ∧
      (at_ (.discarded waiting)).spell.slots[0] = .discarded waiting) ∧
    ((at_ (.asking last)).spell.slots[0] = .asking last ∧ last.expiryRunning = true ∧
      (countedAt 5 (at_ (.asking last))).candidate (some last.stage) last.already = none) ∧
    ((at_ (.asking waiting)).spell.slots[0] = .asking waiting ∧
      (at_ (.asking waiting)).bus.conflict = false ∧
      (countedAt 3 (at_ (.asking waiting))).candidate (some waiting.stage) waiting.already =
        some .secondary ∧
      (countedAt 3 (at_ (.asking waiting))).bus.holder .secondary = some 5) := by decide +kernel

/-- A table in which station 6 has this record, and the roll window as given. -/
def withSix (r : Station) (w : RollWindow) : State :=
  { desk with bus := { desk.bus with table := deskTable.set 6 r, window := w } }

theorem witness_RollInWindow :
    let met (s : State) (kind first second : Nat) := s.stopped = false ∧ s.bus.conflict = false ∧
      (6 : StationNo) ≠ s.bus.own ∧ s.bus.window ≠ .closed ∧ rollFieldsOk kind first second = true
    let known : Station := ⟨some .source, 1, 0, .adopted, none, 0⟩
    (met (withSix .unheard .opened) 3 15 255 ∧ stationKindOf 3 = some .dictionary ∧
      (withSix .unheard .opened).bus.table[6].status = .absent) ∧
    (met (withSix known .notOpen) 4 2 0 ∧ stationKindOf 4 = some .source ∧
      (withSix known .notOpen).bus.table[6].kind = some .source) ∧
    (met (withSix known .abandoned) 1 1 0 ∧ stationKindOf 1 = some .keyboard ∧
      (withSix known .abandoned).bus.table[6].kind ≠ some .keyboard) ∧
    (met (withSix known .opened) 0 0 0 ∧ (withSix known .opened).bus.table[6].status = .adopted) ∧
    met (withSix .unheard .opened) 0 0 0 ∧
    (met (withSix { known with kind := none, status := .ignored } .opened) 2 1 0 ∧
      (withSix { known with kind := none, status := .ignored } .opened).bus.table[6].status =
        .ignored) ∧
    known.role = none := by decide +kernel

theorem witness_RollAfterWindow :
    let met (s : State) (kind first second : Nat) := s.stopped = false ∧ s.bus.conflict = false ∧
      (6 : StationNo) ≠ s.bus.own ∧ s.bus.window = .closed ∧ rollFieldsOk kind first second = true
    let known : Station := ⟨some .dictionary, 15, 255, .lost, some .secondary, 2⟩
    let at_ (r : Station) := withSix r .closed
    (met (at_ .unheard) 3 15 255 ∧ (at_ .unheard).bus.table[6].status = .absent) ∧
    (met (at_ known) 3 15 255 ∧ (at_ known).bus.table[6] = known) ∧
    (met (at_ known) 3 15 254 ∧ known.ability2 ≠ 254) ∧
    (met (at_ { known with status := .late }) 1 2 0 ∧
      (at_ { known with status := .late }).bus.table[6].status = .late) ∧
    (met (at_ { known with status := .adopted }) 0 0 0 ∧
      (at_ { known with status := .adopted }).bus.table[6].status = .adopted) ∧
    met (at_ { known with status := .late }) 0 0 0 ∧ met (at_ .unheard) 0 0 0 ∧
    (met (at_ { known with status := .ignored }) 4 1 0 ∧
      (at_ { known with status := .ignored }).bus.table[6].status = .ignored) := by decide +kernel

/-- Two dictionaries of language 3 and one of 4, two keyboards, a source and a second controller. -/
def rollCall : State :=
  let heard (k : StationKind) (a : Nat) : Station := ⟨some k, a, 0, .adopted, none, 0⟩
  { State.reset with bus := { State.reset.bus with
      window := .opened
      table := #v[heard .dictionary 3, heard .keyboard 1, .own, heard .dictionary 4,
        heard .keyboard 1, heard .source 1, heard .dictionary 3, heard .controller 1] } }

/-- Three sources and nobody else. -/
def threeSources : State :=
  let heard : Station := ⟨some .source, 1, 0, .adopted, none, 0⟩
  { State.reset with bus := { State.reset.bus with
      window := .opened
      table := #v[heard, .unheard, .own, .unheard, heard, .unheard, .unheard, heard] } }

theorem witness_RollCallGivesRoles :
    let heard (s : State) (n : StationNo) (k : StationKind) : Prop :=
      n ≠ s.bus.own ∧ s.bus.table[n].status = .adopted ∧ s.bus.table[n].kind = some k
    (rollCall.stopped = false ∧ rollCall.bus.window = .opened ∧ rollCall.bus.conflict = false) ∧
    (heard rollCall 7 .controller ∧ heard rollCall 1 .keyboard ∧ heard rollCall 4 .keyboard) ∧
    (heard rollCall 0 .dictionary ∧ (∀ m, heard rollCall m .dictionary → 0 ≤ m) ∧
      heard rollCall 3 .dictionary ∧ heard rollCall 6 .dictionary ∧
      rollCall.bus.table[0].ability1 = rollCall.bus.table[6].ability1) ∧
    (threeSources.bus.window = .opened ∧ heard threeSources 0 .source ∧
      heard threeSources 4 .source ∧ heard threeSources 7 .source ∧
      ∀ n, ¬ heard threeSources n .dictionary) := by decide +kernel

/-- A roll call with a keyboard and one without, the homing over or not, and a warning. -/
theorem witness_RollCallGivesRoles_end :
    let homed (p : Power) (s : State) : State := { s with
      bus := { s.bus with queue := [] }
      supply := { s.supply with power := p, prior := .starting, homingDone := true } }
    (∀ s ∈ [rollCall, threeSources], ∀ n : StationNo, s.bus.table[n].role = none) ∧
    (rollCall.bus.table[1].kind = some .keyboard ∧
      ∀ n : StationNo, threeSources.bus.table[n].kind ≠ some .keyboard) ∧
    rollCall.supply.homingDone = false ∧
    (∀ s ∈ [homed .starting rollCall, homed .powerWarn rollCall],
      s.stopped = false ∧ s.bus.window = .opened ∧ s.supply.homingDone = true ∧
      s.bus.conflict = false ∧ s.store.loadWaits = false ∧ s.bus.queue = []) := by decide +kernel


/-- A roll call with a PRIMARY and a SECONDARY, and one without a dictionary. -/
theorem witness_RollCallGivesRoles_dictionaries :
    let heard (s : State) (n : StationNo) : Prop :=
      n ≠ s.bus.own ∧ s.bus.table[n].status = .adopted ∧ s.bus.table[n].kind = some .dictionary
    (heard rollCall 0 ∧ heard rollCall 6 ∧ (0 : StationNo) < 6 ∧ (∀ m, heard rollCall m → 0 ≤ m) ∧
      rollCall.bus.table[0].ability1 = rollCall.bus.table[6].ability1) ∧
    (∀ n, ¬ heard threeSources n) ∧
    ∀ s ∈ [rollCall, threeSources], ∀ n : StationNo, s.bus.table[n].role = none := by decide +kernel

theorem witness_ArbiterGrants :
    let block : Option HeldBlock := some ⟨⟨14, 0, true, false, [65]⟩, 0⟩
    let r : SourceIntake := ⟨block, .opened 14 0, false, false, none, 0, false⟩
    let only2 : State := { queued 1 desk with intake := { (queued 1 desk).intake with src2 := r } }
    (keyed 32 desk).intake.owner ≠ .none ∧
    (queued 1 desk).intake.owner = .none ∧
    (source1 r (queued 1 desk)).intake.src1.slot.isSome = true ∧
    (only2.intake.src1.slot = none ∧ only2.intake.src2.slot.isSome = true) ∧
    ({ queued 0 desk with intake := { desk.intake with keys := [⟨159, false⟩] } }.KeyDue ⟨159, false⟩ [] ∧
      keyCommand 159 = some .printingCharacter ∧ claimsLine 159 = true ∧ claimsLine 1 = true ∧
      keyCommand 1 = some .returnKey) := by
  refine ⟨by decide, by decide, by decide, by decide, ?_, by decide, by decide, by decide, by decide⟩
  exact ⟨⟨by decide +kernel, by decide +kernel, by decide +kernel⟩, by decide +kernel, by decide +kernel⟩

/-- Each kind of key taken, or refused in HALTED, by a keyboard that owns the line and whose role is lost;
and with no owner, with a use left for an owned line, and with none. -/
theorem witness_KeysRefusedByTheState_lost :
    let printed := lost (onLine .direct ((typed .f4 0 120 [97]).map struck) desk)
    let held (c : Nat) := lost (cursorAt c (onLine .hold (typed .f4 0 120 [97, 98]) desk))
    let wrap := lost (wrapping [77, 105, 120, 32, 116, 104, 101, 32, 105, 110, 107, 115] 33)
    let unusable (s : State) := s.bus.usable .keyboard = false
    ((keyed 1 (lost haltedDesk)).HeadKey ⟨1, false⟩ [] ∧ (lost haltedDesk).machine = .halted ∧
      (keyed 30 (lost haltedDesk)).HeadKey ⟨30, false⟩ [] ∧ unusable (lost haltedDesk)) ∧
    ((∀ code ∈ [12, 13, 15, 20, 25, 26, 31, 18, 27, 3, 5, 7, 9, 30], Due (keyed code printed) code) ∧
      unusable printed) ∧
    (Due (keyed 109 printed) 109 ∧ (keyed 109 printed).place = .appendedDirect) ∧
    (Due (keyed 109 (held 2)) 109 ∧ (keyed 109 (held 2)).place = .appendedHold ∧ unusable (held 2)) ∧
    (Due (keyed 109 (held 1)) 109 ∧ (keyed 109 (held 1)).place = .inserted ∧ unusable (held 1)) ∧
    (Due (keyed 40 (lost (spaced desk))) 40 ∧ (keyed 40 (lost (spaced desk))).place = .filled ∧
      unusable (lost (spaced desk))) ∧
    (Due wrap 33 ∧ wrap.passesEnd 6 = true ∧ wrap.canCarry 6 = true ∧ unusable wrap) ∧
    (desk.intake.owner = .none ∧ ((keyed 20 printed).withoutKey []).lapsesLost = true ∧
      (keyed 109 printed).lapsesLost = false) ∧
    (¬ unusable (keyed 20 desk) ∧ (keyed 32 desk).lapsesEmpty = false ∧
      ((keyed 20 desk).withoutKey []).lapsesEmpty = true) := by
  refine ⟨?_, ⟨fun code _ => due_keyed code (by decide +kernel), by decide +kernel⟩, ?_⟩
  all_goals and_intros <;> first
    | exact headKey_of (by decide +kernel) | exact due_of (by decide +kernel) | decide +kernel

/-- A source owns the line, and a key is pressed. -/
def sourceKey (code : Nat) (s : State) : State :=
  let t := sourced false [65] s
  { t with intake := { t.intake with keys := [⟨code, false⟩] } }

theorem witness_KeysRefusedByTheState :
    ((keyed 1 haltedDesk).HeadKey ⟨1, false⟩ [] ∧ keyCommand 1 = some .returnKey ∧
      (keyed 1 haltedDesk).machine = .halted ∧ (keyed 1 haltedDesk).bus.usable .keyboard = true) ∧
    ((sourceKey 26 desk).HeadKey ⟨26, false⟩ [] ∧ keyCommand 26 = some .storeSettings ∧
      (sourceKey 26 desk).machine ≠ .halted ∧ (sourceKey 26 desk).intake.owner = .source1) ∧
    (desk.disp.panel = .on ∧ desk.disp.standing.conflict = false ∧ desk.disp.standing.halt = none) ∧
    State.reset.disp.panel ≠ .on := by
  and_intros <;> first | exact headKey_of (by decide +kernel) | decide +kernel

theorem witness_SettingKeys :
    (∀ code ∈ [12, 19, 20, 21, 22, 23, 24], Due (keyed code desk) code) ∧
    (Due (keyed 13 (rightAt 360 at240)) 13 ∧
      (keyed 13 (rightAt 360 at240)).cursorPoint + 120 = (keyed 13 (rightAt 360 at240)).esc.right) ∧
    (Due (keyed 13 (rightAt 359 at240)) 13 ∧
      (keyed 13 (rightAt 359 at240)).esc.right < (keyed 13 (rightAt 359 at240)).cursorPoint + 120) ∧
    (Due (keyed 14 at240) 14 ∧ (keyed 14 at240).esc.left + 120 = (keyed 14 at240).cursorPoint) ∧
    (Due (keyed 14 (cursorAt 0 at240)) 14 ∧ (keyed 14 (cursorAt 0 at240)).cursorPoint <
      (keyed 14 (cursorAt 0 at240)).esc.left + 120) := by
  refine ⟨fun code _ => due_keyed code (by decide +kernel), ?_⟩
  and_intros <;> first | exact due_keyed _ (by decide +kernel) | decide +kernel

/-- Sixteen stops, none of them at 240. -/
def sixteen : List Nat := [130, 131, 132, 133, 134, 135, 136, 137, 138, 139, 140, 141, 142, 143, 144, 145]

theorem witness_TabStopKeys :
    let inside (s : State) := s.esc.left < s.cursorPoint ∧ s.cursorPoint < s.esc.right
    (Due (keyed 15 (cursorAt 0 at240)) 15 ∧ ¬ inside (keyed 15 (cursorAt 0 at240))) ∧
    (Due (keyed 15 (stopsAt [240] at240)) 15 ∧ inside (keyed 15 (stopsAt [240] at240)) ∧
      (keyed 15 (stopsAt [240] at240)).cursorPoint ∈ (keyed 15 (stopsAt [240] at240)).esc.tabs) ∧
    (Due (keyed 15 (stopsAt sixteen at240)) 15 ∧ inside (keyed 15 (stopsAt sixteen at240)) ∧
      (keyed 15 (stopsAt sixteen at240)).cursorPoint ∉ sixteen ∧ sixteen.length = 16) ∧
    (Due (keyed 15 (stopsAt [180, 300] at240)) 15 ∧ inside (keyed 15 (stopsAt [180, 300] at240)) ∧
      (keyed 15 (stopsAt [180, 300] at240)).cursorPoint ∉ [180, 300]) ∧
    (Due (keyed 16 (stopsAt [240] at240)) 16 ∧ (keyed 16 (stopsAt [240] at240)).cursorPoint = 240) ∧
    (Due (keyed 16 at240) 16 ∧ (keyed 16 at240).cursorPoint ∉ (keyed 16 at240).esc.tabs) ∧
    Due (keyed 17 at240) 17 := by
  and_intros <;> first | exact due_keyed _ (by decide +kernel) | decide +kernel

/-- A line with the two words "ab" and "cd", 7 and 8, both FLAGGED. -/
def flagged (s : State) : State :=
  let t := onLine .direct ((typed .f4 0 120 [97, 98, 32, 99, 100, 32]).map fun e =>
    if e.isSpace then e else { struck e with serial := some (if e.id < 3 then 7 else 8) }) s
  { t with lines := { t.lines with
      serialCounter := 9
      current := { t.lines.current with
        words := [⟨7, 0, 2, 2, some .lower, .flagged, none⟩, ⟨8, 3, 2, 2, some .lower, .flagged, none⟩] } } }

/-- The FLAGGED word of a ring line below a current line that has none. -/
def flaggedBelow (s : State) : State :=
  let l := (flagged s).lines.current
  let t := onLine .direct [] s
  { t with lines := { t.lines with serialCounter := 9, ring := [{ l with number := 29 }] } }

theorem witness_AddWordKey :
    let many : State := { flagged desk with spell := { desk.spell with
      userWords := List.replicate 48 [97, 97] } }
    let w : WordRec := ⟨8, 3, 2, 2, some .lower, .flagged, none⟩
    let lines (s : State) := s.lines.current :: s.lines.ring.reverse
    let met (s : State) (l : Line) := w ∈ l.words ∧ w.state = .flagged ∧
      (∀ v ∈ l.words, v.state = .flagged → v ≠ w →
        (s.lines.serialCounter - w.serial).toNat < (s.lines.serialCounter - v.serial).toNat) ∧
      s.spell.userWords.length < 48 ∧ ((lines s).map (·.number)).Nodup ∧
      ∀ x ∈ lines s, (x.words.map (·.serial)).Nodup
    let s := keyed 25 (flagged desk)
    let u := keyed 25 (flaggedBelow desk)
    (Due (keyed 25 desk) 25 ∧ ∀ l ∈ lines (keyed 25 desk), ¬ ∃ v ∈ l.words, v.state = .flagged) ∧
    (Due (keyed 25 many) 25 ∧ 48 ≤ (keyed 25 many).spell.userWords.length ∧
      ∃ v ∈ (keyed 25 many).lines.current.words, v.state = .flagged) ∧
    (Due s 25 ∧ lines s = [] ++ s.lines.current :: [] ∧ met s s.lines.current) ∧
    (Due u 25 ∧ (∀ x ∈ [u.lines.current], ¬ ∃ v ∈ x.words, v.state = .flagged) ∧
      ∃ l ∈ u.lines.ring, lines u = [u.lines.current] ++ l :: [] ∧ met u l) := by
  and_intros <;> first | exact due_keyed _ (by decide +kernel) | decide +kernel

theorem witness_HoldAndPaperKeys :
    let s := keyed 18 desk
    let t := keyed 18 (onLine .direct (typed .f4 0 120 [97]) desk)
    (Due s 18 ∧ s.lines.current.entries = [] ∧ s.lines.viewDepth = 0) ∧
    (Due t 18 ∧ t.lines.current.entries ≠ []) ∧
    ((keyed 27 desk).HeadKey ⟨27, false⟩ [] ∧ (keyed 27 desk).machine ≠ .halted ∧
      (keyed 27 desk).room = 48) ∧
    ((keyed 28 (full desk)).HeadKey ⟨28, false⟩ [] ∧ (keyed 28 (full desk)).room = 0) ∧
    ((sourceKey 27 desk).HeadKey ⟨27, false⟩ [] ∧ (sourceKey 27 desk).intake.owner = .source1 ∧
      (sourceKey 27 desk).bus.usable .keyboard = true) ∧
    (keyed 28 (viewing desk)).HeadKey ⟨28, false⟩ [] ∧ (viewing desk).lines.viewDepth ≠ 0 := by
  and_intros <;>
    first | exact due_keyed _ (by decide +kernel) | exact headKey_of (by decide +kernel) | decide +kernel

theorem witness_CursorKeys :
    let hold := onLine .hold (typed .f4 0 120 [97, 98]) desk
    let direct := onLine .direct ((typed .f4 0 120 [97, 98]).map struck) desk
    (Due (keyed 3 (cursorAt 0 hold)) 3 ∧ (cursorAt 0 hold).lines.cursor = 0) ∧
    (Due (keyed 3 hold) 3 ∧ hold.lines.cursor = 1 + 1 ∧ hold.lines.current.mode ≠ .direct) ∧
    (Due (keyed 3 direct) 3 ∧ (keyed 3 direct).room = 48) ∧
    (Due (keyed 3 (full direct)) 3 ∧ (keyed 3 (full direct)).room = 0) ∧
    (Due (keyed 4 (viewing desk)) 4 ∧ (viewing desk).lines.displayed.live.length = 2) ∧
    (Due (keyed 4 (cursorAt 1 (viewing desk))) 4 ∧ (viewing desk).lines.viewDepth ≠ 0) := by
  and_intros <;> first | exact due_keyed _ (by decide +kernel) | decide +kernel

/-- The cases of R185 at their edges. -/
theorem witness_WindowFollowsCursor :
    (15 : Nat) < 16 ∧ (0 : Nat) + 31 < 32 ∧ (0 : Nat) ≤ 31 ∧ (31 : Nat) ≤ 0 + 31 := by decide

theorem witness_ViewKeys :
    let hold := onLine .hold (typed .f4 0 120 [97]) (withRing desk)
    (Due (keyed 5 hold) 5 ∧ hold.lines.viewDepth = 0 ∧ hold.lines.current.mode = .hold ∧
      hold.lines.current.entries ≠ []) ∧
    (Due (keyed 5 desk) 5 ∧ desk.lines.ring.length ≤ desk.lines.viewDepth ∧
      desk.lines.current.entries = []) ∧
    (Due (keyed 5 (feeding (withRing desk))) 5 ∧ (feeding (withRing desk)).lineFeeding = true) ∧
    (Due (keyed 5 (withRing desk)) 5 ∧ (keyed 5 (withRing desk)).lineFeeding = false ∧
      (keyed 5 (withRing desk)).room = 48 ∧
      (withRing desk).lines.ringAt 1 = (withRing desk).lines.ring.head?) ∧
    Due (keyed 6 desk) 6 ∧
    (Due (keyed 6 (full (viewing desk))) 6 ∧ (keyed 6 (full (viewing desk))).room = 0) ∧
    (Due (keyed 6 (viewing desk)) 6 ∧ (viewing desk).lines.viewDepth = 1) := by
  and_intros <;> first | exact due_keyed _ (by decide +kernel) | decide +kernel

theorem witness_RelocateAndClear :
    let hold := onLine .hold (typed .f4 0 120 [97]) desk
    let direct := onLine .direct ((typed .f4 0 120 [97]).map struck) desk
    ∀ code ∈ [7, 30],
      (Due (keyed code hold) code ∧ hold.lines.viewDepth = 0 ∧ hold.lines.current.mode = .hold) ∧
      (Due (keyed code direct) code ∧ direct.lines.current.mode = .direct ∧ direct.room = 48) ∧
      (Due (keyed code (full direct)) code ∧ (full direct).room = 0) ∧
      (Due (keyed code (viewing desk)) code ∧ (viewing desk).lines.viewDepth ≠ 0) := by
  intro hold direct code _
  and_intros <;> first | exact due_keyed _ (by decide +kernel) | decide +kernel

theorem witness_ReturnCommits :
    let threeLines : State := { withRing desk with lines := { (withRing desk).lines with
      ring := [ringLine 27 36 [], ringLine 28 38 [], ringLine 29 40 []] } }
    (Due (keyed 1 (viewing desk)) 1 ∧ (viewing desk).lines.viewDepth ≠ 0) ∧
    (Due (keyed 1 (feeding desk)) 1 ∧ (feeding desk).lineFeeding = true) ∧
    (Due (keyed 1 threeLines) 1 ∧ threeLines.lineFeeding = false ∧
      threeLines.lines.ring.length = 3 ∧ threeLines.lines.viewDepth = 0) ∧
    (Due (keyed 1 desk) 1 ∧ desk.lines.ring.length = 0) := by
  and_intros <;> first | exact due_keyed _ (by decide +kernel) | decide +kernel


/-- A RETURN of a line without HELD entries, with a place in the print queue and with none, and of a line
with HELD entries, whose mark is absent or stands in that line. -/
theorem witness_ReturnCommits_feeds :
    let printed := onLine .direct ((typed .f4 0 120 [97]).map struck) desk
    let hold := onLine .hold (typed .f4 0 120 [97, 98]) desk
    let marked : State := { hold with lines := { hold.lines with
      mark := some ⟨30, .action 1 0, none⟩ } }
    (Due (keyed 1 printed) 1 ∧ printed.lines.mark = none ∧ printed.seq.queue.length < 48 ∧
      ∀ e ∈ printed.lines.current.entries, e.strike ≠ some .held) ∧
    (Due (keyed 1 (full printed)) 1 ∧ 48 ≤ (full printed).seq.queue.length ∧
      (full printed).lineFeeding = false) ∧
    (Due (keyed 1 hold) 1 ∧ hold.lines.mark = none ∧
      hold.lines.current.entries.map (·.strike) = [some .held, some .held]) ∧
    (Due (keyed 1 marked) 1 ∧ marked.lineFeeding = false ∧
      marked.lines.mark.map (·.line) = some marked.lines.current.number) := by
  and_intros <;> first | exact due_keyed _ (by decide +kernel) | decide +kernel

/-- A RETURN with a printing key behind it, and with a line key alone. -/
theorem witness_ReturnCommits_lapse :
    let s (code : Nat) : State := { keyed 1 desk with
      intake := { (keyed 1 desk).intake with keys := [⟨1, false⟩, ⟨code, false⟩] } }
    (∀ code ∈ [32, 3], (s code).KeyDue ⟨1, false⟩ [⟨code, false⟩] ∧
      (s code).intake.owner = .keyboard ∧ (s code).lines.viewDepth = 0 ∧
      (s code).lineFeeding = false ∧ (s code).lines.ring.length ≤ 3) ∧
    (32 : Nat) ≤ 159 ∧ (3 : Nat) < 32 := by
  intro s
  have h : ∀ code ∈ [32, 3], ((s code).intake.keys = [⟨1, false⟩, ⟨code, false⟩] ∧
      (s code).stopped = false ∧ (s code).keysSuspended = false) ∧ (s code).machine ≠ .halted ∧
      (s code).intake.owner.source = none ∧ (s code).intake.owner = .keyboard ∧
      (s code).lines.viewDepth = 0 ∧ (s code).lineFeeding = false ∧
      (s code).lines.ring.length ≤ 3 := by decide +kernel
  refine ⟨fun code hc => ?_, by decide, by decide⟩
  obtain ⟨hk, hm, hs, hrest⟩ := h code hc
  exact ⟨⟨headKey_of hk, hm, hs⟩, hrest⟩

theorem witness_DirectLineKeys :
    let line := onLine .direct ((typed .f4 0 120 [97]).map struck) desk
    let met (s : State) :=
      s.lines.viewDepth = 0 ∧ s.lines.current.mode = .direct ∧
        s.lines.current.live.length ≤ s.lines.cursor ∧ s.wheel.mounted = some .f4 ∧
        s.typingPoint = 130
    let fits (w : Nat) (s : State) := s.typingPoint + w ≤ s.esc.right
    (Due (keyed 33 line) 33 ∧ met (keyed 33 line) ∧ Family.f4.width 33 = some 6 ∧ (keyed 33 line).room = 48) ∧
    (Due (keyed 126 (rightAt 142 line)) 126 ∧ Family.f4.width 126 = some 12 ∧
      fits 12 (rightAt 142 line) ∧ ¬ fits 12 (rightAt 141 line)) ∧
    (Due (keyed 109 (crowded line)) 109 ∧ fits 15 (crowded line) ∧
      ¬ (crowded line).lines.current.nextId ≤ 255) ∧
    (Due (keyed 109 (full line)) 109 ∧ (full line).room = 0) ∧
    (Due (keyed 32 line) 32 ∧ Due (keyed 8 line) 8) ∧
    (Due (keyed 2 (stopsAt [125, 130] line)) 2 ∧ ∀ x ∈ [125, 130], x ≤ line.typingPoint) ∧
    (Due (keyed 2 (stopsAt [125, 130, 131] line)) 2 ∧ (130 : Nat) < 131 ∧
      ∀ y ∈ [125, 130], y ≤ line.typingPoint) := by
  and_intros <;> first | exact due_keyed _ (by decide +kernel) | decide +kernel

/-- An entry of more than 48 actions, with room for it, and the typing point at and past R - 60. -/
theorem witness_DirectLineKeys_long :
    let s := keyed 2 (stopsAt [1300] (onLine .direct [] { desk with seq := { desk.seq with
      underline := true } }))
    let e := s.beginEntry 30 (newEntry 0 (.tab true) 120 1180 true)
    Due s 2 ∧ 48 < (e.actions 30).length ∧ min (e.actions 30).length 48 ≤ s.room ∧
      s.typingPoint + 1180 ≤ s.esc.right ∧ ¬ s.esc.right < s.typingPoint + 1180 + 60 ∧
      (rightAt 1359 s).esc.right < s.typingPoint + 1180 + 60 := by
  and_intros <;> first | exact due_keyed _ (by decide +kernel) | decide +kernel

theorem witness_WheelCheckRefuses :
    let none_ := withWheel none desk
    (∀ code ∈ [33, 159, 32, 8], Due (keyed code none_) code) ∧ none_.wheel.mounted = none ∧
    (Due (keyed 2 (onLine .hold [] none_)) 2 ∧ (keyed 2 (onLine .hold [] none_)).place = .appendedHold ∧
      ∀ x ∈ (onLine .hold [] none_).esc.tabs, x ≤ (onLine .hold [] none_).typingPoint) ∧
    (Due (keyed 127 desk) 127 ∧ Family.f4.carries 127 = false) ∧
    (Due (keyed 159 desk) 159 ∧ Family.f4.carries 159 = false) := by
  refine ⟨fun code _ => due_keyed code (by decide +kernel), ?_⟩
  and_intros <;> first | exact due_keyed _ (by decide +kernel) | decide +kernel


/-- A TAB with no wheel and no stop beyond the cursor: at the end, inside and in the struck part. -/
theorem witness_WheelCheckRefuses_tab :
    let line (c : Nat) := cursorAt c (onLine .hold (typed .f4 0 120 [97, 98]) (withWheel none desk))
    let struck_ := reopenedHold (withWheel none desk)
    let met (s : State) := s.wheel.mounted = none ∧ s.lines.viewDepth = 0 ∧
      s.lines.current.mode = .hold ∧ ∀ x ∈ s.esc.tabs, x ≤ s.cursorPoint
    (Due (keyed 2 (line 2)) 2 ∧ met (line 2) ∧ (line 2).place = .appendedHold) ∧
    (Due (keyed 2 (line 1)) 2 ∧ met (line 1) ∧ (line 1).place = .inserted) ∧
    (Due (keyed 2 struck_) 2 ∧ met struck_ ∧ struck_.place = .filled) := by
  and_intros <;> first | exact due_keyed _ (by decide +kernel) | decide +kernel

/-- A TAB that reaches a stop with no wheel mounted, appended and inserted. -/
theorem witness_HoldLineKeys_tab :
    let line (c : Nat) :=
      stopsAt [150, 160] (cursorAt c (onLine .hold (typed .f4 0 120 [97, 98]) (withWheel none desk)))
    (∀ c ∈ [1, 2], Due (keyed 2 (line c)) 2 ∧ (line c).lines.viewDepth = 0 ∧
      (line c).lines.current.mode = .hold) ∧
    ((line 2).place = .appendedHold ∧
      holdTabAdvance (line 2).esc.tabs (line 2).wheel.mounted (line 2).typingPoint = some 8) ∧
    ((line 1).place = .inserted ∧
      holdTabAdvance (line 1).esc.tabs (line 1).wheel.mounted (line 1).cursorPoint = some 20) := by
  refine ⟨fun c h => ?_, ?_⟩
  · simp only [List.mem_cons, List.not_mem_nil, or_false] at h
    rcases h with rfl | rfl <;>
      exact ⟨due_keyed _ (by decide +kernel), by decide +kernel, by decide +kernel⟩
  · decide +kernel

theorem witness_HoldLineKeys :
    let line := onLine .hold (typed .f4 0 120 [97, 32, 98]) desk
    let run (s : State) := s.lines.current.carriedRun.1
    let carried (w : Nat) (s : State) :=
      (run s).length < s.lines.current.live.length ∧
        (∀ e ∈ run s, e.strike = some .held ∧ e.id < 255) ∧
        s.esc.left + ((run s).map (·.advance)).sum + w ≤ s.esc.right
    let word := onLine .hold (typed .f4 0 120 [97, 98]) desk
    (Due (keyed 109 line) 109 ∧ line.lines.current.mode = .hold ∧ line.lines.viewDepth = 0 ∧
      line.lines.current.live.length ≤ line.lines.cursor ∧ line.wheel.mounted = some .f4 ∧
      Family.f4.width 109 = some 15 ∧ line.typingPoint = 150) ∧
    (line.typingPoint + 15 ≤ (rightAt 165 line).esc.right ∧
      (rightAt 164 line).esc.right < line.typingPoint + 15 ∧ carried 15 (rightAt 164 line)) ∧
    (Due (keyed 109 (rightAt 144 word)) 109 ∧ ¬ carried 15 (rightAt 144 word) ∧
      (rightAt 144 word).esc.right < (rightAt 144 word).typingPoint + 15) ∧
    (Due (keyed 109 (feeding (rightAt 164 line))) 109 ∧ (feeding line).lineFeeding = true) ∧
    (Due (keyed 109 (crowded line)) 109 ∧ ¬ (crowded line).lines.current.nextId ≤ 255) ∧
    (Due (keyed 32 (feeding (rightAt 157 line))) 32 ∧
      (rightAt 157 line).esc.right < line.typingPoint + 8) ∧
    (Due (keyed 8 (rightAt 153 line)) 8 ∧ (rightAt 153 line).esc.right < line.typingPoint + 4) ∧
    (Due (keyed 2 (stopsAt [150, 160] line)) 2 ∧
      holdTabAdvance [150, 160] (some .f4) line.typingPoint = some 10) ∧
    holdTabAdvance [150] (some .f4) line.typingPoint = some 8 := by
  and_intros <;> first | exact due_keyed _ (by decide +kernel) | decide +kernel

theorem due_wrapping (codes : List Nat) (k : Nat) : Due (wrapping codes k) k := by
  have hm : (wrapping codes k).machine = .ready := rfl
  unfold Due
  exact ⟨⟨⟨rfl, rfl, rfl⟩, by rw [hm]; decide, rfl⟩, rfl⟩

/-- The two worked cases of §4.5, and a SPACE that passes the right limit. -/
theorem witness_HoldLineWraps :
    let inks := wrapping [77, 105, 120, 32, 116, 104, 101, 32, 105, 110, 107, 115] 33
    let ink := wrapping [77, 105, 120, 32, 116, 104, 101, 32, 105, 110, 107, 32] 32
    (Due inks 33 ∧ inks.lines.viewDepth = 0 ∧ inks.lines.current.mode = .hold ∧
      inks.lines.current.live.length ≤ inks.lines.cursor ∧ inks.wheel.mounted = some .f4 ∧
      inks.lineFeeding = false ∧ inks.lines.ring.length ≤ 3 ∧ Family.f4.width 33 = some 6 ∧
      inks.passesEnd 6 = true ∧ inks.canCarry 6 = true ∧
      inks.lines.nextLine ≠ inks.lines.current.number) ∧
    (Due ink 32 ∧ ink.passesEnd Family.f4.spaceWidth = true) := by
  and_intros <;> first | exact due_wrapping _ _ | decide +kernel

/-- A wrap whose new line passes R - 60, and one that carries nothing. -/
theorem witness_HoldLineWraps_bell :
    let inks := wrapping [77, 105, 120, 32, 116, 104, 101, 32, 105, 110, 107, 115] 33
    let starts := shiftFrom inks.esc.left inks.lines.current.carriedRun.1 ++
      [newEntry 12 (.char 33 .f4 false) 160 6 false]
    starts ≠ [] ∧ inks.lines.current.owner = .keyboard ∧ endOf inks.esc.left starts = 166 ∧
      ¬ inks.esc.right < 166 + 60 ∧ (rightAt 225 inks).esc.right < 166 + 60 := by decide +kernel

theorem witness_JustifiedLineEndsAtTheMargin :
    let l : Line := { ringLine 30 100 (typed .f4 0 120 [77, 105, 120, 32, 116, 104, 101, 32, 105, 110, 107])
      with mode := .hold }
    shiftFrom l.start l.entries = l.entries ∧ (l.entries.map (·.id)).Nodup ∧
      stretchSpaces l.live ≠ [] ∧ l.endPoint ≤ 240 ∧
      (∀ e ∈ l.entries, e.live = true ∧ e.onPaper = false ∧ e.isGap = false) ∧
      (240 - l.endPoint) / (stretchSpaces l.live).length ≤ 2 * Family.f4.spaceWidth ∧
      (262 - l.endPoint) / (stretchSpaces l.live).length = 2 * Family.f4.spaceWidth := by
  decide +kernel


/-- A SPACE after the last MOVE and before the last CHAR and two that are not, and each case in which the
line stays as it is. -/
theorem witness_JustifiedLineEndsAtTheMargin_ragged :
    let line (es : List Entry) : Line := { ringLine 30 100 es with mode := .hold }
    let es := typed .f4 0 120 [97, 32] ++ [newEntry 2 (.tab false) 138 20 false] ++
      typed .f4 3 158 [97, 32, 98, 32]
    let plain := line (typed .f4 0 120 [97, 32, 98])
    let cap (right : Nat) := (right - plain.endPoint) / (stretchSpaces plain.live).length
    stretchSpaces es = [4] ∧ stretchSpaces (typed .f4 0 120 [97, 32]) = [] ∧
      100 < plain.endPoint ∧ cap 166 = 2 * Family.f4.spaceWidth ∧
      2 * Family.f4.spaceWidth < cap 167 ∧
      (∃ e ∈ ((typed .f4 0 120 [97, 32, 98]).map struck), e.strike = some .struck) := by
  decide +kernel

/-- A tab that reaches a stop and one beyond the last stop. -/
theorem witness_LayoutHasNoBreak :
    let tab (id : Nat) : Entry := newEntry id (.tab false) 0 0 false
    let live := (relayout [240] (some .f4) 120 [tab 0, tab 1]).filter Entry.live
    (∃ e, live.head? = some e) ∧ (∃ a b, live[0]? = some a ∧ live[0 + 1]? = some b) ∧
      (∃ e ∈ live, e.kind = .tab false ∧ [240].find? (e.start < ·) = some 240) ∧
      ∃ e ∈ live, e.kind = .tab false ∧ [240].find? (e.start < ·) = none := by
  refine ⟨⟨_, rfl⟩, ⟨_, _, rfl, rfl⟩, ?_, ?_⟩ <;> decide +kernel


/-- A tab beyond the last stop with no wheel mounted, and one that reaches a stop. -/
theorem witness_LayoutHasNoBreak_wheel :
    let tab (id advance : Nat) : Entry := newEntry id (.tab false) 0 advance false
    let out := relayout [240] none 120 [tab 0 5, tab 1 9]
    (∃ a b, [tab 0 5, tab 1 9][1]? = some a ∧ out[1]? = some b ∧ a.kind = .tab false ∧
      [240].find? (b.start < ·) = none) ∧
    ∃ b, out[0]? = some b ∧ [240].find? (b.start < ·) = some 240 :=
  ⟨⟨_, _, rfl, rfl, by decide, by decide⟩, _, rfl, by decide⟩

/-- Each row of R94. -/
theorem witness_InsertedInHoldLine_place :
    let hold (c : Nat) := cursorAt c (onLine .hold (typed .f4 0 120 [97, 98]) desk)
    let direct (c : Nat) := cursorAt c (onLine .direct ((typed .f4 0 120 [97]).map struck) desk)
    let inside (s : State) := s.lines.cursor < s.lines.current.live.length
    let printed (s : State) := ∃ e ∈ s.lines.current.live.drop s.lines.cursor,
      e.strike = some .queued ∨ e.strike = some .struck
    (viewing desk).lines.viewDepth ≠ 0 ∧ desk.lines.viewDepth = 0 ∧
    ((direct 1).lines.current.mode = .direct ∧ ¬ inside (direct 1) ∧ inside (direct 0)) ∧
    ((hold 2).lines.current.mode = .hold ∧ ¬ inside (hold 2) ∧ inside (hold 1) ∧ ¬ printed (hold 1)) ∧
    (inside (reopenedHold desk) ∧ (reopenedHold desk).lines.current.mode = .hold ∧
      printed (reopenedHold desk)) := by decide +kernel

theorem witness_InsertedInHoldLine :
    let line := cursorAt 1 (onLine .hold (typed .f4 0 120 [97, 98]) desk)
    let ending (s : State) := endOf 120 ((relayout s.esc.tabs (some .f4) 120
      (insertAtLive (newEntry 2 (.char 109 .f4 false) s.cursorPoint 15 false) 1
        s.lines.current.entries)).filter Entry.live)
    (Due (keyed 109 line) 109 ∧ (keyed 109 line).place = .inserted ∧ line.wheel.mounted = some .f4 ∧
      Family.f4.width 109 = some 15) ∧
    (ending line = 157 ∧ ending line ≤ (rightAt 157 line).esc.right ∧
      (rightAt 156 line).esc.right < ending line) ∧
    (Due (keyed 109 (crowded line)) 109 ∧ ¬ (crowded line).lines.current.nextId ≤ 255) ∧
    ((line.lines.current.entries.map (·.id)).Nodup ∧
      ∀ e ∈ line.lines.current.entries, e.id < line.lines.current.nextId) ∧
    (Due (keyed 32 line) 32 ∧ Due (keyed 8 line) 8 ∧ Due (keyed 2 line) 2 ∧
      holdTabAdvance line.esc.tabs (some .f4) line.cursorPoint = some 8) := by
  and_intros <;> first | exact due_keyed _ (by decide +kernel) | decide +kernel

theorem witness_FilledAtTheCursor :
    let space := spaced desk
    let place (s : State) := s.place = .filled ∧ s.wheel.mounted = some .f4
    let entry (s : State) := s.lines.displayed.live[s.lines.cursor]?
    (Due (keyed 40 space) 40 ∧ place (keyed 40 space) ∧ Family.f4.width 40 = some 8 ∧
      (entry space).map (fun g => (g.kind, g.strike, g.advance)) = some (.space, none, 8) ∧
      space.lines.displayed.nextId ≤ 255 ∧ space.room = 48 ∧
      space.lines.find 29 = some space.lines.displayed) ∧
    (Due (keyed 97 space) 97 ∧ Family.f4.width 97 = some 10) ∧
    (Due (keyed 40 (cursorAt 2 space)) 40 ∧ entry (cursorAt 2 space) = none) ∧
    (Due (keyed 40 (full space)) 40 ∧ (full space).room = 0) ∧
    (Due (keyed 32 space) 32 ∧ Due (keyed 8 space) 8 ∧ Due (keyed 2 space) 2) := by
  and_intros <;> first | exact due_keyed _ (by decide +kernel) | decide +kernel


/-- A TAB to be filled with no wheel mounted: in a ring line, inside a DIRECT line, and before a stop. -/
theorem witness_FilledAtTheCursor_tab :
    let bare := withWheel none desk
    let direct := cursorAt 0 (onLine .direct ((typed .f4 0 120 [97]).map struck) bare)
    let stop := stopsAt [200] (reopenedHold bare)
    (Due (keyed 2 (spaced bare)) 2 ∧ (spaced bare).place = .filled ∧ (spaced bare).lines.viewDepth ≠ 0) ∧
    (Due (keyed 2 direct) 2 ∧ direct.place = .filled ∧ direct.lines.current.mode = .direct) ∧
    (Due (keyed 2 stop) 2 ∧ stop.place = .filled ∧ stop.lines.current.mode = .hold ∧
      ∃ x ∈ stop.esc.tabs, stop.cursorPoint < x) := by
  and_intros <;> first | exact due_keyed _ (by decide +kernel) | decide +kernel

theorem witness_CorrectChoosesItsTarget :
    let hold := onLine .hold (typed .f4 0 120 [97, 98]) desk
    let direct := onLine .direct ((typed .f4 0 120 [97, 98]).map struck) desk
    (hold.lines.viewDepth = 0 ∧ hold.lines.displayed.mode = .hold ∧ hold.lines.displayed.live ≠ [] ∧
      (cursorAt 0 hold).lines.cursor = 0) ∧
    (hold.lines.cursor = 2 ∧ (hold.lines.displayed.live[1]?).isSome = true) ∧
    (direct.lines.displayed.mode ≠ .hold ∧ (direct.lines.displayed.live[0]?).isSome = true ∧
      direct.lines.displayed.live.length ≤ direct.lines.cursor ∧
      direct.lines.displayed.live.getLast?.isSome = true) ∧
    (desk.lines.displayed.live = [] ∧ desk.lines.displayed.entries = [] ∧ desk.lineFeeding = false ∧
      desk.lines.ring = []) ∧
    (feeding desk).lineFeeding = true ∧
    ((withRing desk).lines.ring.getLast?.map fun r => (r.owner, r.live.getLast?.map (·.kind))) =
      some (.keyboard, some (.char 98 .f4 false)) ∧
    (({ ringLine 29 40 [] with owner := .source2 } : Line).owner = .source2) := by
  and_intros <;> decide +kernel


/-- A ring line without live entries, displayed and below an empty current line. -/
theorem witness_CorrectChoosesItsTarget_empty :
    let s : State := { desk with lines := { desk.lines with ring := [ringLine 29 40 []] } }
    let v : State := { s with lines := { s.lines with viewDepth := 1 } }
    (v.lines.viewDepth ≠ 0 ∧ v.lines.displayed.live = []) ∧
    (s.lines.viewDepth = 0 ∧ s.lines.displayed.live = [] ∧ s.lines.displayed.entries = [] ∧
      s.lineFeeding = false ∧
      s.lines.ring.getLast?.map (fun r => (r.owner, r.live)) = some (.keyboard, [])) := by
  decide +kernel

/-- "a bc " at its end, the cursor inside "bc", a SPACE as the reference entry, and a flagged word. -/
theorem witness_CorrectChoosesItsTarget_words :
    let es := typed .f4 0 120 [97, 32, 98, 99, 32]
    let hold := onLine .hold es desk
    let isBlank (e : Entry) : Prop := e.kind = .space
    let isChar (e : Entry) : Prop := e.kind.isChar = true
    (es = es.take 2 ++ (es.drop 2).take 2 ++ es.drop 4 ∧ (∀ e ∈ (es.drop 2).take 2, isChar e) ∧
      (∀ e ∈ es.drop 4, isBlank e) ∧ (∀ e ∈ (es.take 2).getLast?, ¬ isChar e) ∧
      hold.lines.displayed.live = es ∧ es.length ≤ hold.lines.cursor) ∧
    ((cursorAt 3 hold).lines.cursor < es.length ∧ (es.take 2).length ≤ 3 - 1 ∧
      3 - 1 < (es.take 2).length + 2 ∧ (∀ e ∈ (es.drop 4).head?, ¬ isChar e)) ∧
    (es[2 - 1]?).map (·.kind) = some .space ∧
    ((viewing desk).lines.viewDepth ≠ 0 ∧ (flagged desk).lines.viewDepth = 0 ∧
      (∀ w ∈ desk.lines.current.words, w.state ≠ .flagged) ∧
      ∃ w ∈ (flagged desk).lines.current.words, w.state = .flagged ∧
        ∀ v ∈ (flagged desk).lines.current.words, v.state = .flagged → v ≠ w →
          ((flagged desk).lines.serialCounter - w.serial).toNat <
            ((flagged desk).lines.serialCounter - v.serial).toNat) := by
  and_intros <;> decide +kernel

/-- Each check at its edge: a tape of one lift less, a line at its last id, 48 LIFTs with a reopen. -/
theorem witness_CorrectionsCarriedOut_checks :
    let printed := onLine .direct ((typed .f4 0 120 [97, 98]).map struck) desk
    let l := printed.lines.current
    let first := l.live.take 1
    let taped (n r : Nat) (s : State) : State := { s with corr := ⟨n, r, [], false⟩ }
    let full_ (l : Line) : Line := { l with nextId := 256 }
    let heavy : List Entry := first.map fun e => { e with total := 48, done := 48 }
    let counts (s : State) (targets : List Entry) := (targets.map (s.liftsFor 30)).sum
    (counts printed first = 1 ∧ printed.wheel.mounted = some .f4) ∧
    ((taped 5 5 printed).corr.tape - (taped 5 5 printed).corr.reserved < counts printed first ∧
      ¬ (taped 6 5 printed).corr.tape - (taped 6 5 printed).corr.reserved < counts printed first) ∧
    (l.live.getLast?.map (·.id) ≠ first.getLast?.map (·.id) ∧ l.mode ≠ .hold ∧
      255 < (full_ l).nextId ∧ ¬ 255 < l.nextId) ∧
    (48 < counts printed heavy + 1 ∧ ¬ 48 < counts printed heavy) ∧
    printed.checkFails false l first = none := by
  and_intros <;> decide +kernel

/-- Targets at the end, in the middle, after a GAP and before one, and a deletion in a HOLD line. -/
theorem witness_CorrectionsCarriedOut_line :
    let gap (id x : Nat) : Entry := ⟨id, .gap, x, 10, false, none, 0, 0, none, none⟩
    let a := (typed .f4 0 120 [97]).map struck
    let c := (typed .f4 1 140 [97]).map struck
    let z := (typed .f4 2 160 [97]).map struck
    let on (es : List Entry) := onLine .direct es desk
    let held := [gap 0 120] ++ typed .f4 1 130 [97] ++ [gap 2 140] ++ typed .f4 3 150 [97]
    let met (es : List Entry) := (on es).lines.current.live = es ∧
      ((on es).lines.current.entries.map (·.id)).Nodup ∧ (∀ e ∈ es, e.id < 4) ∧
      (∀ e ∈ es.getLast?, e.kind ≠ .gap)
    met (a ++ c ++ []) ∧ met (a ++ c ++ z) ∧ met ([gap 0 120] ++ c ++ z) ∧
      met (a ++ c ++ ([gap 3 150] ++ z)) ∧
    (∀ e ∈ (onLine .hold (typed .f4 0 120 [97, 98]) desk).lines.current.live,
      e.strike ≠ some .queued ∧ e.strike ≠ some .struck) ∧
    ((onLine .hold held desk).lines.current.live = held ∧ (held.map (·.id)).Nodup ∧
      (∀ e ∈ held, e.id < 4) ∧
      ∀ e ∈ held, e.strike ≠ some .queued ∧ e.strike ≠ some .struck) := by
  and_intros <;> decide +kernel

theorem witness_CorrectionsCarriedOut :
    let hold := onLine .hold (typed .f4 0 120 [97, 98]) desk
    let printed := onLine .direct ((typed .f4 0 120 [97, 98]).map struck) desk
    let last (s : State) := s.lines.current.live.drop 1
    (Due (keyed 9 desk) 9 ∧ desk.chooseAround false = .refuse .nothingToCorrect) ∧
    (Due (keyed 9 (feeding desk)) 9 ∧ (feeding desk).chooseAround false = .wait) ∧
    (Due (keyed 9 hold) 9 ∧
      hold.chooseAround false = .targets false hold.lines.current (last hold) ∧
      hold.checkFails false hold.lines.current (last hold) = none ∧
      (hold.correctionActions false hold.lines.current (last hold)).length = 0) ∧
    (Due (keyed 9 (withWheel none printed)) 9 ∧
      printed.chooseAround false = .targets false printed.lines.current (last printed) ∧
      ((last printed).map fun e => e.done).sum = 1 ∧
      (withWheel none printed).wheel.mounted = none) ∧
    (Due (keyed 9 (withWheel (some .f6) printed)) 9 ∧
      ∃ e ∈ last printed, e.strike = some .struck ∧ e.kind = .char 98 .f4 false) ∧
    (Due (keyed 9 { printed with corr := ⟨0, 0, [], false⟩ }) 9 ∧
      State.checkFails { printed with corr := ⟨0, 0, [], false⟩ } false printed.lines.current
        (last printed) = some .tapeEmpty) ∧
    (Due (keyed 9 printed) 9 ∧ printed.checkFails false printed.lines.current (last printed) = none ∧
      (printed.correctionActions false printed.lines.current (last printed)).length = 1 ∧
      (printed.withdrawn false printed.lines.current (last printed)).room = 48) ∧
    (Due (keyed 9 (full printed)) 9 ∧
      ((full printed).withdrawn false printed.lines.current (last printed)).room = 0) ∧
    (Due (keyed 10 printed) 10 ∧ printed.chooseAround true =
      .targets false printed.lines.current printed.lines.current.live) ∧
    (Due (keyed 11 (flagged desk)) 11 ∧ (flagged desk).chooseFlagged = .targets false
      (flagged desk).lines.current (((flagged desk).lines.current.live.drop 3).take 2)) := by
  and_intros <;> first | exact due_keyed _ (by decide +kernel) | decide +kernel


/-- A print queue whose head, a STRIKE of the target, has started and has not, and the mark in each
case: at the target with a HELD entry after it and with none, at an entry that stays, at the final FEED. -/
theorem witness_CorrectionsCarriedOut_withdrawn :
    let strike (id : Nat) : Action := .strike ⟨30, id, 0, 97, 120, false, false⟩
    let hold := onLine .hold (typed .f4 0 120 [97, 98]) desk
    let line (s : State) := s.lines.current
    let with_ (s : State) (m : FeedMark) : State := { s with lines := { s.lines with mark := some m } }
    let stays (s : State) (targets : List Entry) (id : Nat) : Prop :=
      ∃ x e, (s.lines.updateLine 30 fun _ => s.correctedLine (line s) targets).find 30 = some x ∧
        x.entry? id = some e ∧ e.live = true
    let first := (line hold).live.take 1
    ((running [strike 0, .move 120, strike 0] hold).seq.headStarted = true ∧
      (running [strike 0, .move 120, strike 0] hold).seq.queue = strike 0 :: [.move 120, strike 0]) ∧
    (hold.seq.headStarted = false ∧ hold.seq.queue = []) ∧
    ((with_ hold ⟨30, .action 0 0, some (2, 120)⟩).lines.mark =
        some ⟨30, .action 0 0, some (2, 120)⟩ ∧ hold.lines.mark = none) ∧
    stays hold first 1 ∧
    (((hold.lines.updateLine 30 fun _ => hold.correctedLine (line hold) first).find 30).map
      fun x => (x.entries.map (·.strike), (x.entry? 0).isSome)) = some ([some .held], false) ∧
    (((hold.lines.updateLine 30 fun _ => hold.correctedLine (line hold) (line hold).live).find 30).map
      fun x => x.entries) = some [] := by
  refine ⟨by decide +kernel, by decide +kernel, by decide +kernel, ⟨_, _, rfl, rfl, by decide +kernel⟩,
    by decide +kernel, by decide +kernel⟩

/-- A CORRECT whose target's STRIKE is the head and has not started. -/
theorem witness_CorrectionsCarriedOut_head :
    let es := (typed .f4 0 120 [97]).map fun e => { e with strike := some .queued, total := 1 }
    let s : State := { keyed 9 (onLine .direct es desk) with seq := { desk.seq with
      queue := [.strike ⟨30, 0, 0, 97, 120, false, false⟩] } }
    Due s 9 ∧ s.chooseAround false = .targets false s.lines.current es ∧
      s.checkFails false s.lines.current es = none ∧ s.seq.headStarted = false ∧
      es.map (·.id) = [0] := by
  exact ⟨due_of (by decide +kernel), by decide +kernel⟩

/-- A reopen whose correction passes its checks. -/
theorem witness_CorrectionsCarriedOut_reopen :
    let s := keyed 9 (withRing desk)
    let l : Line := { ringLine 29 40 ((typed .f4 0 120 [97, 98]).map struck) with state := .reopened }
    Due s 9 ∧ s.chooseAround false = .targets true l (l.live.drop 1) ∧
      s.checkFails true l (l.live.drop 1) = none ∧
      (s.correctionActions true l (l.live.drop 1)).length = 2 ∧
      (s.withdrawn true l (l.live.drop 1)).room = 48 :=
  ⟨due_keyed 9 (by decide +kernel), by decide +kernel⟩

theorem witness_StopJobKey :
    let job (j : JobState) (s : State) : State := { s with intake := { s.intake with
      src1 := { s.intake.src1 with job := j } } }
    let line (s : State) : State := { s with lines := { s.lines with current := { s.lines.current with
      entries := typed .f4 0 120 [97] } } }
    let s := sourceKey 29 desk
    ((keyed 29 desk).HeadKey ⟨29, false⟩ [] ∧ (keyed 29 desk).machine ≠ .halted ∧
      (keyed 29 desk).intake.owner.source = none ∧ (keyed 29 desk).bus.usable .keyboard = true) ∧
    (s.HeadKey ⟨29, false⟩ [] ∧ s.machine ≠ .halted ∧ s.intake.owner = ownerOf .source1 ∧
      (s.intake.src .source1).job = .opened 14 0 ∧ s.lines.current.live = []) ∧
    ((job (.ending 14 0) s).HeadKey ⟨29, false⟩ [] ∧
      ((job (.ending 14 0) s).intake.src .source1).job = .ending 14 0) ∧
    ((line (feeding s)).HeadKey ⟨29, false⟩ [] ∧ (line (feeding s)).lines.current.live ≠ [] ∧
      (line (feeding s)).lineFeeding = true) ∧
    ((line s).HeadKey ⟨29, false⟩ [] ∧ (line s).lines.current.live ≠ [] ∧
      (line s).lineFeeding = false ∧ (line s).lines.ring.length ≤ 3) := by
  and_intros <;> first | exact headKey_of (by decide +kernel) | decide +kernel

/-- A REPORT that waits, and one that is on the line. -/
theorem witness_StopJobKey_report :
    let r := OutFrame.report (firstReport .cold)
    let s := sourceKey 29 desk
    let waits : State := { s with bus := { s.bus with queue := [.query 3 0 [97], r] } }
    let onLine := sendingOf [r] s
    (waits.bus.conflict = false ∧ waits.bus.queue.countP OutFrame.isReport = 1 ∧
      waits.bus.sending = none) ∧
    (onLine.bus.sending = some 0 ∧ onLine.bus.queue[0]? = some r ∧
      onLine.bus.queue.countP OutFrame.isReport = 1 ∧ 0 < onLine.bus.queue.length) := by
  decide +kernel

theorem textDue_of {s : State} {n : SourceNo} {h : HeldBlock} {code : Nat}
    (p : s.stopped = false ∧ s.textSuspended = false ∧ s.intake.owner = ownerOf n ∧
      (s.intake.src n).slot = some h ∧ h.block.codes[h.next]? = some code) : s.TextDue n h code :=
  ⟨p.1, p.2.1, p.2.2.1, p.2.2.2.1, p.2.2.2.2⟩

theorem witness_TextCharacters :
    let block (last : Bool) (codes : List Nat) : HeldBlock := ⟨⟨14, 0, true, last, codes⟩, 0⟩
    let ended (last : Bool) (s : State) := sourced last [0] s
    let line := onLine .hold (typed .f4 0 120 [97]) desk
    (∀ code ∈ [20, 21, 0, 31, 160, 32, 159, 8, 2, 1],
      (sourced false [code, 65] desk).TextDue .source1 (block false [code, 65]) code) ∧
    desk.wheel.mounted = some .f4 ∧ Family.f4.width 32 = none ∧ Family.f4.width 159 = none ∧
    Family.f4.width 109 = some 15 ∧
    ((sourced false [109, 65] desk).typingPoint + 15 ≤ (rightAt 135 desk).esc.right ∧
      (rightAt 134 desk).esc.right < (sourced false [109, 65] desk).typingPoint + 15 ∧
      (sourced false [109, 65] (feeding desk)).lineFeeding = true) ∧
    holdTabAdvance desk.esc.tabs (some .f4) desk.typingPoint = some 8 ∧
    (sourced false [1, 65] desk).lineFeeding = false ∧ (sourced false [1, 65] desk).intake.keys = [] ∧
    ((ended false desk).TextDue .source1 (block false [0]) 0 ∧
      (ended true desk).TextDue .source1 (block true [0]) 0 ∧
      ((ended true desk).intake.src .source1).job = .opened 14 0 ∧
      (ended true desk).lines.current.live = [] ∧ (ended true line).lines.current.live ≠ [] ∧
      (ended true line).lineFeeding = false ∧ (ended true (feeding line)).lineFeeding = true) := by
  refine ⟨?_, ?_, ?_, ?_, ?_, ?_, ?_, ?_, ?_, textDue_of ?_, textDue_of ?_, ?_⟩
  case refine_1 =>
    intro code h
    exact textDue_of ⟨rfl, rfl, rfl, rfl, rfl⟩
  all_goals decide +kernel

/-- A CHAR that is carried with a run, one without a run, and a line without a place. -/
theorem witness_TextCharacters_wraps :
    let sent (es : List Nat) := sourced false [109, 65] (onLine .hold (typed .f4 0 120 es) desk)
    let run (s : State) := s.lines.current.carriedRun.1
    let carried (s : State) := (run s).length < s.lines.current.live.length ∧
      (∀ e ∈ run s, e.strike = some .held ∧ e.id < 255) ∧
      s.esc.left + ((run s).map (·.advance)).sum + 15 ≤ s.esc.right
    let two := rightAt 164 (sent [97, 32, 98])
    let one := rightAt 154 (sent [97, 97, 98])
    let commits (s : State) := s.lineFeeding = false ∧ s.intake.keys.head?.map (·.code) ≠ some 29
    (two.esc.right < two.typingPoint + 15 ∧ carried two ∧ commits two) ∧
    (one.esc.right < one.typingPoint + 15 ∧ ¬ carried one ∧ commits one) ∧
    (¬ (crowded (sent [97])).lines.current.nextId ≤ 255 ∧
      (sent [97]).typingPoint + 15 ≤ (sent [97]).esc.right ∧ commits (sent [97])) ∧
    (holdTabAdvance [125] (some .f4) 120 = some 5 ∧ desk.lines.ring.length ≤ 3) ∧
    ({ sent [97] with intake := { (sent [97]).intake with keys := [⟨29, false⟩] } } :
      State).intake.keys.head?.map (·.code) = some 29 := by
  and_intros <;> decide +kernel

/-- The last character of a block, with and without LAST: one that makes an entry, one that commits the
line, and one that waits. -/
theorem witness_TextCharacters_last :
    let line := onLine .hold (typed .f4 0 120 [97]) desk
    let longer (code next : Nat) (last : Bool) : HeldBlock := ⟨⟨14, 0, true, last, [code, 0]⟩, next⟩
    let slot (code next : Nat) (last : Bool) (t : State) : Bool :=
      t.intake.src1.slot = some (longer code next last)
    (∀ code last, (sourced last [code] desk).TextDue .source1 ⟨⟨14, 0, true, last, [code]⟩, 0⟩ code) ∧
    ((sourced true [109] desk).intake.src1.job = .opened 14 0 ∧
      ∀ a b, (sourced true [109] desk).intake.src2.job ≠ .ending a b) ∧
    (∀ last, after .textCharacter (sourced last [109, 0] desk) (slot 109 1 last) = true) ∧
    (∀ last, after .textReturn (sourced last [1, 0] line) (slot 1 1 last) = true) ∧
    after .textReturn (sourced true [1, 0] (feeding line)) (slot 1 0 true) = true := by
  refine ⟨fun _ _ => textDue_of ⟨rfl, rfl, rfl, rfl, rfl⟩, ⟨rfl, nofun⟩, ?_⟩
  decide +kernel

theorem witness_JobsClose :
    let line (s : State) : State := { s with lines := { s.lines with current := { s.lines.current with
      entries := typed .f4 0 120 [97] } } }
    let met (s : State) := s.stopped = false ∧ (s.intake.src .source1).slot = none ∧
      s.intake.owner = ownerOf .source1
    (met idling ∧ (idling.intake.src .source1).idleRunning = true ∧
      (idling.intake.src .source1).job = .opened 14 0 ∧ idling.lines.current.live = [] ∧
      idling.supply.power ≠ .powerWarn) ∧
    (met (powered .powerWarn idling) ∧ (powered .powerWarn idling).supply.power = .powerWarn) ∧
    (met (line idling) ∧ (line idling).lines.current.live ≠ [] ∧ (line idling).lineFeeding = false ∧
      (line idling).lines.ring.length ≤ 3) ∧
    (met (line (feeding idling)) ∧ (line (feeding idling)).lineFeeding = true) ∧
    (met ending ∧ (ending.intake.src .source1).job = .ending 14 0 ∧
      (ending.intake.src .source2).job = .idle ∧ ending.lines.current.live = []) ∧
    (met (line (feeding ending)) ∧ (line (feeding ending)).lineFeeding = true) := by
  and_intros <;> decide +kernel

/-- Source 1 leaves: without a job, with one that is ENDING, and with an open one, its line or not. -/
theorem witness_JobsClose_leaves :
    let met (s : State) := s.stopped = false ∧ s.bus.conflict = false ∧ s.bus.window = .closed ∧
      (1 : StationNo) ≠ s.bus.own ∧ s.bus.table[1].status = .adopted ∧
      s.bus.table[1].role = some .source1 ∧ ∀ m : StationNo, s.bus.table[m].role = some .source1 → m = 1
    (met desk ∧ desk.intake.src1.job = .idle) ∧
    (met ending ∧ ending.intake.src1.job = .ending 14 0) ∧
    (met idling ∧ idling.intake.src1.job = .opened 14 0 ∧ idling.intake.owner = ownerOf .source1 ∧
      idling.lines.current.live = []) ∧
    met (feeding idling) ∧
    (Vacates desk.bus.table[1] 0 0 0
        ⟨some .source, 1, 0, .lost, some .source1, 2⟩ ∧ rollFieldsOk 0 0 0 = true) ∧
    (Vacates desk.bus.table[1] 4 2 0 ⟨some .source, 2, 0, .late, none, 0⟩ ∧
      rollFieldsOk 4 2 0 = true) ∧
    (source1 idling.intake.src1 desk).intake.owner ≠ ownerOf .source1 := by
  and_intros <;> first
    | exact .inl ⟨rfl, rfl⟩
    | exact .inr ⟨.source, rfl, by decide +kernel, rfl⟩
    | decide +kernel

theorem witness_KeyboardLapses :
    let owned (es : List Entry) (keys : List Keystroke) (s : State) : State :=
      let t := keyed 20 (onLine .direct es s)
      { t with intake := { t.intake with keys := keys } }
    let work (s : State) := ∃ k ∈ s.intake.keys, claimsLine k.code = true
    let a := typed .f4 0 120 [97]
    let met (s : State) := s.bus.conflict = false ∧ s.bus.window = .closed ∧
      (0 : StationNo) ≠ s.bus.own ∧ s.bus.table[0].role = some .keyboard ∧
      ∀ m : StationNo, s.bus.table[m].role = some .keyboard → m = 0
    desk.stopped = false ∧ desk.intake.owner ≠ .keyboard ∧
    work (owned [] [⟨27, false⟩] desk) ∧
    ((owned [] [⟨20, false⟩] desk).intake.owner = .keyboard ∧ ¬ work (owned [] [⟨20, false⟩] desk) ∧
      (owned [] [] desk).lines.current.entries = [] ∧ (owned [] [] desk).lines.viewDepth = 0) ∧
    ((owned a [] desk).lines.current.entries ≠ [] ∧ (owned a [] desk).bus.usable .keyboard = true) ∧
    ((owned a [] (lost desk)).bus.usable .keyboard = false ∧
      (owned a [] (lost desk)).lineFeeding = false ∧ desk.lines.ring.length ≤ 3) ∧
    (met desk ∧ desk.bus.table[0].status = .adopted) ∧
    (met (lost desk) ∧ (lost desk).bus.table[0].status = .lost ∧ rollFieldsOk 1 1 0 = true ∧
      stationKindOf 1 = some .keyboard) := by decide +kernel

/-- A lost keyboard with a ring line displayed: with room, without, and over a line with entries; and the
ROLLs that give its record up. -/
theorem witness_KeyboardLapses_view :
    let lost (s : State) : State :=
      lost { s with intake := { s.intake with keys := [], owner := .keyboard } }
    let on (es : List Entry) (s : State) : State := { s with lines := { s.lines with
      current := { s.lines.current with entries := es, nextId := es.length } } }
    let a := typed .f4 0 120 [97]
    let back (s : State) : State :=
      let n := s.lines.current.live.length
      ({ s with
        lines := { s.lines with viewDepth := 0, cursor := n }
        disp := { s.disp with window := windowFor 0 n } }.enqueue
          [.feed (signedDiff s.lines.current.offset s.lines.displayed.offset) s.cursorPoint,
            .move s.typingPoint]).settle
    (∀ s ∈ [lost (viewing desk), lost (on a (viewing desk)), full (lost (viewing desk))],
      s.stopped = false ∧ s.intake.owner = .keyboard ∧ s.intake.keys = [] ∧ s.lines.viewDepth ≠ 0 ∧
      s.bus.usable .keyboard = false) ∧
    (2 ≤ (lost (viewing desk)).room ∧ (viewing desk).lines.current.entries = []) ∧
    (full (lost (viewing desk))).room < 2 ∧
    (2 ≤ (lost (on a (viewing desk))).room ∧ (on a (viewing desk)).lines.current.entries ≠ [] ∧
      (back (lost (on a (viewing desk)))).lineFeeding = false) ∧
    (Vacates desk.bus.table[0] 0 0 0 ⟨some .keyboard, 1, 0, .lost, some .keyboard, 2⟩ ∧
      rollFieldsOk 0 0 0 = true) ∧
    (Vacates desk.bus.table[0] 1 2 0 ⟨some .keyboard, 2, 0, .late, none, 0⟩ ∧
      rollFieldsOk 1 2 0 = true) ∧
    Vacates (lost desk).bus.table[0] 4 1 0 ⟨some .source, 1, 0, .late, none, 0⟩ := by
  and_intros <;> first
    | exact .inl ⟨rfl, rfl⟩
    | exact .inr ⟨.keyboard, rfl, by decide +kernel, rfl⟩
    | exact .inr ⟨.source, rfl, by decide +kernel, rfl⟩
    | decide +kernel

theorem witness_HeadExamined :
    let head (a : Action) (s : State) : State := { s with seq := { s.seq with queue := [a] } }
    let strike := Action.strike (blow 64 120)
    let lift := Action.lift (blow 64 120) .f4
    State.reset.seq.work ≠ none ∧ haltedDesk.seq.mech = .halted ∧
    (desk.seq.work = none ∧ desk.seq.mech ≠ .parked ∧ desk.seq.mech ≠ .halted ∧
      desk.pins.coverOpen = false ∧ desk.seq.hold = false ∧ desk.seq.readDue = false ∧
      desk.seq.queue = []) ∧
    (uncovered desk).pins.coverOpen = true ∧
    ({ desk with seq := { desk.seq with hold := true } } : State).seq.hold = true ∧
    ({ desk with seq := { desk.seq with readDue := true } } : State).seq.readDue = true ∧
    ((head strike (withWheel none desk)).wheel.mounted = none ∧
      (head strike (withWheel none desk)).seq.queue = strike :: []) ∧
    (Family.f6.carries 64 = false ∧ Family.f4.carries 64 = true ∧ desk.wheel.ribbon ≠ .out ∧
      ({ desk with wheel := ⟨some .f4, .out⟩ } : State).wheel.ribbon = .out) ∧
    ((head lift desk).seq.queue = lift :: [] ∧ Family.f6 ≠ .f4) ∧
    (head (.move 120) desk).seq.queue = .move 120 :: [] ∧
    (head (.feed 2 120) desk).seq.queue = .feed 2 120 :: [] := by
  and_intros <;> decide +kernel

/-- No REPORT queued, one that waits behind a QUERY, one on the line, and CONFLICT. -/
theorem witness_HeadExamined_report :
    let old := firstReport .cold
    let queue : List OutFrame := [.query 3 0 [97], .report old]
    let s : State := { desk with bus := { desk.bus with queue := queue } }
    ((∀ f ∈ desk.bus.queue, f.isReport = false) ∧ desk.bus.conflict = false ∧
      desk.store.loadWaits = false) ∧
    (s.bus.queue = [.query 3 0 [97]] ++ .report old :: [] ∧ s.bus.sending ≠ some 1 ∧
      (∀ f ∈ [OutFrame.query 3 0 [97]], f.isReport = false)) ∧
    (({ s with bus := { s.bus with sending := some 1 } } : State).bus.sending = some 1) ∧
    inConflict.bus.conflict = true ∧
    ({ desk with seq := { desk.seq with mech := .waitingWheel } } : State).machine ≠ desk.machine := by
  decide +kernel

/-- Distances of 48 and 49, and none. -/
theorem witness_TurnGoesTheShorterWay :
    (95 : Nat) < 96 ∧ (0 + 96 - 48) % 96 = 48 ∧ (0 + 96 - 47) % 96 = 49 ∧ (47 : Nat) < 96 ∧
      (wheelTurn 48 0).forward = true ∧ (wheelTurn 47 0).forward = false := by decide

theorem witness_PulseAndPetal :
    (1 : Nat) ≤ 1 ∧ (3 : Nat) ≤ 3 ∧ Family.f6.carries 130 = true ∧ Family.f1.carries 33 = true ∧
      Family.f6.petal 130 = some 82 ∧ Family.f1.petal 101 = some 0 := by decide +kernel

theorem witness_ActionsComplete :
    ∀ a ∈ [Action.strike (blow 97 120), .move 120, .feed 2 120],
      (running [a, .move 9] desk).stopped = false ∧
        (running [a, .move 9] desk).seq.work = some (.action none) ∧
        (running [a, .move 9] desk).seq.queue = a :: [.move 9] := by decide +kernel

theorem witness_LiftCompletes :
    let s (outstanding tape : Nat) : State :=
      { running [.lift (blow 97 120) .f4] (onLine .direct ((typed .f4 0 120 [97]).map fun e =>
          { struck e with strike := some .lifting }) desk) with
        corr := ⟨tape, outstanding, [⟨30, 0, outstanding⟩], false⟩ }
    ((s 1 51).stopped = false ∧ (s 1 51).seq.work = some (.action none) ∧
      (s 1 51).seq.queue = .lift (blow 97 120) .f4 :: [] ∧
      (∃ r ∈ (s 1 51).corr.lifts, (r.line = 30 ∧ r.entry = 0) ∧ r.outstanding = 1) ∧
      (s 1 51).lines.find 30 = some (s 1 51).lines.current ∧ (s 1 51).bus.conflict = false ∧
      (s 1 51).bus.queue.all (fun g => !g.isReport) = true) ∧
    ¬ (∃ r ∈ (s 2 1).corr.lifts, (r.line = 30 ∧ r.entry = 0) ∧ r.outstanding = 1) ∧
    (s 2 1).corr.tape = 1 := by
  and_intros <;> decide +kernel

/-- A homing of this purpose runs. -/
def homingFor (why : HomingWhy) (s : State) : State :=
  { s with seq := { s.seq with mech := .homing, work := some (.homing why) } }

theorem witness_HomingAndWheelRead :
    (State.reset.stopped = false ∧ State.reset.seq.work = some (.homing .start) ∧
      ({ State.reset with supply := { State.reset.supply with rollCallDone := true } } :
        State).supply.power = .starting) ∧
    ((homingFor .wake (powered .standby desk)).supply.power = .standby ∧
      (homingFor .wake (powered .standby desk)).seq.work = some (.homing .wake) ∧
      (homingFor .wake (powered .standby desk)).seq.queue = []) ∧
    (homingFor .recovery desk).seq.work = some (.homing .recovery) ∧
    (homingFor .clear desk).seq.work = some (.homing .clear) ∧
    ({ desk with seq := { desk.seq with work := some .wheelRead } } : State).seq.work =
      some .wheelRead := by decide +kernel

theorem witness_ActionLimitExpires :
    let again (s : State) : State := { s with seq := { s.seq with retry := true } }
    ((running [.feed 2 120] desk).stopped = false ∧
      (running [.feed 2 120] desk).seq.work = some (.action none) ∧
      (running [.feed 2 120] desk).seq.retry = false) ∧
    ((again (running [.feed 2 120] desk)).seq.retry = true ∧
      (again (running [.feed 2 120] desk)).seq.queue ≠ [] ∧
      (running [.feed 2 120] desk).supply.power ≠ .standby) ∧
    ((again State.reset).seq.work = some (.homing .start) ∧ (again State.reset).seq.retry = true) ∧
    ((again (homingFor .wake (powered .standby desk))).seq.work = some (.homing .wake) ∧
      (powered .standby desk).supply.power = .standby) := by decide +kernel

theorem witness_CoverRibbonAndTape :
    desk.stopped = false ∧ desk.seq.mech ≠ .parked ∧ desk.pins.coverOpen = false ∧
      (let s := uncovered desk
       s.stopped = false ∧ s.seq.mech ≠ .parked ∧ s.pins.coverOpen = true ∧ s.seq.work = none ∧
         s.seq.mech ≠ .halted ∧ s.seq.hold = false) ∧
      (desk.supply.power = .run ∧ desk.wheel.ribbon ≠ .film) ∧
      (powered .standby desk).supply.power = .standby ∧
      (let s : State := uncovered { desk with seq := { desk.seq with mech := .parked } }
       s.stopped = false ∧ ¬ s.seq.mech ≠ .parked ∧ s.pins.coverOpen = true) := by decide

/-- The ribbon kind changes in STARTING, with its load waiting too, in HALTED and in a power warning, and is
kept as a level in STANDBY and in a warning that found the mechanism PARKED. -/
theorem witness_CoverRibbonAndTape_ribbon :
    let warned (mech : MechState) (prior : Power) (s : State) : State := { s with
      seq := { s.seq with mech := mech }, supply := { s.supply with power := .powerWarn, prior := prior } }
    let loading : State := { State.reset with
      seq := { State.reset.seq with mech := .parked, work := none }
      store := { State.reset.store with loadWaits := true } }
    let parkedWarning (s : State) :=
      s.seq.mech = .parked ∧ s.supply.power = .powerWarn ∧ s.supply.prior = .standby
    (∀ s ∈ [State.reset, loading, haltedDesk, warned .idle .run desk, warned .parked .starting loading,
        warned .homing .standby desk],
      s.stopped = false ∧ s.supply.power ≠ .standby ∧ ¬ parkedWarning s ∧ s.wheel.ribbon ≠ .film) ∧
    (warned .parked .standby desk).stopped = false ∧ parkedWarning (warned .parked .standby desk) ∧
    desk.wheel.ribbon = .fabric := by decide +kernel


/-- The cover closes on a new tape after 50 operations left and after 51, and on an old one. -/
theorem witness_CoverRibbonAndTape_tape :
    let at_ (tape : Nat) (new : Bool) := uncovered { desk with corr := ⟨tape, 0, [], new⟩ }
    (∀ s ∈ [at_ 50 true, at_ 51 true, at_ 50 false],
      s.stopped = false ∧ s.seq.mech ≠ .parked ∧ s.pins.coverOpen = true) ∧
    ((at_ 50 true).corr.newTape = true ∧ (at_ 50 true).corr.tape ≤ 50) ∧
    51 ≤ (at_ 51 true).corr.tape ∧ (at_ 50 false).corr.newTape = false := by decide +kernel

/-- A mechanism that the settling does not examine, and one that it does. -/
theorem witness_HomingAndWheelRead_settle :
    let in_ (m : MechState) : State := { desk with seq := { desk.seq with mech := m } }
    (in_ .paused).seq.mech = .paused ∧ (in_ .waitingWheel).seq.mech = .waitingWheel ∧
      (desk.seq.mech ≠ .paused ∧ desk.seq.mech ≠ .waitingWheel) := by decide

theorem witness_ClearRecovers :
    let s := keyed 30 haltedDesk
    let lines (s : State) := s.lines.current :: s.lines.ring
    let f : State := { (keyed 30 haltedDesk) with lines := (feeding (withRing desk)).lines }
    (s.HeadKey ⟨30, false⟩ [] ∧ s.machine = .halted ∧ s.bus.usable .keyboard = true ∧
      s.lines.mark = none ∧ ((lines s).map (·.number)).Nodup ∧
      ∀ r ∈ s.corr.lifts, r.outstanding ≤ liftsOf s.seq.queue r.line r.entry) ∧
    (f.HeadKey ⟨30, false⟩ [] ∧ f.lines.mark = some ⟨29, .finalFeed, some (2, 120)⟩ ∧
      f.lines.find 29 = f.lines.ring.head? ∧ f.lines.ring.length = 1 ∧
      ((lines f).map (·.number)).Nodup) := by
  and_intros <;> first | exact headKey_of (by decide +kernel) | decide +kernel

/-- A committed line with two HELD entries, its mark at an action, and two free places or one. -/
def fed (sub : Nat) (final : Option (Int × Nat)) (places : Nat) : State :=
  let es := [newEntry 0 (.char 97 .f4 true) 120 10 true, newEntry 1 (.char 98 .f4 false) 130 12 false]
  let t := onLine .direct [] desk
  { t with
    seq := { t.seq with queue := List.replicate (48 - places) (.move 120) }
    lines := { t.lines with
      ring := [{ ringLine 29 40 es with mode := .hold }], mark := some ⟨29, .action 0 sub, final⟩ } }

/-- The first action of an entry of three, its last one, the last one of all, and the final FEED. -/
theorem witness_FeedingMarkFeeds :
    let total (s : State) := (s.lines.ring.flatMap (·.entries)).head?.map fun e =>
      (e.begin (s.underscoreWidth 29 0)).total
    ((feeding (full desk)).lines.mark = some ⟨29, .finalFeed, some (2, 120)⟩ ∧
      (feeding (full desk)).freePlaces = 0) ∧
    0 < (feeding desk).freePlaces ∧
    (∀ sub ∈ [0, 2], ∀ places ∈ [1, 2], (fed sub (some (2, 120)) places).freePlaces = places ∧
      (fed sub (some (2, 120)) places).lines.mark = some ⟨29, .action 0 sub, some (2, 120)⟩ ∧
      total (fed sub (some (2, 120)) places) = some 3) ∧
    (fed 2 none 1).lines.mark = some ⟨29, .action 0 2, none⟩ ∧
    (∀ l ∈ (fed 0 none 2).lines.ring, (fed 0 none 2).lines.find 29 = some l ∧
      (l.entries.map (·.id)).Nodup ∧
      ∀ e ∈ l.entries, e.strike = some .held ∧ e.kind.isChar = true) := by
  and_intros <;> decide +kernel

theorem witness_PanelToneAndAlerts :
    desk.stopped = false ∧ desk.disp.panel = .on ∧ State.reset.disp.panel ≠ .on ∧
    (powered .standby desk).machine = .standby ∧
    ({ desk with alert := ⟨none, true⟩ } : State).alert.silence = true ∧
    (desk.machine ≠ .standby ∧ desk.alert.silence = false ∧ desk.alert.current = none) ∧
    ({ desk with alert := ⟨some .spell, false⟩ } : State).alert.current = some .spell ∧
    ((sourceKey 31 desk).HeadKey ⟨31, false⟩ [] ∧ (sourceKey 31 desk).machine ≠ .halted ∧
      (sourceKey 31 desk).bus.usable .keyboard = true) := by
  and_intros <;> first | exact headKey_of (by decide +kernel) | decide +kernel

/-- A panel that is ON with each message in turn, and with a line whose words blink. -/
theorem witness_PanelToneAndAlerts_panel :
    let on (c : Standing) (m : Option Message) : State :=
      { flagged desk with disp := { desk.disp with standing := c, transient := m } }
    let clear := desk.disp.standing
    (∀ c ∈ [{ clear with conflict := true }, { clear with halt := some .feed }],
      (on c none).disp.panel = .on) ∧
    (on clear (some .lineFull)).disp.transient = some .lineFull ∧
    (on { clear with wheel := some (.code 64) } none).disp.standing.wheel = some (.code 64) ∧
    (on { clear with pause := some .ribbon } none).disp.standing.pause = some .ribbon ∧
    (on { clear with noKeyboard := true } none).disp.standing.noKeyboard = true ∧
    (let s := on clear none
     s.disp.standing = ⟨false, none, none, none, false⟩ ∧ s.disp.transient = none ∧
      ((s.lines.displayed.live[0]?).map (·.serial)) = some (some 7) ∧
      s.lines.displayed.live[6]? = none ∧ s.disp.window = 0) ∧
    ({ flagged desk with disp := { desk.disp with lit := false } } : State).disp.lit = false := by
  and_intros <;> decide +kernel

/-- A store with this write in flight and these marks. -/
def writing (b : Option Block) (settings tape user : Bool) (s : State) : State :=
  { s with store := { s.store with
      inFlight := b, dirtySettings := settings, dirtyTape := tape, dirtyUser := user } }

/-- A write of the tape block left to the store by a RESET. -/
def finishing (waits : Bool) : State :=
  { desk with store := { desk.store with finishing := some .tape, loadWaits := waits } }

theorem witness_StoreWrites :
    (∀ s ∈ [desk, writing (some .tape) false false false desk], Due (keyed 26 s) 26) ∧
    (desk.store.finishing = none ∧ desk.store.inFlight = none) ∧
    (∀ s ∈ [writing (some .userList) false false false desk,
        writing (some .userList) true true true desk, writing (some .userList) false true true desk,
        writing (some .userList) false false true desk],
      s.stopped = false ∧ s.store.finishing = none ∧ s.store.inFlight = some .userList) ∧
    ((finishing false).store.finishing = some .tape ∧ (finishing false).store.loadWaits = false ∧
      ({ finishing false with supply := { desk.supply with resetHeld := true } } : State).stopped =
        true) ∧
    ((finishing true).stopped = false ∧ (finishing true).store.loadWaits = true ∧
      (powered .starting (finishing true)).supply.power ≠ .run ∧
      (finishing true).bus.conflict = false) ∧
    ∃ u, NextWrite desk desk.store u := by
  refine ⟨?_, ?_, ?_, ?_, ?_, desk.store, ?_⟩
  case refine_1 =>
    intro s h
    simp only [List.mem_cons, List.not_mem_nil, or_false] at h
    obtain rfl | rfl := h <;> exact due_keyed 26 (by decide +kernel)
  case refine_6 => exact ⟨fun _ => rfl, nofun, nofun, nofun, fun _ _ _ => rfl⟩
  all_goals decide +kernel

theorem witness_SupplyStandbyAndStops :
    let warned (s : State) : State := { s with supply := { s.supply with
      power := .powerWarn, prior := s.supply.power } }
    let starting : State := powered .starting desk
    let waking (s : State) : State := { s with supply := { s.supply with
      power := .standby, wakeMark := true } }
    (desk.stopped = false ∧ desk.supply.power ≠ .powerWarn) ∧
    ((warned desk).stopped = false ∧ (warned desk).supply.power = .powerWarn ∧
      (warned desk).supply.prior = .run) ∧
    ((warned starting).supply.prior = .starting ∧ (warned starting).supply.rollCallDone = true ∧
      (warned starting).supply.homingDone = true) ∧
    ((warned State.reset).supply.prior = .starting ∧ (warned State.reset).supply.rollCallDone = false) ∧
    ((warned (powered .standby desk)).supply.prior = .standby ∧ desk.supply.wakeMark = false) ∧
    ((warned (waking desk)).supply.wakeMark = true ∧ desk.seq.work ≠ some (.homing .wake) ∧
      (homingFor .wake (warned (waking desk))).seq.work = some (.homing .wake)) ∧
    (desk.supply.power = .run ∧ desk.bus.conflict = false ∧ desk.seq.mech = .idle ∧
      desk.intake.keys = [] ∧ desk.intake.src1.slot = none ∧ desk.intake.src2.slot = none ∧
      desk.seq.queue = [] ∧ desk.lines.mark = none ∧ desk.store.inFlight = none) ∧
    (keyed 97 desk).intake.keys ≠ [] ∧
    ((writing (some .tape) false false false desk).store.inFlight = some .tape ∧
      ({ desk with supply := { desk.supply with low := true } } : State).stopped = true) := by
  and_intros <;> decide +kernel

/-- "it's" and "a" in one line: the words and the runs of the segmentation, and one of them unchanged. -/
theorem witness_WordsFoundAndJudged :
    let es := typed .f4 0 120 [105, 116, 39, 115, 32, 97, 32]
    let l := (onLine .hold es desk).lines.current
    let old : Line := { l with
      entries := es.map fun e => if e.id < 4 then { e with serial := some 5 } else e
      words := [⟨5, 0, 4, 3, none, .opened, none⟩] }
    ((l.entries.map (·.id)).Nodup ∧ (l.words.map (·.serial)).Nodup ∧ l.words = []) ∧
    ((l.live[2]?.map Entry.isApostrophe) = some true ∧ (l.live[4]?.map Entry.isLetter) = some false) ∧
    ((l.segment 9).line.words.map fun w => (w.serial, w.firstId, w.length, w.letters)) =
      [(9, 0, 4, 3), (10, 5, 1, 1)] ∧
    ((old.segment 9).line.words.map fun w => (w.serial, w.firstId, w.length)) =
      [(5, 0, 4), (9, 5, 1)] ∧
    ((old.entries.map (·.id)).Nodup ∧ (old.words.map (·.serial)).Nodup) ∧
    (l.segment 9).ready = [9, 10] := by
  and_intros <;> decide +kernel

/-- A word of 25 entries, one of 24, one that the user list holds, and a full pending list. -/
theorem witness_WordsFoundAndJudged_hand :
    let word (n : Nat) (s : State) : State :=
      let t := onLine .direct ((typed .f4 0 120 (List.replicate n 97 ++ [32])).map fun e =>
        if e.isSpace then e else { e with serial := some 7 }) s
      { t with lines := { t.lines with current := { t.lines.current with
        words := [⟨7, 0, n, n, none, .opened, none⟩] } } }
    let found (n : Nat) (s : State) := s.lines.find 30 = some s.lines.current ∧
      s.lines.current.words.find? (·.serial == 7) = some ⟨7, 0, n, n, none, .opened, none⟩
    let known (n : Nat) (s : State) : State := { s with spell := { s.spell with
      userWords := [List.replicate n 97] } }
    let items (n : Nat) (s : State) : State := { s with spell := { s.spell with
      pending := List.replicate n ⟨30, 9, none⟩ } }
    (found 24 (word 24 desk) ∧ desk.spell.isOn = true ∧ desk.bus.conflict = false ∧
      desk.bus.usable .primary = true ∧
      (word 24 desk).lines.current.foldedForm 7 ∉ desk.spell.userWords) ∧
    found 25 (word 25 desk) ∧ found 1 (word 1 desk) ∧
    (word 24 (known 24 desk)).lines.current.foldedForm 7 ∈ (known 24 desk).spell.userWords ∧
    ((word 2 State.reset).bus.usable .primary = false ∧
      (word 2 State.reset).bus.usable .secondary = false) ∧
    ((items 7 desk).spell.pending.length < 8 ∧
      (items 8 desk).spell.pending = ⟨30, 9, none⟩ :: List.replicate 7 ⟨30, 9, none⟩) ∧
    (inConflict.bus.conflict = true ∧ (powered .standby desk).supply.power = .standby ∧
      (powered .powerWarn desk).supply.power = .powerWarn ∧ desk.supply.power = .run ∧
      ({ ringLine 30 0 [] with owner := .source1 } : Line).owner = .source1) := by
  and_intros <;> decide +kernel

theorem witness_StartsTakeTheirValues :
    desk.supply.resetHeld = false ∧
      (desk.supply.low = false ∧ desk.store.inFlight = none ∧ desk.store.finishing = none) ∧
      (∀ s ∈ [writing (some .tape) true false false desk, finishing false],
        s.supply.low = false ∧ (s.store.inFlight ≠ none ∨ s.store.finishing ≠ none)) ∧
      desk.store.settings.isValid Settings.checkValue Settings.inRange = false ∧
      desk.store.userList.isValid userCheckValue userListInRange = false := by decide +kernel

/-- A store whose three blocks are valid: the values of the clamp of §10.1, two forms, tape 312. -/
theorem witness_StartsTakeTheirValues_valid :
    let v : Settings := ⟨1500, 1700, [1600], 2, 2, true, false, true, false⟩
    let words : List (List Nat) := [[97, 98], [99, 39, 100]]
    let u : StoreUnit := { desk.store with
      settings := ⟨true, v.checkValue, v⟩, tape := ⟨true, tapeCheckValue 312, 312⟩
      userList := ⟨true, userCheckValue words, words⟩ }
    u.settings.isValid Settings.checkValue Settings.inRange = true ∧
      u.userList.isValid userCheckValue userListInRange = true ∧
      u.tape.isValid tapeCheckValue (· ≤ 900) = true := by
  have h1 : Settings.inRange ⟨1500, 1700, [1600], 2, 2, true, false, true, false⟩ = true := by
    decide +kernel
  have h2 : userListInRange [[97, 98], [99, 39, 100]] = true := by decide +kernel
  exact ⟨by simp [StoredBlock.isValid, h1], by simp [StoredBlock.isValid, h2],
    by simp [StoredBlock.isValid]⟩

/-- Every bound at its edge: full queues, the margins at their least distance, sixteen stops, a tape of
one reserved lift, a window that begins 31 before the cursor. -/
def atBounds : State :=
  let s := stopsAt sixteen (full (queued 32 (onLine .hold (typed .f4 0 120 (List.replicate 31 97)) desk)))
  { s with
    esc := { s.esc with left := 120, right := 240, spacing := 4, platen := 1800 }
    seq := { s.seq with
      impression := 3, petal := 95, queue := s.seq.queue.drop 1 ++ [.lift (blow 97 120) .f4] }
    corr := ⟨1, 1, [⟨30, 0, 1⟩], false⟩
    lines := { s.lines with ring := [ringLine 1 0 [], ringLine 2 2 [], ringLine 3 4 []] }
    spell := { s.spell with
      pending := List.replicate 8 ⟨3, 0, none⟩, userWords := List.replicate 48 [97, 98] }
    pending := [.blink] }

theorem sized_of {l : Line} (h : l.entries.length ≤ 160 ∧ l.nextId ≤ 256 ∧
    (∀ e ∈ l.entries, e.id < l.nextId) ∧ (l.entries.map (·.id)).Nodup) : l.Sized :=
  ⟨h.1, h.2.1, h.2.2.1, h.2.2.2⟩

theorem witness_StepKeepsBounds : atBounds.Bounded ∧ ∃ t, step atBounds = .next t := by
  refine ⟨?_, _, rfl⟩
  constructor
  case current => exact sized_of (by decide +kernel)
  case ringLines =>
    intro l h
    have hr : atBounds.lines.ring = [ringLine 1 0 [], ringLine 2 2 [], ringLine 3 4 []] := rfl
    rw [hr] at h
    simp only [List.mem_cons, List.not_mem_nil, or_false] at h
    obtain rfl | rfl | rfl := h <;> exact sized_of (by decide +kernel)
  case petal => exact ⟨by decide +kernel, fun _ h => nomatch (show Option.none = some _ from h)⟩
  case loadWaits => exact fun h => absurd h (by decide +kernel)
  all_goals decide +kernel

/-- A RETURN past nothing, with R and the cursor point at the platen's end. -/
theorem witness_StepKeepsBounds_right :
    let s : State := { rightAt 1560 (onLine .direct [{ newEntry 0 (.tab true) 120 1440 false with id := 0 }]
      desk) with pending := [.blink] }
    s.esc.right ≤ s.esc.platen ∧ s.cursorPoint = s.esc.platen ∧ ∃ t, step s = .next t :=
  ⟨by decide +kernel, by decide +kernel, _, rfl⟩

theorem lawful_of {s : State} (h : (s.bus.conflict = true → s.bus.queue = [] ∧ s.bus.sending = none) ∧
    s.bus.queue.countP OutFrame.isReport ≤ 1 ∧ s.bus.queue.count .roll ≤ 1 ∧
    (s.bus.queue.countP OutFrame.isSummary ≤ if s.bus.window = .closed then 1 else 0) ∧
    (∀ tag : Fin 4, s.bus.queue.countP (OutFrame.asks tag) ≤
      if s.spell.slots[tag].isSending then 1 else 0) ∧ s.bus.queue.length ≤ 8) : s.BusLawful :=
  ⟨h.1, h.2.1, h.2.2.1, h.2.2.2.1, h.2.2.2.2.1, h.2.2.2.2.2⟩

/-- After a start; in CONFLICT; and with a QUERY of slot 0 queued. -/
theorem witness_StepKeepsBusLaws :
    let s : State := { State.reset with pending := [.sendMismatch] }
    let q : State := { asked (.asking { waiting with phase := .sending }) .lower desk with
      bus := { desk.bus with queue := [.query 3 0 [97, 98], .summary []] } }
    s.BusLawful ∧ (∃ t, step s = .next t) ∧ s.bus.queue.countP OutFrame.isReport = 1 ∧
      inConflict.BusLawful ∧ q.BusLawful :=
  ⟨lawful_of (by decide +kernel), ⟨_, rfl⟩, by decide, lawful_of (by decide +kernel),
    lawful_of (by decide +kernel)⟩

theorem witness_StepKeepsPowerLaws :
    let s : State := { powered .powerWarn desk with
      seq := { desk.seq with hold := true }, pending := [.supplyRecovery]
      supply := { desk.supply with power := .powerWarn, prior := .standby, wakeMark := true } }
    s.PowerLawful ∧ ∃ t, step s = .next t :=
  ⟨⟨by decide, by decide, by decide⟩, _, rfl⟩

end Sys2Proof.Tests
end

namespace Sys2Proof.Machine

/-! ### The frames of the outgoing queue -/

/-- Every frame is a REPORT, the ROLL, a SUMMARY or the QUERY of one of the four tags. -/
theorem outFrames_length (q : List OutFrame) : q.length =
    q.countP OutFrame.isReport + q.count .roll + q.countP OutFrame.isSummary +
      (q.countP (OutFrame.asks 0) + q.countP (OutFrame.asks 1) + q.countP (OutFrame.asks 2) +
        q.countP (OutFrame.asks 3)) := by
  induction q with
  | nil => rfl
  | cons f q ih =>
    cases f with
    | roll =>
      simp [OutFrame.isReport, OutFrame.isSummary, OutFrame.asks]
      omega
    | summary _ | report _ =>
      simp [List.countP_cons, OutFrame.isReport, OutFrame.isSummary, OutFrame.asks]
      omega
    | query d t l =>
      fin_cases t <;>
        simp [OutFrame.isReport, OutFrame.isSummary, OutFrame.asks] <;> omega

/-- The bound on the number of frames follows from the bounds on their kinds (R21, R166). -/
theorem State.BusLawful.of_counts {s : State}
    (silent : s.bus.conflict = true → s.bus.queue = [] ∧ s.bus.sending = none)
    (oneReport : s.bus.queue.countP OutFrame.isReport ≤ 1)
    (oneRoll : s.bus.queue.count .roll ≤ 1)
    (oneSummary : s.bus.queue.countP OutFrame.isSummary ≤ if s.bus.window = .closed then 1 else 0)
    (queries : ∀ tag : Fin 4, s.bus.queue.countP (OutFrame.asks tag) ≤
      if s.spell.slots[tag].isSending then 1 else 0) : s.BusLawful where
  silent := silent
  oneReport := oneReport
  oneRoll := oneRoll
  oneSummary := oneSummary
  queries := queries
  frames := by
    have query (tag : Fin 4) : s.bus.queue.countP (OutFrame.asks tag) ≤ 1 :=
      (queries tag).trans (by split <;> omega)
    have summary : s.bus.queue.countP OutFrame.isSummary ≤ 1 :=
      oneSummary.trans (by split <;> omega)
    have := outFrames_length s.bus.queue
    have := query 0
    have := query 1
    have := query 2
    have := query 3
    omega

/-- The laws speak of the conflict, the queue, the frame on the line, the window and the phases of the
slots alone. -/
theorem State.BusLawful.of_same {s t : State} (h : s.BusLawful)
    (conflict : t.bus.conflict = s.bus.conflict) (queue : t.bus.queue = s.bus.queue)
    (sending : t.bus.sending = s.bus.sending) (window : t.bus.window = s.bus.window)
    (slots : ∀ tag : Fin 4, t.spell.slots[tag].isSending = s.spell.slots[tag].isSending) :
    t.BusLawful := by
  refine .of_counts ?_ ?_ ?_ ?_ fun tag => ?_
  · rw [conflict, queue, sending]; exact h.silent
  · rw [queue]; exact h.oneReport
  · rw [queue]; exact h.oneRoll
  · rw [queue, window]; exact h.oneSummary
  · rw [queue, slots]; exact h.queries tag

/-- A change of other units than the Bus Interface and the Spelling Unit. -/
theorem State.busLawful_congr {s t : State} (bus : t.bus = s.bus)
    (slots : t.spell.slots = s.spell.slots) : t.BusLawful ↔ s.BusLawful :=
  ⟨fun h => h.of_same (by rw [bus]) (by rw [bus]) (by rw [bus]) (by rw [bus])
      fun tag => by rw [slots],
    fun h => h.of_same (by rw [bus]) (by rw [bus]) (by rw [bus]) (by rw [bus])
      fun tag => by rw [slots]⟩

@[simp] theorem State.busLawful_mapIntake (s : State) (f : Intake → Intake) :
    (s.mapIntake f).BusLawful ↔ s.BusLawful := State.busLawful_congr rfl rfl
@[simp] theorem State.busLawful_mapWheel (s : State) (f : WheelUnit → WheelUnit) :
    (s.mapWheel f).BusLawful ↔ s.BusLawful := State.busLawful_congr rfl rfl
@[simp] theorem State.busLawful_mapEsc (s : State) (f : Escapement → Escapement) :
    (s.mapEsc f).BusLawful ↔ s.BusLawful := State.busLawful_congr rfl rfl
@[simp] theorem State.busLawful_mapLines (s : State) (f : LineStore → LineStore) :
    (s.mapLines f).BusLawful ↔ s.BusLawful := State.busLawful_congr rfl rfl
@[simp] theorem State.busLawful_mapSeq (s : State) (f : Sequencer → Sequencer) :
    (s.mapSeq f).BusLawful ↔ s.BusLawful := State.busLawful_congr rfl rfl
@[simp] theorem State.busLawful_mapCorr (s : State) (f : Correction → Correction) :
    (s.mapCorr f).BusLawful ↔ s.BusLawful := State.busLawful_congr rfl rfl
@[simp] theorem State.busLawful_mapDisp (s : State) (f : Display → Display) :
    (s.mapDisp f).BusLawful ↔ s.BusLawful := State.busLawful_congr rfl rfl
@[simp] theorem State.busLawful_mapAlert (s : State) (f : AlertUnit → AlertUnit) :
    (s.mapAlert f).BusLawful ↔ s.BusLawful := State.busLawful_congr rfl rfl
@[simp] theorem State.busLawful_mapStore (s : State) (f : StoreUnit → StoreUnit) :
    (s.mapStore f).BusLawful ↔ s.BusLawful := State.busLawful_congr rfl rfl
@[simp] theorem State.busLawful_mapSupply (s : State) (f : Supply → Supply) :
    (s.mapSupply f).BusLawful ↔ s.BusLawful := State.busLawful_congr rfl rfl
@[simp] theorem State.busLawful_mapPins (s : State) (f : Pins → Pins) :
    (s.mapPins f).BusLawful ↔ s.BusLawful := State.busLawful_congr rfl rfl

/-! ### REPORTs -/

theorem queuedReport_none {q : List OutFrame} (h : queuedReport q = none) :
    ∀ f ∈ q, f.isReport = false := by
  induction q with
  | nil => simp
  | cons f q ih =>
    cases f with
    | report r => simp [queuedReport] at h
    | roll | summary _ | query _ _ _ =>
      simp only [queuedReport, Option.map_eq_none_iff] at h
      simpa [OutFrame.isReport] using ih h

/-- The REPORT that waits, with what stands before and behind it. -/
theorem queuedReport_some {q : List OutFrame} {i : Nat} {old : Report}
    (h : queuedReport q = some (i, old)) :
    ∃ before after, q = before ++ .report old :: after ∧ i = before.length ∧
      ∀ f ∈ before, f.isReport = false := by
  induction q generalizing i with
  | nil => simp [queuedReport] at h
  | cons f q ih =>
    cases f with
    | report r =>
      simp only [queuedReport, Option.some.injEq, Prod.mk.injEq] at h
      obtain ⟨rfl, rfl⟩ := h
      exact ⟨[], q, rfl, rfl, by simp⟩
    | roll | summary _ | query _ _ _ =>
      simp only [queuedReport, Option.map_eq_some_iff, Prod.exists, Prod.mk.injEq] at h
      obtain ⟨j, r, hq, rfl, rfl⟩ := h
      obtain ⟨before, after, rfl, rfl, hb⟩ := ih hq
      exact ⟨_ :: before, after, rfl, rfl, by simpa [OutFrame.isReport] using hb⟩

/-- What a trigger does to the frames (R22): nothing, a trigger held, a REPORT in the place of the one that
waits, or the first REPORT at the newest end. -/
theorem State.triggerReport_cases (s : State) (c : ReportCause) :
    s.triggerReport c = s ∨
    (∃ held, s.triggerReport c = s.mapBus fun b => { b with heldReport := some held }) ∨
    (∃ before old new after, s.bus.conflict = false ∧ s.bus.queue = before ++ .report old :: after ∧
      s.triggerReport c = s.mapBus fun b => { b with queue := before ++ .report new :: after }) ∨
    (∃ new, s.bus.conflict = false ∧ (∀ f ∈ s.bus.queue, f.isReport = false) ∧
      s.triggerReport c = s.mapBus fun b => { b with queue := b.queue ++ [.report new] }) := by
  unfold State.triggerReport
  split
  · exact .inl rfl
  · next hc =>
    have hc : s.bus.conflict = false := by simpa using hc
    split
    · next i old hq =>
      obtain ⟨before, after, hb, rfl, -⟩ := queuedReport_some hq
      split
      · exact .inr (.inl ⟨_, rfl⟩)
      · refine .inr (.inr (.inl ⟨before, old, s.buildReport (old.cause.merge c) old.start, after,
          hc, hb, ?_⟩))
        simp [State.mapBus, hb]
    · next hq => exact .inr (.inr (.inr ⟨_, hc, queuedReport_none hq, rfl⟩))

/-- A REPORT in the place of another leaves the number of frames of each kind. -/
theorem State.BusLawful.replaceReport {s : State} (h : s.BusLawful) {before after : List OutFrame}
    {old new : Report} (hq : s.bus.queue = before ++ .report old :: after)
    (hc : s.bus.conflict = false) :
    (s.mapBus fun b => { b with queue := before ++ .report new :: after }).BusLawful := by
  refine .of_counts (by simp [hc]) ((le_of_eq ?_).trans h.oneReport)
    ((le_of_eq ?_).trans h.oneRoll) ((le_of_eq ?_).trans h.oneSummary)
    fun tag => (le_of_eq ?_).trans (h.queries tag)
  all_goals
    simp [hq, List.countP_cons, OutFrame.isReport, OutFrame.isSummary, OutFrame.asks]

/-- A frame that joins the newest end, when the laws leave a place for one of its kind. -/
theorem State.BusLawful.append {s : State} (h : s.BusLawful) (f : OutFrame)
    (hc : s.bus.conflict = false)
    (report : f.isReport = true → s.bus.queue.countP OutFrame.isReport = 0)
    (roll : f ≠ .roll)
    (summary : f.isSummary = true → s.bus.window = .closed ∧
      s.bus.queue.countP OutFrame.isSummary = 0)
    (query : ∀ tag, f.asks tag = true → s.spell.slots[tag].isSending = true ∧
      s.bus.queue.countP (OutFrame.asks tag) = 0) :
    (s.mapBus fun b => { b with queue := b.queue ++ [f] }).BusLawful := by
  refine .of_counts (by simp [hc]) ?_ ?_ ?_ fun tag => ?_
  · by_cases hf : f.isReport = true
    · simp [hf, report hf]
    · exact (le_of_eq (by simp [hf])).trans h.oneReport
  · simpa [List.count_append, List.count_singleton, roll] using h.oneRoll
  · by_cases hf : f.isSummary = true
    · simp [hf, summary hf]
    · exact (le_of_eq (by simp [hf])).trans h.oneSummary
  · by_cases hf : f.asks tag = true
    · simp only [State.mapBus_bus, State.mapBus_spell, List.countP_append, List.countP_singleton, hf,
        query tag hf, if_true]
      omega
    · exact (le_of_eq (by simp [hf])).trans (h.queries tag)

@[simp] theorem State.BusLawful.triggerReport {s : State} (h : s.BusLawful) (c : ReportCause) :
    (s.triggerReport c).BusLawful := by
  obtain e | ⟨held, e⟩ | ⟨before, old, new, after, hc, hq, e⟩ | ⟨new, hc, hq, e⟩ :=
    s.triggerReport_cases c <;> rw [e]
  · exact h
  · exact h.of_same rfl rfl rfl rfl fun _ => rfl
  · exact h.replaceReport hq hc
  · exact h.append _ hc (fun _ => List.countP_eq_zero.mpr fun f hf => by simp [hq f hf]) nofun nofun
      fun tag => nofun

@[simp] theorem State.BusLawful.reportIfChanged {s : State} (h : s.BusLawful) (m : MachineState) :
    (s.reportIfChanged m).BusLawful := by
  unfold State.reportIfChanged
  split
  · exact h
  · exact h.triggerReport _

@[simp] theorem State.BusLawful.setMech {s : State} (h : s.BusLawful) (m : MechState)
    (p : Option PauseCause) (n : Option WheelNeed) : (s.setMech m p n).BusLawful := by
  simp [State.setMech, h]

@[simp] theorem State.BusLawful.setPower {s : State} (h : s.BusLawful) (p : Power) :
    (s.setPower p).BusLawful := by
  simp [State.setPower, h]

@[simp] theorem State.BusLawful.examineHead {s : State} (h : s.BusLawful) : s.examineHead.BusLawful := by
  unfold State.examineHead
  repeat' split
  all_goals simp [h]

@[simp] theorem State.BusLawful.startHoming {s : State} (h : s.BusLawful) (w : HomingWhy) :
    (s.startHoming w).BusLawful := by
  simp [State.startHoming, h]

@[simp] theorem State.BusLawful.setTape {s : State} (h : s.BusLawful) (n : Nat) :
    (s.setTape n).BusLawful := by
  simp only [State.setTape]
  split <;> simp [h]

@[simp] theorem State.BusLawful.setOwner {s : State} (h : s.BusLawful) (o : Owner) :
    (s.setOwner o).BusLawful := by
  simp [State.setOwner, State.mapCurrent, h]

end Sys2Proof.Machine

namespace Sys2Proof.Machine

/-! ### The Spelling Unit -/

/-- No QUERY of a tag waits or is on the line. -/
def State.notAsked (s : State) (tag : Fin 4) : Prop := s.bus.queue.countP (OutFrame.asks tag) = 0

/-- A slot that is not SENDING has no QUERY in the queue (R166). -/
theorem State.BusLawful.notAsked {s : State} (h : s.BusLawful) {tag : Fin 4}
    (hs : s.spell.slots[tag].isSending = false) : s.notAsked tag :=
  Nat.le_zero.mp ((h.queries tag).trans (le_of_eq (by rw [hs]; rfl)))

theorem Slots.get_set (v : Vector Slot 4) (t tag : Fin 4) (x : Slot) :
    (v.set t x)[tag] = if tag = t then x else v[tag] := by
  simp only [Fin.getElem_fin, Vector.getElem_set, Fin.ext_iff, eq_comm]

@[simp] theorem State.busLawful_setWord (s : State) (line serial : Word) (st : WordState)
    (tag : Option (Fin 4)) : (s.setWord line serial st tag).BusLawful ↔ s.BusLawful :=
  State.busLawful_congr rfl rfl

theorem State.busLawful_mapPending (s : State) (f : Spelling → List PendingItem) :
    (s.mapSpell fun u => { u with pending := f u }).BusLawful ↔ s.BusLawful :=
  State.busLawful_congr rfl rfl

/-- A slot whose QUERY does not wait can take any phase. -/
theorem State.BusLawful.setSlot {s : State} (h : s.BusLawful) {tag : Fin 4} (hn : s.notAsked tag)
    (x : Slot) : (s.setSlot tag x).BusLawful := by
  refine .of_counts h.silent h.oneReport h.oneRoll h.oneSummary fun t => ?_
  by_cases ht : t = tag
  · subst ht
    exact (le_of_eq hn).trans (Nat.zero_le _)
  · exact (h.queries t).trans (le_of_eq (by simp only [State.setSlot, State.mapSpell_spell,
      Slots.get_set, ht, if_false]))

/-- A slot takes a word and asks (R167): its one QUERY joins the queue. -/
theorem State.BusLawful.slotTakes {s : State} (h : s.BusLawful) {tag : Fin 4} (hn : s.notAsked tag)
    (line serial : Word) (r : DictRole) (already : Option DictRole) :
    (s.slotTakes tag line serial r already).BusLawful := by
  have hs := (State.busLawful_setWord _ line serial .asking (some tag)).mpr
    (h.setSlot hn (.asking ⟨line, serial, (s.bus.holder r.role).getD 0, r, already, .sending, false⟩))
  simp only [State.slotTakes, State.enqueueFrame]
  split
  · exact hs
  · next hc =>
    refine hs.append _ (by simpa using hc) nofun nofun nofun fun t ht => ?_
    have ht : tag = t := by simpa [OutFrame.asks] using ht
    subst ht
    exact ⟨by simp [State.setSlot, Slot.isSending], hn⟩

theorem Spelling.freeTag_free {u : Spelling} {tag : Fin 4} (h : u.freeTag = some tag) :
    u.slots[tag] = .free := by
  simpa using List.find?_some h

theorem State.BusLawful.takeItemsUpTo {s : State} (h : s.BusLawful) (n : Nat) :
    (s.takeItemsUpTo n).BusLawful := by
  induction n generalizing s with
  | zero => exact h
  | succ n ih =>
    unfold State.takeItemsUpTo
    split
    · exact h
    · split
      · next item rest tag _ ht =>
        have hp := (s.busLawful_mapPending fun _ => rest).mpr h
        have hn : (s.mapSpell fun u => { u with pending := rest }).notAsked tag :=
          hp.notAsked (by simp [Spelling.freeTag_free ht, Slot.isSending])
        dsimp only
        split
        · exact ih (hp.slotTakes hn _ _ _ _)
        · exact ih ((State.busLawful_setWord _ _ _ _ _).mpr hp)
      · exact h

@[simp] theorem State.BusLawful.takeItems {s : State} (h : s.BusLawful) : s.takeItems.BusLawful :=
  h.takeItemsUpTo _

theorem State.BusLawful.freeSlot {s : State} (h : s.BusLawful) {tag : Fin 4} (hn : s.notAsked tag) :
    (s.freeSlot tag).BusLawful :=
  (h.setSlot hn _).takeItems

@[simp] theorem State.busLawful_appendPending (s : State) (i : PendingItem) :
    (s.appendPending i).BusLawful ↔ s.BusLawful :=
  State.busLawful_congr (by simp) (by unfold State.appendPending; (repeat' split) <;> rfl)

@[simp] theorem State.busLawful_returnPending (s : State) (i : PendingItem) :
    (s.returnPending i).BusLawful ↔ s.BusLawful :=
  State.busLawful_congr (by simp) (by unfold State.returnPending; (repeat' split) <;> rfl)

@[simp] theorem State.BusLawful.handWord {s : State} (h : s.BusLawful) (line serial : Word) :
    (s.handWord line serial).BusLawful := by
  simp only [State.handWord, State.updateLine]
  repeat' split
  all_goals simp [h]

@[simp] theorem Slot.isSending_discardWord (line serial : Word) (x : Slot) :
    (x.discardWord line serial).isSending = x.isSending := by
  cases x with
  | free | discarded _ => rfl
  | asking q => simp only [Slot.discardWord]; split <;> rfl

@[simp] theorem State.BusLawful.dropWord {s : State} (h : s.BusLawful) (line serial : Word) :
    (s.dropWord line serial).BusLawful :=
  h.of_same rfl rfl rfl rfl fun tag => by simp [State.dropWord]

theorem State.BusLawful.foldl {α : Type} {f : State → α → State}
    (hf : ∀ s a, s.BusLawful → (f s a).BusLawful) (l : List α) {s : State} (h : s.BusLawful) :
    (l.foldl f s).BusLawful := by
  induction l generalizing s with
  | nil => exact h
  | cons a l ih => exact ih (hf s a h)

@[simp] theorem State.BusLawful.resegment {s : State} (h : s.BusLawful) (n : Word) :
    (s.resegment n).BusLawful := by
  unfold State.resegment
  split
  · exact h
  · refine .foldl (fun s a h => h.handWord _ a) _ (.foldl (fun s a h => h.dropWord _ a) _ ?_)
    simp [State.updateLine, h]

theorem State.BusLawful.queryFailed {s : State} (h : s.BusLawful) {tag : Fin 4} (hn : s.notAsked tag)
    (q : Query) : (s.queryFailed tag q).BusLawful := by
  unfold State.queryFailed
  split
  · exact h.slotTakes hn _ _ _ _
  · exact ((State.busLawful_setWord _ _ _ _ _).mpr h).freeSlot hn

theorem State.BusLawful.queryEnded {s : State} (h : s.BusLawful) {tag : Fin 4} (hn : s.notAsked tag) :
    (s.queryEnded tag).BusLawful := by
  unfold State.queryEnded
  split
  · exact h
  · exact h.queryFailed hn _
  · exact h.freeSlot hn

@[simp] theorem State.busLawful_setStation (s : State) (n : StationNo) (r : Station) :
    (s.setStation n r).BusLawful ↔ s.BusLawful :=
  ⟨fun h => h.of_same rfl rfl rfl rfl fun _ => rfl, fun h => h.of_same rfl rfl rfl rfl fun _ => rfl⟩

@[simp] theorem State.BusLawful.countUnanswered {s : State} (h : s.BusLawful) (n : StationNo) :
    (s.countUnanswered n).BusLawful := by
  simp only [State.countUnanswered]
  split <;> simp [h]

@[simp] theorem State.BusLawful.clearUnanswered {s : State} (h : s.BusLawful) (n : StationNo) :
    (s.clearUnanswered n).BusLawful := by
  simp only [State.clearUnanswered]
  split <;> simp [h]

/-- The counts of a station's queries change no frame. -/
@[simp] theorem State.countUnanswered_queue (s : State) (n : StationNo) :
    (s.countUnanswered n).bus.queue = s.bus.queue := by
  simp only [State.countUnanswered]
  split <;> rfl

@[simp] theorem State.clearUnanswered_queue (s : State) (n : StationNo) :
    (s.clearUnanswered n).bus.queue = s.bus.queue := by
  simp only [State.clearUnanswered]
  split <;> rfl

/-- The outcome of a QUERY that has left the queue (R20, R168, R170, R175). -/
theorem State.BusLawful.queryOutcome {s : State} (h : s.BusLawful) {tag : Fin 4} (hn : s.notAsked tag)
    (d : StationNo) (a : AnswerCode) : (s.queryOutcome d tag a).BusLawful := by
  have counted : (s.countUnanswered d).notAsked tag := by simpa [State.notAsked] using hn
  have cleared : (s.clearUnanswered d).notAsked tag := by simpa [State.notAsked] using hn
  cases a with
  | taken =>
    simp only [State.queryOutcome]
    split
    · exact h.clearUnanswered d
    · exact (h.clearUnanswered d).setSlot cleared _
    · exact (h.clearUnanswered d).setSlot cleared _
  | busy =>
    simp only [State.queryOutcome]
    split
    · exact h
    · simp [h.setSlot hn]
    · exact h.freeSlot hn
  | refused | absent => exact (h.countUnanswered d).queryEnded counted

@[simp] theorem State.busLawful_requestAlert (s : State) (a : Alert) :
    (s.requestAlert a).BusLawful ↔ s.BusLawful := State.busLawful_congr (by simp) (by simp)

theorem State.BusLawful.applyVerdict {s : State} (h : s.BusLawful) {tag : Fin 4} (hn : s.notAsked tag)
    (q : Query) (v : Nat) : (s.applyVerdict tag q v).BusLawful := by
  unfold State.applyVerdict
  split
  · exact ((State.busLawful_setWord _ _ _ _ _).mpr h).freeSlot hn
  · split
    · exact h.slotTakes hn _ _ _ _
    · refine State.BusLawful.freeSlot (by simp [h]) ?_
      simpa [State.notAsked] using hn

/-- An ANSWER concerns a slot that waits for it alone (R171), whose QUERY has been sent. -/
theorem State.BusLawful.offerAnswer {s : State} (h : s.BusLawful) (sender : StationNo) (tag : Fin 4)
    (v : Nat) : (s.offerAnswer sender tag v).2.BusLawful := by
  unfold State.offerAnswer
  split
  · exact h
  all_goals
    next q hs =>
      split
      · next hq =>
        have hn : s.notAsked tag := h.notAsked (by simp [hs, Slot.isSending, hq.2])
        first
          | exact h.applyVerdict hn q v
          | exact h.freeSlot hn
      · exact h

end Sys2Proof.Machine

namespace Sys2Proof.Machine

/-! ### Lines, feeding, ownership -/

@[simp] theorem State.busLawful_setMark (s : State) (m : Option FeedMark) :
    (s.setMark m).BusLawful ↔ s.BusLawful := State.busLawful_congr rfl rfl
@[simp] theorem State.busLawful_enqueue (s : State) (as : List Action) :
    (s.enqueue as).BusLawful ↔ s.BusLawful := State.busLawful_congr rfl rfl
@[simp] theorem State.busLawful_updateLine (s : State) (n : Word) (f : Line → Line) :
    (s.updateLine n f).BusLawful ↔ s.BusLawful := State.busLawful_congr rfl rfl
@[simp] theorem State.busLawful_mapCurrent (s : State) (f : Line → Line) :
    (s.mapCurrent f).BusLawful ↔ s.BusLawful := State.busLawful_congr rfl rfl
@[simp] theorem State.busLawful_setCursor (s : State) (c : Nat) :
    (s.setCursor c).BusLawful ↔ s.BusLawful := State.busLawful_congr rfl rfl
@[simp] theorem State.busLawful_showFrom (s : State) (d c : Nat) :
    (s.showFrom d c).BusLawful ↔ s.BusLawful := State.busLawful_congr rfl rfl
@[simp] theorem State.busLawful_popKey (s : State) : s.popKey.BusLawful ↔ s.BusLawful :=
  State.busLawful_congr rfl rfl
@[simp] theorem State.busLawful_setEntries (s : State) (n : Word) (es : List Entry) :
    (s.setEntries n es).BusLawful ↔ s.BusLawful := State.busLawful_congr (by simp) (by simp)
@[simp] theorem State.busLawful_bellCheck (s : State) : s.bellCheck.BusLawful ↔ s.BusLawful :=
  State.busLawful_congr (by simp) (by simp)
@[simp] theorem State.busLawful_fixMark (s : State) : s.fixMark.BusLawful ↔ s.BusLawful :=
  State.busLawful_congr (by simp) (by simp)
@[simp] theorem State.busLawful_pump (s : State) : s.pump.BusLawful ↔ s.BusLawful :=
  State.busLawful_congr (by simp) (by simp)
@[simp] theorem State.busLawful_showMessage (s : State) (m : Message) :
    (s.showMessage m).BusLawful ↔ s.BusLawful := State.busLawful_congr (by simp) (by simp)
@[simp] theorem State.busLawful_showOptional (s : State) (m : Option Message) :
    (s.showOptional m).BusLawful ↔ s.BusLawful := State.busLawful_congr (by simp) (by simp)
@[simp] theorem State.busLawful_panelOn (s : State) : s.panelOn.BusLawful ↔ s.BusLawful :=
  State.busLawful_congr rfl rfl
@[simp] theorem State.busLawful_tellKeyboard (s : State) : s.tellKeyboard.BusLawful ↔ s.BusLawful :=
  State.busLawful_congr rfl rfl
@[simp] theorem State.busLawful_startWrite (s : State) : s.startWrite.BusLawful ↔ s.BusLawful :=
  State.busLawful_congr (by simp) (by simp)
@[simp] theorem State.busLawful_markTapeDirty (s : State) :
    s.markTapeDirty.BusLawful ↔ s.BusLawful := State.busLawful_congr (by simp) (by simp)

@[simp] theorem State.BusLawful.settle {s : State} (h : s.BusLawful) : s.settle.BusLawful := by
  unfold State.settle
  split <;> simp [h]

@[simp] theorem State.BusLawful.ringOverflow {s : State} (h : s.BusLawful) :
    s.ringOverflow.BusLawful := by
  unfold State.ringOverflow
  split
  · exact h
  · split
    · exact .foldl (fun s w h => h.dropWord _ w.serial) _ (by simp [h])
    · exact h

@[simp] theorem State.BusLawful.commit {s : State} (h : s.BusLawful) (c : List Entry) :
    (s.commit c).BusLawful := by
  have closed : ((s.mapCurrent fun l => { l with state := .committed }).resegment
      s.lines.current.number).BusLawful := State.BusLawful.resegment (by simpa using h) _
  simp [State.commit, closed]

@[simp] theorem State.BusLawful.wrapCommit {s : State} (h : s.BusLawful) (r c : List Entry) :
    (s.wrapCommit r c).BusLawful := by
  simp [State.wrapCommit, h]

@[simp] theorem State.BusLawful.viewTo {s : State} (h : s.BusLawful) (d : Nat) :
    (s.viewTo d).BusLawful := by
  simp [State.viewTo, h]

@[simp] theorem State.BusLawful.relocated {s : State} (h : s.BusLawful) : s.relocated.BusLawful := by
  simp only [State.relocated]
  split <;> simp [h]

@[simp] theorem State.BusLawful.arbitrate {s : State} (h : s.BusLawful) : s.arbitrate.BusLawful := by
  obtain e | ⟨-, o, -, e, -⟩ := s.arbitrate_cases <;> rw [e]
  · exact h
  · exact h.setOwner o

@[simp] theorem State.BusLawful.releaseLine {s : State} (h : s.BusLawful) :
    s.releaseLine.BusLawful := (h.setOwner _).arbitrate

@[simp] theorem State.BusLawful.lapseLost {s : State} (h : s.BusLawful) : s.lapseLost.BusLawful := by
  have returned := h.relocated
  simp only [State.lapseLost]
  (repeat' split)
  · exact h
  · exact h.releaseLine
  · exact h
  · exact (h.commit []).releaseLine
  · exact returned.releaseLine
  · exact returned
  · exact (returned.commit []).releaseLine

@[simp] theorem State.BusLawful.afterKey {s : State} (h : s.BusLawful) (c : Bool) :
    (s.afterKey c).BusLawful := by
  unfold State.afterKey
  (repeat' split)
  · exact h.releaseLine
  · exact h.releaseLine
  · exact h.lapseLost
  · exact h.arbitrate

@[simp] theorem State.BusLawful.closeJob {s : State} (h : s.BusLawful) (n : SourceNo) :
    (s.closeJob n).BusLawful := by
  simp only [State.closeJob]
  repeat' split
  all_goals simp [h]

@[simp] theorem State.BusLawful.endJob {s : State} (h : s.BusLawful) (n : SourceNo) (i l : Nat) :
    (s.endJob n i l).BusLawful := by
  simp [State.endJob, h]

@[simp] theorem State.BusLawful.sourceLost {s : State} (h : s.BusLawful) (n : SourceNo) :
    (s.sourceLost n).BusLawful := by
  simp only [State.sourceLost]
  repeat' split
  all_goals simp [h]

/-! ### Keys -/

/-- The outcome of a key keeps the laws: the state it takes the key with, if it does, is lawful. -/
def KeyOutcome.BusLawful : KeyOutcome → Prop
  | .wait => True
  | .refuse _ => True
  | .take t _ => t.BusLawful

@[simp] theorem KeyOutcome.busLawful_wait : KeyOutcome.wait.BusLawful := trivial
@[simp] theorem KeyOutcome.busLawful_refuse (m : Option Message) : (KeyOutcome.refuse m).BusLawful :=
  trivial
@[simp] theorem KeyOutcome.busLawful_take (t : State) (b : Bool) :
    (KeyOutcome.take t b).BusLawful ↔ t.BusLawful := Iff.rfl

@[simp] theorem State.BusLawful.refuseKey {s : State} (h : s.BusLawful) (k : Keystroke)
    (m : Option Message) : (s.refuseKey k m).BusLawful := by
  simp only [State.refuseKey]
  split <;> simp [h]

theorem State.BusLawful.carryKey {s : State} (h : s.BusLawful) (k : Keystroke) {o : KeyOutcome}
    (ho : o.BusLawful) : (s.carryKey k o).BusLawful := by
  cases o with
  | wait => exact h
  | refuse m => exact h.refuseKey k m
  | take t b => exact ((KeyOutcome.busLawful_take t b).mp ho).afterKey b

/-- A key whose effect keeps the laws keeps them (R28 to R32). -/
theorem State.BusLawful.examineKey {s : State} (h : s.BusLawful) (ours : Nat → Bool)
    {act : Keystroke → State → KeyOutcome}
    (ha : ∀ k (t : State), t.BusLawful → (act k t).BusLawful) :
    (s.examineKey ours act).BusLawful := by
  have claimed (k : Keystroke) : (s.claimLine k).BusLawful := by
    unfold State.claimLine
    split <;> simp [h]
  unfold State.examineKey
  split
  · exact h
  · next k _ _ =>
    repeat' split
    · exact h
    · exact h.refuseKey _ _
    · exact h.refuseKey _ _
    · exact (claimed k).carryKey k (ha k _ (by simpa using claimed k))

/-! ### The effects of the keys -/

@[simp] theorem State.BusLawful.appendComposed {s : State} (h : s.BusLawful) (k : EntryKind)
    (a : Nat) (u : Bool) : (s.appendComposed k a u).BusLawful := by
  simp [State.appendComposed, State.cursorToEnd, h]

@[simp] theorem State.BusLawful.appendPrinted {s : State} (h : s.BusLawful) (e : Entry) :
    (s.appendPrinted e).BusLawful := by
  simp only [State.appendPrinted, State.markRest]
  split <;> simp [State.cursorToEnd, h]

@[simp] theorem State.BusLawful.wrapWith {s : State} (h : s.BusLawful) (k : EntryKind)
    (a : Nat) (u : Bool) : (s.wrapWith k a u).BusLawful := by
  simp [State.wrapWith, h]

@[simp] theorem State.BusLawful.wrapEmpty {s : State} (h : s.BusLawful) : s.wrapEmpty.BusLawful := by
  simp [State.wrapEmpty, h]

@[simp] theorem State.BusLawful.breakWith {s : State} (h : s.BusLawful) (k : EntryKind)
    (a : Nat) (u : Bool) : (s.breakWith k a u).BusLawful := by
  simp [State.breakWith, State.breakCommit, h]

@[simp] theorem State.BusLawful.appendDirect {s : State} (h : s.BusLawful) (k : EntryKind) (a : Nat) :
    (appendDirect k a s).BusLawful := by
  simp only [Machine.appendDirect]
  repeat' split
  all_goals simp [h]

@[simp] theorem State.BusLawful.appendHold {s : State} (h : s.BusLawful) (k : EntryKind) (a : Nat) :
    (appendHold k a s).BusLawful := by
  unfold Machine.appendHold
  repeat' split
  all_goals simp [h]

@[simp] theorem State.BusLawful.insertInHold {s : State} (h : s.BusLawful) (k : EntryKind) (a : Nat) :
    (insertInHold k a s).BusLawful := by
  simp only [Machine.insertInHold]
  repeat' split
  all_goals simp [h]

@[simp] theorem State.BusLawful.fillAtCursor {s : State} (h : s.BusLawful) (k : EntryKind) (a : Nat) :
    (fillAtCursor k a s).BusLawful := by
  simp only [Machine.fillAtCursor]
  repeat' split
  all_goals simp [h]

@[simp] theorem State.BusLawful.placeKey {s : State} (h : s.BusLawful) (k : EntryKind) (a : Nat) :
    (placeKey k a s).BusLawful := by
  unfold Machine.placeKey
  repeat' split
  all_goals simp [h]

@[simp] theorem State.BusLawful.placeTab {s : State} (h : s.BusLawful) : (placeTab s).BusLawful := by
  unfold Machine.placeTab
  repeat' split
  all_goals simp [h]

theorem State.BusLawful.moveCursor {s : State} (h : s.BusLawful) (c : Nat) :
    (s.moveCursor c).BusLawful := by
  unfold State.moveCursor
  repeat' split
  all_goals simp [h]

theorem State.BusLawful.actRelocate {s : State} (h : s.BusLawful) (k : Keystroke) :
    (actRelocate k s).BusLawful := by
  unfold Machine.actRelocate
  split <;> simp [h]

theorem State.BusLawful.actPaper {s : State} (h : s.BusLawful) (d : Int) (k : Keystroke) :
    (actPaper d k s).BusLawful := by
  unfold Machine.actPaper
  repeat' split
  all_goals simp [State.movePaper, h]

theorem State.BusLawful.actStopJob {s : State} (h : s.BusLawful) (k : Keystroke) :
    (actStopJob k s).BusLawful := by
  have stopped (n : SourceNo) (id : Nat) : (s.stopJob n id).BusLawful := by
    refine State.BusLawful.releaseLine (State.BusLawful.triggerReport ?_ _)
    split <;> simp [h]
  unfold Machine.actStopJob
  repeat' split
  all_goals simp [stopped]

theorem State.BusLawful.cleanLine {s : State} (h : s.BusLawful) (d : List Action) (n : Word) :
    (s.cleanLine d n).BusLawful := by
  unfold State.cleanLine
  repeat' split
  all_goals simp [h]

theorem State.BusLawful.restart {s : State} (h : s.BusLawful) : s.restart.BusLawful := by
  simp [State.restart, h]

theorem State.BusLawful.recover {s : State} (h : s.BusLawful) : s.recover.BusLawful := by
  have cleaned := State.BusLawful.foldl (fun (t : State) n h => h.cleanLine s.seq.queue n)
    (s.lines.ring.map (·.number) ++ [s.lines.current.number]) (s := s.discardQueue)
    (by simp [State.discardQueue, h])
  simp only [State.recover]
  split <;> exact State.BusLawful.restart (by simpa using cleaned)

theorem State.BusLawful.acceptEqual {s : State} (h : s.BusLawful) (form : List Nat) (l : Line) :
    (s.acceptEqual form l).BusLawful :=
  .foldl (fun s serial h => State.BusLawful.dropWord (by simpa using h) _ serial) _ h

theorem State.BusLawful.addForm {s : State} (h : s.BusLawful) (form : List Nat) :
    (s.addForm form).BusLawful := by
  have added : (s.mapSpell fun u => { u with userWords := u.userWords ++ [form] }).BusLawful :=
    h.of_same rfl rfl rfl rfl fun _ => rfl
  have accepted := State.BusLawful.foldl (fun (t : State) l h => h.acceptEqual form l)
    s.lines.newestFirst added
  simpa [State.addForm, State.markUserDirty] using accepted

theorem State.BusLawful.correct {s : State} (h : s.BusLawful) (reopen : Bool) (l : Line)
    (es : List Entry) : (s.correct reopen l es).BusLawful := by
  have withdrawn : (s.withdrawn reopen l es).BusLawful := by
    simp only [State.withdrawn, State.reopened]
    split <;> simp [h]
  simp only [State.correct]
  split <;> simp [withdrawn]

theorem State.BusLawful.actCorrection {s : State} (h : s.BusLawful) (choice : State → Choice) :
    (actCorrection choice s).BusLawful := by
  unfold Machine.actCorrection
  repeat' split
  all_goals simp [h.correct]

end Sys2Proof.Machine

namespace Sys2Proof.Machine

/-! ### The commands of the station bus -/

@[simp] theorem State.busLawful_answerWith (s : State) (a : AnswerCode) :
    (s.answerWith a).BusLawful ↔ s.BusLawful :=
  ⟨fun h => h.of_same rfl rfl rfl rfl fun _ => rfl, fun h => h.of_same rfl rfl rfl rfl fun _ => rfl⟩

theorem State.BusLawful.whenRunning {s : State} (h : s.BusLawful) {f : State → State}
    (hf : (f s).BusLawful) : (s.whenRunning f).BusLawful := by
  unfold State.whenRunning
  split
  · exact h
  · exact hf

theorem State.BusLawful.receive {s : State} (h : s.BusLawful) {f : State → State}
    (hf : (f s).BusLawful) : (s.receive f).BusLawful := by
  refine h.whenRunning ?_
  split
  · simpa using h
  · exact hf

@[simp] theorem Slot.isSending_stopExpiry (x : Slot) : x.stopExpiry.isSending = x.isSending := by
  cases x <;> rfl

/-- On the way into CONFLICT every frame leaves the queue (R14). -/
theorem State.enterConflict_busLawful (s : State) : s.enterConflict.BusLawful :=
  .of_counts (fun _ => ⟨rfl, rfl⟩) (Nat.zero_le _) (Nat.zero_le _) (Nat.zero_le _)
    fun _ => Nat.zero_le _

theorem State.BusLawful.frameSendStart {s : State} (h : s.BusLawful) (i : Nat)
    (hc : s.bus.conflict = false) : (s.mapBus fun b => { b with sending := some i }).BusLawful :=
  .of_counts (by simp [hc]) h.oneReport h.oneRoll h.oneSummary h.queries

/-- A frame that leaves the queue leaves no more of any kind. -/
theorem State.BusLawful.frameLeaves {s : State} (h : s.BusLawful) (i : Nat) :
    (s.mapBus fun b => { b with queue := b.queue.eraseIdx i, sending := none }).BusLawful := by
  have fewer (p : OutFrame → Bool) : (s.bus.queue.eraseIdx i).countP p ≤ s.bus.queue.countP p :=
    (List.eraseIdx_sublist _ _).countP_le
  exact .of_counts (fun hc => ⟨by simp [(h.silent hc).1], rfl⟩) ((fewer _).trans h.oneReport)
    ((fewer _).trans h.oneRoll) ((fewer _).trans h.oneSummary)
    fun tag => (fewer _).trans (h.queries tag)

/-- The one QUERY of a tag, once it has left the queue, has left none of that tag. -/
theorem State.BusLawful.queryLeaves {s : State} (h : s.BusLawful) {i : Nat} {d : StationNo}
    {tag : Fin 4} {letters : List Nat} (hi : s.bus.queue[i]? = some (.query d tag letters)) :
    (s.mapBus fun b => { b with queue := b.queue.eraseIdx i, sending := none }).notAsked tag := by
  have one : s.bus.queue.countP (OutFrame.asks tag) ≤ 1 :=
    (h.queries tag).trans (by split <;> omega)
  obtain ⟨hlt, hget⟩ := List.getElem?_eq_some_iff.mp hi
  have perm := (List.getElem_cons_eraseIdx_perm hlt).countP_eq (OutFrame.asks tag)
  rw [hget, List.countP_cons_of_pos (by simp [OutFrame.asks])] at perm
  simp only [State.notAsked, State.mapBus_bus]
  omega

/-- The opening of the window does not close it, nor does it open a closed one (R12). -/
theorem RollWindow.opening_closed (w : RollWindow) :
    (if w = .notOpen then RollWindow.opened else w) = .closed ↔ w = .closed := by
  cases w <;> decide

theorem State.BusLawful.afterSent {s : State} (h : s.BusLawful) (a : AnswerCode) {f : OutFrame}
    (hn : ∀ d tag letters, f = .query d tag letters → s.notAsked tag) :
    (s.afterSent a f).BusLawful := by
  cases f with
  | roll =>
    refine .of_counts h.silent h.oneReport h.oneRoll (h.oneSummary.trans (le_of_eq ?_)) h.queries
    simp [State.afterSent, RollWindow.opening_closed]
  | summary p => exact h
  | query d tag letters => exact h.queryOutcome (hn d tag letters rfl) d a
  | report r =>
    simp only [State.afterSent]
    split
    · exact h
    · exact State.BusLawful.triggerReport (s := s.mapBus fun b => { b with heldReport := none })
        (h.of_same rfl rfl rfl rfl fun _ => rfl) _

theorem State.BusLawful.startWake {s : State} (h : s.BusLawful) : s.startWake.BusLawful := by
  unfold State.startWake
  split <;> simp [h]

theorem State.BusLawful.offerKey {s : State} (h : s.BusLawful) (n : StationNo) (c r : Nat) :
    (s.offerKey n c r).2.BusLawful := by
  have taken (k : Keystroke) : (s.takeKeystroke k).BusLawful := by
    refine State.BusLawful.startWake ?_
    split <;> simp [h]
  unfold State.offerKey
  repeat' split
  all_goals simp [h, taken]

theorem State.BusLawful.holdBlock {s : State} (h : s.BusLawful) (n : SourceNo) (b : TextBlock) :
    (s.holdBlock n b).BusLawful :=
  State.BusLawful.startWake (State.BusLawful.arbitrate (by simpa using h))

theorem State.BusLawful.offerText {s : State} (h : s.BusLawful) (n : StationNo) (b : TextBlock) :
    (s.offerText n b).2.BusLawful := by
  simp only [State.offerText, State.offerBlock]
  repeat' split
  all_goals first
    | exact h
    | exact State.BusLawful.holdBlock (by simpa [State.jobAt] using h) _ _

theorem State.BusLawful.tellUsability {s : State} (h : s.BusLawful) (old : Bus) :
    (s.tellUsability old).BusLawful := by
  unfold State.tellUsability
  have told := (State.busLawful_tellKeyboard s).mpr h
  have lapsed := told.lapseLost
  dsimp only
  repeat' split
  all_goals simp [h, told, lapsed]

theorem State.BusLawful.takeRoll {s : State} (h : s.BusLawful) (n : StationNo) (k a b : Nat) :
    (s.takeRoll n k a b).BusLawful :=
  State.BusLawful.tellUsability ((State.busLawful_setStation _ _ _).mpr h) _

theorem State.BusLawful.leaveStarting {s : State} (h : s.BusLawful) : s.leaveStarting.BusLawful := by
  unfold State.leaveStarting
  repeat' split
  all_goals simp [h]

/-- The close of the window, which no SUMMARY has preceded, makes a place for the one SUMMARY (R16). -/
theorem State.BusLawful.closeRollCall {s : State} (h : s.BusLawful) (hw : s.bus.window = .opened) :
    s.closeRollCall.BusLawful := by
  have none : s.bus.queue.countP OutFrame.isSummary = 0 :=
    Nat.le_zero.mp (h.oneSummary.trans (by simp [hw]))
  have given : (s.mapBus Bus.giveRoles).BusLawful :=
    .of_counts h.silent h.oneReport h.oneRoll ((le_of_eq none).trans (Nat.zero_le _)) h.queries
  have told (p : List (StationNo × Nat)) :
      ((s.mapBus Bus.giveRoles).enqueueFrame (.summary p)).BusLawful := by
    unfold State.enqueueFrame
    split
    · exact given
    · next hc => exact given.append _ (by simpa using hc) nofun nofun (fun _ => ⟨rfl, none⟩) nofun
  refine State.BusLawful.leaveStarting ?_
  simp only [State.busLawful_mapSupply, State.busLawful_tellKeyboard]
  exact (told _).of_same rfl rfl rfl rfl fun _ => rfl

theorem Slot.expiring_not_sending {x : Slot} {q : Query} (h : x.expiring = some q) :
    x.isSending = false := by
  cases x with
  | free => rfl
  | asking p | discarded p =>
    simp only [Slot.expiring, Option.ite_none_right_eq_some] at h
    simp [Slot.isSending, h.1.1]

/-- An answer expiry runs in a slot whose QUERY has been sent (R169). -/
theorem State.BusLawful.answerExpires {s : State} (h : s.BusLawful) {tag : Fin 4} {q : Query}
    (hq : s.spell.slots[tag].expiring = some q) :
    (((s.setSlot tag s.spell.slots[tag].stopExpiry).countUnanswered q.station).queryEnded
      tag).BusLawful := by
  have hn := h.notAsked (Slot.expiring_not_sending hq)
  have stopped := h.setSlot hn s.spell.slots[tag].stopExpiry
  exact (stopped.countUnanswered _).queryEnded (by simpa [State.notAsked] using hn)

/-! ### Text, the mechanism, the supply and the starts -/

theorem State.BusLawful.textConsumed {s : State} (h : s.BusLawful) (n : SourceNo) (b : HeldBlock) :
    (s.textConsumed n b).BusLawful := by
  simp only [State.textConsumed]
  repeat' split
  all_goals simp [h]

theorem State.BusLawful.consumeText {s : State} (h : s.BusLawful) (ours : Nat → Bool)
    {act : SourceIntake → Nat → State → Option State}
    (ha : ∀ r c t, act r c s = some t → t.BusLawful) : (s.consumeText ours act).BusLawful := by
  unfold State.consumeText
  repeat' split
  all_goals first
    | exact h
    | next ht => exact (ha _ _ _ ht).textConsumed _ _

theorem State.BusLawful.composeText {s : State} (h : s.BusLawful) {k : EntryKind} {a : Nat} {u : Bool}
    {t : State} (ht : s.composeText k a u = some t) : t.BusLawful := by
  unfold State.composeText at ht
  repeat' split at ht
  all_goals
    cases ht
    try simp [h]

theorem State.BusLawful.textCharacter {s : State} (h : s.BusLawful) {r : SourceIntake} {c : Nat}
    {t : State} (ht : textCharacter r c s = some t) : t.BusLawful := by
  unfold Machine.textCharacter at ht
  split at ht
  · cases ht
  · split at ht
    · cases ht; exact h
    · split at ht <;> exact h.composeText ht

@[simp] theorem State.busLawful_headDone (s : State) (c p : Nat) :
    (s.headDone c p).BusLawful ↔ s.BusLawful := State.busLawful_congr rfl rfl

theorem State.BusLawful.countLift {s : State} (h : s.BusLawful) (b : Blow) :
    (s.countLift b).BusLawful := by
  have deleted {t : State} (ht : t.BusLawful) : (t.deleteLifted b.line b.entry).BusLawful := by
    simp only [State.deleteLifted]
    split <;> simp [ht]
  simp only [State.countLift]
  split
  · exact deleted (by simp [h])
  · simp [h]

@[simp] theorem State.BusLawful.endWake {s : State} (h : s.BusLawful) : s.endWake.BusLawful := by
  unfold State.endWake
  split <;> simp [h]

theorem State.BusLawful.homed {s : State} (h : s.BusLawful) (w : HomingWhy) : (s.homed w).BusLawful := by
  cases w with
  | start => exact State.BusLawful.leaveStarting (by simpa using h)
  | wake =>
    refine State.BusLawful.endWake ?_
    unfold State.wakeMove
    split <;> simp [h]
  | recovery | clear => exact h

theorem State.BusLawful.homingHalted {s : State} (h : s.BusLawful) (w : HomingWhy) :
    (s.homingHalted w).BusLawful := by
  cases w with
  | start => exact State.BusLawful.leaveStarting (by simpa using h)
  | wake => exact h.endWake
  | recovery | clear => exact h

theorem State.BusLawful.secondExpiry {s : State} (h : s.BusLawful) (w : Work) (p : Unsettled) :
    (s.secondExpiry w p).BusLawful := by
  have halted (c : HaltCause) : (s.halt c).BusLawful := by simp [State.halt, h]
  simp only [State.secondExpiry]
  split
  · exact (halted _).homingHalted _
  · exact halted _

theorem State.BusLawful.coverClosed {s : State} (h : s.BusLawful) : s.coverClosed.BusLawful := by
  simp only [State.coverClosed]
  split <;> simp [h]

/-- The frames of a fresh controller are none (R202). -/
theorem State.fresh_busLawful (s : State) (c : StartCause) (t : Straps) : (s.fresh c t).BusLawful :=
  .of_counts (fun _ => ⟨rfl, rfl⟩) (Nat.zero_le _) (Nat.zero_le _) (Nat.zero_le _)
    fun _ => Nat.zero_le _

@[simp] theorem State.busLawful_load (s : State) : s.load.BusLawful ↔ s.BusLawful :=
  State.busLawful_congr rfl rfl

/-- The roll call begins with the ROLL and one REPORT as the only frames (R12). -/
theorem State.BusLawful.beginStart {s : State} (h : s.BusLawful) : s.beginStart.BusLawful := by
  refine State.BusLawful.startHoming ?_ _
  unfold State.beginRollCall
  split
  · exact h
  · next hc =>
    refine .of_counts (fun k => absurd k hc) ?_ ?_ ?_ fun tag => ?_
    all_goals simp [OutFrame.isReport, OutFrame.isSummary, OutFrame.asks]

theorem State.start_busLawful (s : State) (c : StartCause) (t : Straps) : (s.start c t).BusLawful := by
  have fresh := s.fresh_busLawful c t
  simp only [State.start]
  split
  · simpa using fresh
  · exact State.BusLawful.beginStart (by simpa using fresh)

@[simp] theorem State.BusLawful.release {s : State} (h : s.BusLawful) : s.release.BusLawful :=
  .of_counts (fun hc => ⟨(h.silent hc).1, rfl⟩) h.oneReport h.oneRoll h.oneSummary h.queries

theorem State.BusLawful.resume {s : State} (h : s.BusLawful) : s.resume.BusLawful := by
  unfold State.resume
  split
  · exact h.leaveStarting
  · split <;> simp [h]
  · exact h

end Sys2Proof.Machine

namespace Sys2Proof.Machine

/-- Every command keeps the laws of the bus. -/
theorem State.BusLawful.exec {s t : State} (h : s.BusLawful) (c : Instr) (e : exec c s = .next t) :
    t.BusLawful := by
  have key {ours : Nat → Bool} {act : Keystroke → State → KeyOutcome}
      (ha : ∀ k (u : State), u.BusLawful → (act k u).BusLawful)
      (e : Host.Outcome.next (s.examineKey ours act) =
        (.next t : Host.Outcome State Fault Refusal)) : t.BusLawful := by
    cases e; exact h.examineKey ours ha
  have running {f : State → State} (hf : (f s).BusLawful)
      (e : Host.Outcome.next (s.whenRunning f) = (.next t : Host.Outcome State Fault Refusal)) :
      t.BusLawful := by
    cases e; exact h.whenRunning hf
  have received {f : State → State} (hf : (f s).BusLawful)
      (e : Host.Outcome.next (s.receive f) = (.next t : Host.Outcome State Fault Refusal)) :
      t.BusLawful := by
    cases e; exact h.receive hf
  have discarded {bytes : List Byte} {c : Instr} {a : AnswerCode}
      (e : Host.Outcome.next (s.received bytes c a) = (.next t : Host.Outcome State Fault Refusal)) :
      t.BusLawful := received (by split <;> simp [h]) e
  have text {ours : Nat → Bool} {act : SourceIntake → Nat → State → Option State}
      (ha : ∀ r c u, act r c s = some u → u.BusLawful)
      (e : Host.Outcome.next (s.consumeText ours act) =
        (.next t : Host.Outcome State Fault Refusal)) : t.BusLawful := by
    cases e; exact h.consumeText ours ha
  cases c with
  | frameSendStart position =>
    refine running ?_ e
    split
    · exact h
    · next hc =>
      have sent (i : Nat) := h.frameSendStart i (by simpa using (not_or.mp hc).1)
      (repeat' split) <;> first | exact h | exact sent _
  | frameSent outcome =>
    refine running ?_ e
    split
    · exact h
    · split
      · exact h
      · next f hf =>
        refine (h.frameLeaves _).afterSent outcome ?_
        rintro d tag letters rfl
        exact h.queryLeaves hf
  | sendMismatch =>
    refine running ?_ e
    split
    · exact s.enterConflict_busLawful
    · exact h
  | frameCheckFailed bytes => exact discarded e
  | refusedFrame bytes => exact discarded e
  | discardedBroadcast bytes => exact discarded e
  | queryLeftToDictionary bytes => exact discarded e
  | key n c r => exact received ((State.busLawful_answerWith _ _).mpr (h.offerKey n c r)) e
  | text n b => exact received ((State.busLawful_answerWith _ _).mpr (h.offerText n b)) e
  | answer n tag v =>
    refine received ((State.busLawful_answerWith _ _).mpr ?_) e
    split
    · exact h.offerAnswer n _ v
    · exact h
  | roll n k a b =>
    have answered := (s.busLawful_answerWith .absent).mpr h
    refine received ?_ e
    dsimp only
    split
    · exact State.enterConflict_busLawful _
    · split
      · exact answered.takeRoll n k a b
      · exact answered
  | rollWindowClose =>
    refine running ?_ e
    split
    · next hw => exact h.closeRollCall hw
    · exact h
  | answerExpiry tag =>
    refine running ?_ e
    split
    · exact h
    · next q hq => exact h.answerExpires hq
  | returnKey => exact key (fun k u hu => by
      unfold actReturn; (repeat' split) <;> simp [State.returnCommit, hu]) e
  | tab => exact key (fun k u hu => hu.placeTab) e
  | backspace => exact key (fun k u hu => by
      unfold actBackspace; split <;> simp [hu.moveCursor]) e
  | cursorRight => exact key (fun k u hu => by
      unfold actCursorRight; split <;> simp [hu.moveCursor]) e
  | lineUp => exact key (fun k u hu => by
      unfold actLineUp; (repeat' split) <;> simp [hu]) e
  | lineDown => exact key (fun k u hu => by
      unfold actLineDown; (repeat' split) <;> simp [hu]) e
  | relocate => exact key (fun k u hu => hu.actRelocate k) e
  | halfSpace => exact key (fun k u hu => by unfold actHalfSpace; split <;> simp [hu]) e
  | space => exact key (fun k u hu => by unfold actSpace; split <;> simp [hu]) e
  | printingCharacter => exact key (fun k u hu => by unfold actCharacter; split <;> simp [hu]) e
  | correct | wordCorrect | spellCorrect => exact key (fun k u hu => hu.actCorrection _) e
  | marginRelease | clearAllTabs | justify | bold | underline | impression | lineSpacing =>
    exact key (fun k u hu => by simpa [takeAlways] using hu) e
  | spell =>
    refine key (fun k u hu => ?_) e
    exact hu.of_same (t := u.mapSpell fun v => { v with isOn := !v.isOn }) rfl rfl rfl rfl fun _ => rfl
  | setLeftMargin => exact key (fun k u hu => by
      simp only [actSetLeftMargin]; split <;> simp [hu]) e
  | setRightMargin => exact key (fun k u hu => by
      simp only [actSetRightMargin]; split <;> simp [hu]) e
  | setTab => exact key (fun k u hu => by
      simp only [actSetTab]; (repeat' split) <;> simp [hu]) e
  | clearTab => exact key (fun k u hu => by simp only [actClearTab]; split <;> simp [hu]) e
  | hold => exact key (fun k u hu => by
      unfold actHold; split <;> simp [State.toggleHold, hu]) e
  | addWord => exact key (fun k u hu => by
      unfold actAddWord; (repeat' split) <;> simp [hu.addForm]) e
  | storeSettings => exact key (fun k u hu => by simpa [takeAlways] using hu) e
  | paperUp | paperDown => exact key (fun k u hu => hu.actPaper _ k) e
  | stopJob => exact key (fun k u hu => hu.actStopJob k) e
  | clear => exact key (fun k u hu => by
      unfold actClear; split <;> simp [hu.recover, hu.actRelocate]) e
  | tone => exact key (fun k u hu => by simpa [takeAlways, State.toggleSilence] using hu) e
  | textCharacter => exact text (fun r c u hu => h.textCharacter hu) e
  | textReturn =>
    refine text (fun r c u hu => ?_) e
    split at hu
    · cases hu
    · cases hu; simp [State.returnCommit, h]
  | textTab =>
    refine text (fun r c u hu => ?_) e
    split at hu
    · cases hu
    · exact h.composeText hu
  | textHalfSpace =>
    refine text (fun r c u hu => ?_) e
    split at hu
    · cases hu
    · exact h.composeText hu
  | textBold | textUnderline =>
    refine text (fun r c u hu => ?_) e
    cases hu
    unfold State.mapOwnerSource
    split <;> simp [h]
  | jobIdleExpiry n =>
    refine running ?_ e
    dsimp only
    (repeat' split) <;> simp [h]
  | jobClose => exact running ((h.closeJob _).closeJob _) e
  | keyboardLapse =>
    refine running ?_ e
    (repeat' split) <;> simp [h]
  | strikeComplete =>
    refine running ?_ e
    split <;> simp [State.countStrike, h]
  | liftComplete =>
    refine running ?_ e
    split
    · exact State.BusLawful.settle (State.BusLawful.countLift (by simpa using h) _)
    · exact h
  | moveComplete | feedComplete =>
    refine running ?_ e
    split <;> simp [h]
  | homingComplete code =>
    refine running ?_ e
    split
    · exact State.BusLawful.settle (State.BusLawful.homed (by simpa [State.wheelRead] using h) _)
    · exact h
  | wheelReadComplete code =>
    refine running ?_ e
    split <;> simp [State.wheelRead, h]
  | actionLimitExpiry parts =>
    refine running ?_ e
    split
    · exact h
    · split
      · exact h.secondExpiry _ _
      · simp [State.firstExpiry, h]
  | coverOpen =>
    cases e
    split <;> simp [State.coverOpened, h]
  | coverClose =>
    cases e
    split
    · exact State.BusLawful.coverClosed (by simpa using h)
    · simpa using h
  | ribbonKindChange kind =>
    cases e
    split <;> simp [h]
  | tapeNew =>
    cases e
    (repeat' split) <;> simp [h]
  | messageTimeExpiry => exact running (by simpa [State.endMessage] using h) e
  | blink | tonePatternEnd => exact running (by simpa using h) e
  | storeWriteComplete =>
    cases e
    split
    · dsimp only
      split
      · simpa using h
      · split
        · exact (State.busLawful_startWrite _).mpr (State.BusLawful.beginStart (by simpa using h))
        · simpa using h
    · refine h.whenRunning ?_
      split <;> simp [h]
  | supplyWarning =>
    refine running ?_ e
    split <;> simp [h]
  | supplyRecovery =>
    refine running ?_ e
    split
    · exact State.BusLawful.examineHead (State.BusLawful.resume (by simp [h]))
    · exact h
  | supplyReset => cases e; simp [h]
  | resetAsserted => cases e; simp [State.leaveWrite, h]
  | coldStart straps | lineStart straps =>
    cases e
    split
    · simpa using h
    · exact State.start_busLawful _ _ _
  | standbyIdleExpiry =>
    cases e
    split <;> simp [State.enterStandby, h]

/-- Settles O59: the command at the front of the queue keeps the laws, which do not speak of the queue. -/
theorem stepKeepsBusLaws : Obligations.StepKeepsBusLaws := by
  intro s t h e
  unfold step at e
  split at e
  · cases e; exact h
  · next c rest _ =>
    have h' : ({ s with pending := rest } : State).BusLawful := h.of_same rfl rfl rfl rfl fun _ => rfl
    exact h'.exec c e

end Sys2Proof.Machine

namespace Sys2Proof.Machine

/-! ### Frames written and read (R4 to R6) -/

theorem header0_toNat {kind cls : Nat} (hk : kind < 16) (hc : cls < 4) (b : Bool) :
    (header0 kind cls b).toNat = kind * 16 + cls * 4 + if b then 2 else 0 := by
  have : kind * 16 + cls * 4 + (if b then 2 else 0) < 256 := by split <;> omega
  simp [header0, Nat.mod_eq_of_lt this]

/-- The broadcast flag and the spare bit of header byte 0 (R5). -/
theorem header0_bits {kind cls : Nat} (hk : kind < 16) (hc : cls < 4) (b : Bool) :
    (header0 kind cls b).getLsbD 1 = b ∧ (header0 kind cls b).getLsbD 0 = false := by
  simp only [BitVec.getLsbD, header0_toNat hk hc, Nat.testBit_eq_decide_div_mod_eq]
  cases b <;> simp <;> omega

/-- Header byte 1 holds the two station numbers, and its spare bits are 0 (R5). -/
theorem header1_fields (source dest : StationNo) :
    (header1 source dest).toNat / 32 = source.val ∧ (header1 source dest).toNat / 4 % 8 = dest.val ∧
      (header1 source dest).getLsbD 1 = false ∧ (header1 source dest).getLsbD 0 = false := by
  revert source dest
  decide

theorem toNat_ofNat_bytes {payload : List Nat} (h : ∀ x ∈ payload, x < 256) :
    (payload.map (BitVec.ofNat 8)).map BitVec.toNat = payload := by
  rw [List.map_map]
  conv_rhs => rw [← List.map_id payload]
  exact List.map_congr_left fun x hx => by simp [Nat.mod_eq_of_lt (h x hx)]

/-- A frame that is written is read with all its fields (R4 to R6). -/
theorem readFrame_writeFrame {kind cls : Nat} (hk : kind < 16) (hc : cls < 4) (b : Bool)
    (source dest : StationNo) {payload : List Nat} (hl : payload.length ≤ 28)
    (hp : ∀ x ∈ payload, x < 256) :
    readFrame (writeFrame kind cls b source dest 0 payload) =
      some ⟨kind, cls, b, false, source, dest, 0, payload⟩ := by
  obtain ⟨hs, hd, h1, h0⟩ := header1_fields source dest
  obtain ⟨hb, hsp⟩ := header0_bits hk hc b
  have hlen : (BitVec.ofNat 8 payload.length).toNat = payload.length := by
    simp [Nat.mod_eq_of_lt (show payload.length < 256 by omega)]
  have htake : (payload.map (BitVec.ofNat 8) ++ [crc8 (header0 kind cls b :: header1 source dest ::
      BitVec.ofNat 8 0 :: BitVec.ofNat 8 payload.length :: payload.map (BitVec.ofNat 8))]).take
        payload.length = payload.map (BitVec.ofNat 8) := by
    rw [List.take_append_of_le_length (by simp)]; simp
  simp only [writeFrame, List.cons_append, readFrame, hlen, htake, toNat_ofNat_bytes hp, hs, hd, h1,
    h0, hb, hsp, header0_toNat hk hc]
  have hkind : (kind * 16 + cls * 4 + if b = true then 2 else 0) / 16 = kind := by split <;> omega
  have hcls : (kind * 16 + cls * 4 + if b = true then 2 else 0) / 4 % 4 = cls := by split <;> omega
  simp [hl, hkind, hcls]

/-- The flags byte of a TEXT holds its two flags (R5). -/
theorem textBlockOf_textPayload (b : TextBlock) : textBlockOf (textPayload b) = some b := by
  obtain ⟨job, seq, first, last, codes⟩ := b
  cases first <;> cases last <;> simp [textBlockOf, textPayload]

/-- Settles O3: by the kind of the frame. -/
theorem framesReadBack : Obligations.FramesReadBack := by
  intro own c bytes hw hf
  cases c with
  | key sender code flag =>
    cases hf
    have h : keyFieldsOk code flag = true := hw
    have range := h
    simp only [keyFieldsOk, Bool.and_eq_true, decide_eq_true_eq] at range
    rw [commandOfFrame, readFrame_writeFrame (by decide) (by decide) _ _ _ (by simp)
      (by simp; omega)]
    simp [isOwnRoll, readAddressed, classOfKind, readFields, h]
  | text sender b =>
    cases hf
    have h : textFieldsOk b = true := hw
    have range := h
    simp only [textFieldsOk, Bool.and_eq_true, decide_eq_true_eq, List.all_eq_true] at range
    obtain ⟨⟨⟨⟨⟨-, hjob⟩, hseq⟩, -⟩, hlen⟩, hcodes⟩ := range
    have bytes : ∀ x ∈ textPayload b, x < 256 := by
      have flags : (if b.first = true then 1 else 0) + (if b.last = true then 2 else 0) < 256 := by
        split <;> split <;> omega
      simp only [textPayload, List.mem_cons]
      rintro x (rfl | rfl | rfl | hx)
      · omega
      · omega
      · exact flags
      · have := hcodes x hx; omega
    rw [commandOfFrame, readFrame_writeFrame (by decide) (by decide) _ _ _
      (by simp [textPayload]; omega) bytes]
    simp [isOwnRoll, readAddressed, classOfKind, readFields, textBlockOf_textPayload, h]
  | answer sender tag verdict =>
    cases hf
    have h : answerFieldsOk tag verdict = true := hw
    have range := h
    simp only [answerFieldsOk, Bool.and_eq_true, decide_eq_true_eq] at range
    rw [commandOfFrame, readFrame_writeFrame (by decide) (by decide) _ _ _ (by simp)
      (by simp; omega)]
    simp [isOwnRoll, readAddressed, classOfKind, readFields, h]
  | roll sender kind first second =>
    cases hf
    have bytes : kind < 256 ∧ first < 256 ∧ second < 256 ∧
        (sender ≠ own → rollFieldsOk kind first second = true) := by
      simp only [Instr.wellFormed] at hw
      split at hw
      · next h => simp_all
      · refine ⟨?_, ?_, ?_, fun _ => hw⟩ <;>
          (unfold rollFieldsOk at hw; split at hw <;> simp at hw <;> omega)
    obtain ⟨hk, hf, hs, hr⟩ := bytes
    rw [commandOfFrame, readFrame_writeFrame (by decide) (by decide) _ _ _ (by simp)
      (by simp; omega)]
    by_cases ho : sender = own
    · simp [readRoll, ho]
    · simp [readRoll, ho, hr ho]
  | _ => cases hf

/-! ### The command that received bytes are (R6 to R10) -/

theorem readFrame_payload {bytes : List Byte} {f : RxFrame} (h : readFrame bytes = some f) :
    ∀ x ∈ f.payload, x < 256 := by
  unfold readFrame at h
  split at h
  · dsimp only at h
    split at h
    · cases h
      simp only [List.mem_map]
      rintro x ⟨b, -, rfl⟩
      exact b.isLt
    · cases h
  · cases h

theorem getD_lt {l : List Nat} (h : ∀ x ∈ l, x < 256) (i : Nat) : l.getD i 0 < 256 := by
  by_cases hi : i < l.length
  · rw [List.getD_eq_getElem _ _ hi]; exact h _ (List.getElem_mem hi)
  · rw [List.getD_eq_default _ _ (by omega)]; omega

theorem readRoll_wellFormed {own : StationNo} {f : RxFrame} (h : ∀ x ∈ f.payload, x < 256) {c : Instr}
    (hc : readRoll own f = some c) : c.wellFormed own = true := by
  unfold readRoll at hc
  split at hc
  · cases hc
  · split at hc
    · next ho =>
      cases hc
      simpa [Instr.wellFormed, ho] using ⟨⟨getD_lt h 0, getD_lt h 1⟩, getD_lt h 2⟩
    · next ho =>
      repeat' split at hc
      all_goals
        cases hc
        try simpa [Instr.wellFormed, ho]

theorem readAddressed_wellFormed {own : StationNo} {f : RxFrame} {c : Instr}
    (hc : readAddressed own f = some c) : c.wellFormed own = true := by
  unfold readAddressed readFields at hc
  repeat' split at hc
  all_goals
    cases hc
    try assumption

/-- Settles O4: a command that is read has passed the conditions on its fields, and any other names the bytes
that make it. -/
theorem readCommandsAreWellFormed : Obligations.ReadCommandsAreWellFormed := by
  intro own bytes
  generalize hc : commandOfFrame own bytes = c
  have named := hc
  unfold commandOfFrame at hc
  split at hc
  · subst hc; simpa [Instr.wellFormed] using named
  · next f hf =>
    split at hc
    · cases hr : readRoll own f with
      | none => simp only [hr, Option.getD_none] at hc; subst hc; simpa [Instr.wellFormed] using named
      | some c' =>
        simp only [hr, Option.getD_some] at hc; subst hc
        exact readRoll_wellFormed (readFrame_payload hf) hr
    · split at hc
      · subst hc; simpa [Instr.wellFormed] using named
      · cases hr : readAddressed own f with
        | none => simp only [hr, Option.getD_none] at hc; subst hc; simpa [Instr.wellFormed] using named
        | some c' =>
          simp only [hr, Option.getD_some] at hc; subst hc
          exact readAddressed_wellFormed hr

end Sys2Proof.Machine

namespace Sys2Proof.Machine

/-! ### Which frames are refused (R8) -/

theorem readFields_key_eq_none {f : RxFrame} (h : f.kind = 3) : readFields f = none ↔ f.tag ≠ 0 ∨
    ¬ ∃ code flag, f.payload = [code, flag] ∧ 1 ≤ code ∧ code ≤ 159 ∧ flag ≤ 1 := by
  simp only [readFields, h]
  split
  · next ht => simp [ht]
  · next ht =>
    split
    · next code flag hp => simp [ht, hp, keyFieldsOk, and_assoc]
    · next hp => simpa [ht] using fun code flag h => absurd h (hp code flag)

theorem readFields_text_eq_none {f : RxFrame} (h : f.kind = 4) : readFields f = none ↔ f.tag ≠ 0 ∨
    ¬ ∃ job seq flags codes, f.payload = job :: seq :: flags :: codes ∧
      1 ≤ job ∧ job ≤ 255 ∧ seq ≤ 255 ∧ flags ≤ 3 ∧ 1 ≤ codes.length ∧ codes.length ≤ 16 ∧
      ∀ c ∈ codes, c ≤ 255 := by
  simp only [readFields, h]
  split
  · next ht => simp [ht]
  · next ht =>
    unfold textBlockOf
    split
    · next b hb =>
      split at hb
      · next job seq flags codes hp =>
        split at hb
        · next hf => cases hb; simp [ht, hp, textFieldsOk, and_assoc, hf]
        · cases hb
      · cases hb
    · next hb =>
      split at hb
      · next job seq flags codes hp =>
        split at hb
        · cases hb
        · next hf => simp [ht, hp, hf]
      · next hp =>
        simpa [ht] using fun job seq flags codes h => absurd h (hp job seq flags codes)

theorem readFields_answer_eq_none {f : RxFrame} (h : f.kind = 6) : readFields f = none ↔ f.tag ≠ 0 ∨
    ¬ ∃ tag verdict, f.payload = [tag, verdict] ∧ tag ≤ 3 ∧ 1 ≤ verdict ∧ verdict ≤ 3 := by
  simp only [readFields, h]
  split
  · next ht => simp [ht]
  · next ht =>
    split
    · next tag verdict hp => simp [ht, hp, answerFieldsOk, and_assoc]
    · next hp => simpa [ht] using fun tag verdict h => absurd h (hp tag verdict)

/-- Settles O5: the conditions before the fields are `readAddressed`'s own; the fields are read kind by
kind, and of the kinds 0 to 7 only KEY, TEXT and ANSWER are left for that. -/
theorem refusedFrameConditions : Obligations.RefusedFrameConditions := by
  intro own f _
  unfold readAddressed
  split
  · next h => simp [h]
  split
  · next h => rcases h with h | h <;> simp [h]
  split
  · next h => simp [h]
  split
  · next h => rcases h with h | h | h | h <;> simp [h]
  next hspare hkind hdest hother =>
  have kinds : f.kind = 3 ∨ f.kind = 4 ∨ f.kind = 6 := by omega
  rcases kinds with k | k | k
  · by_cases hc : f.cls = 0 <;>
      simp [k, hc, classOfKind, hspare, hdest, readFields_key_eq_none k]
  · by_cases hc : f.cls = 2 <;>
      simp [k, hc, classOfKind, hspare, hdest, readFields_text_eq_none k]
  · by_cases hc : f.cls = 1 <;>
      simp [k, hc, classOfKind, hspare, hdest, readFields_answer_eq_none k]

end Sys2Proof.Machine

namespace Sys2Proof.Machine

/-! ### A running controller, and frames received -/

theorem State.whenRunning_eq {s : State} (h : s.stopped = false) (f : State → State) :
    s.whenRunning f = f s := by simp [State.whenRunning, h]

theorem State.whenRunning_stopped {s : State} (h : s.stopped = true) (f : State → State) :
    s.whenRunning f = s := by simp [State.whenRunning, h]

theorem State.receive_eq {s : State} (h : s.stopped = false) (hc : s.bus.conflict = false)
    (f : State → State) : s.receive f = f s := by
  simp [State.receive, State.whenRunning, h, hc]

/-- In CONFLICT a frame is discarded in silence (R7, R14). -/
theorem State.receive_conflict {s : State} (h : s.stopped = false) (hc : s.bus.conflict = true)
    (f : State → State) : s.receive f = s.answerWith .absent := by
  simp [State.receive, State.whenRunning, h, hc]

/-- Settles O9: bytes that are the row's own command get the row's answer. -/
theorem framesForNoUnit : Obligations.FramesForNoUnit := by
  intro s bytes hr hc u
  have own {c : Instr} (a : AnswerCode) (h : commandOfFrame s.bus.own bytes = c) :
      s.received bytes c a = u a := by
    rw [State.received, State.receive_eq hr hc, if_pos h]; rfl
  exact ⟨fun h => congrArg _ (own .absent h), fun h => congrArg _ (own .refused h),
    fun h => congrArg _ (own .absent h), fun h => congrArg _ (own .absent h)⟩

/-- Settles O8: both ways in are `enterConflict`, and every frame received after it meets the one test of
`receive`. -/
theorem conflictIsSilent : Obligations.ConflictIsSilent := by
  refine ⟨fun s kind first second hr => ⟨fun hs => ?_, fun hc => ?_⟩, fun s hr hc => ?_⟩
  · simp only [exec, execSendMismatch, State.whenRunning_eq hr, hs, if_true]; rfl
  · simp only [exec, execRoll, State.receive_eq hr hc, State.answerWith, State.mapBus, if_true]
    rfl
  · have silent (f : State → State) : s.receive f =
        { s with bus := { s.bus with answer := .absent } } := State.receive_conflict hr hc f
    refine ⟨fun _ => congrArg _ (silent _), fun _ _ _ => congrArg _ (silent _),
      fun _ _ => congrArg _ (silent _), fun _ _ _ => congrArg _ (silent _),
      fun _ _ _ _ => congrArg _ (silent _), fun _ => congrArg _ (silent _),
      fun _ => congrArg _ (silent _), fun _ => congrArg _ (silent _), fun _ => ?_, fun c => ?_,
      fun f => ?_⟩
    · simp only [exec, execFrameSendStart, State.whenRunning_eq hr, hc, true_or, if_true]
    · simp [State.triggerReport, hc]
    · simp [State.enqueueFrame, hc]

/-! ### Sending (R2, R3) -/

theorem OutFrame.cls_cases (f : OutFrame) : f.cls = 0 ∨ f.cls = 1 ∨ f.cls = 3 := by
  cases f <;> simp [OutFrame.cls]

/-- The first frame of the lowest class is the frame on offer (R2). -/
theorem frameOnOffer_eq_some {queue : List OutFrame} {i : Nat} {f : OutFrame} (hi : queue[i]? = some f)
    (first : ∀ j g, queue[j]? = some g → f.cls ≤ g.cls ∧ (g.cls = f.cls → i ≤ j)) :
    frameOnOffer queue = some i := by
  have found : queue.findIdx? (·.cls == f.cls) = some i := by
    obtain ⟨hlt, hget⟩ := List.getElem?_eq_some_iff.mp hi
    refine List.findIdx?_eq_some_iff_getElem.mpr ⟨hlt, by simp [hget], fun j hj => ?_⟩
    have := (first j _ (List.getElem?_eq_getElem (by omega))).2
    simp only [Bool.not_eq_true, beq_eq_false_iff_ne]
    exact fun h => absurd (this h) (by omega)
  have lower {c : Nat} (hc : c < f.cls) : queue.findIdx? (·.cls == c) = none := by
    refine List.findIdx?_eq_none_iff.mpr fun g hg => ?_
    obtain ⟨j, hj⟩ := List.mem_iff_getElem?.mp hg
    have := (first j g hj).1
    simp only [beq_eq_false_iff_ne]
    omega
  unfold frameOnOffer
  rcases f.cls_cases with h | h | h <;> rw [h] at found lower
  · simp [found]
  · simp [found, lower]
  · simp [found, lower]

theorem frameWait_injective {c d : Nat} {m n : StationNo} (h : frameWait c m = frameWait d n) :
    c = d ∧ m = n := by
  simp only [frameWait] at h
  exact ⟨by omega, by ext; omega⟩

theorem queuedReport_eq_none {q : List OutFrame} (h : ∀ f ∈ q, f.isReport = false) :
    queuedReport q = none := by
  cases hq : queuedReport q with
  | none => rfl
  | some p =>
    obtain ⟨before, after, rfl, -, -⟩ := queuedReport_some hq
    exact absurd (h (.report p.2) (by simp)) nofun

/-- The first trigger with no REPORT queued makes one at the newest end (R22). -/
theorem State.triggerReport_of_none {s : State} (hc : s.bus.conflict = false)
    (hq : ∀ f ∈ s.bus.queue, f.isReport = false) (c : ReportCause) :
    s.triggerReport c = s.mapBus fun b => { b with queue := b.queue ++ [.report (s.buildReport c none)] } := by
  simp [State.triggerReport, hc, queuedReport_eq_none hq]

/-- A frame that has been sent leaves the queue, and what follows is `afterSent` (R3). -/
theorem exec_frameSent {s : State} {i : Nat} {f : OutFrame} (hr : s.stopped = false)
    (hs : s.bus.sending = some i) (hi : s.bus.queue[i]? = some f) (outcome : AnswerCode) :
    exec (.frameSent outcome) s = .next ((s.mapBus fun b =>
      { b with queue := b.queue.eraseIdx i, sending := none }).afterSent outcome f) := by
  simp only [exec, execFrameSent, State.whenRunning_eq hr, hs, hi]

/-- Settles O6: the frame on offer has the one wait of its class and station. -/
theorem framesAreSent : Obligations.FramesAreSent := by
  refine ⟨⟨fun s position i f hr hc hs hi first => ?_, fun c d m n _ _ h => frameWait_injective h⟩, ?_⟩
  · simp only [exec, execFrameSendStart, State.whenRunning_eq hr, hc, hs,
      frameOnOffer_eq_some hi first, hi, frameWait, eq_comm (b := position)]
    simp [State.mapBus, ← hc]
  · intro s i f outcome hr hs hi b
    rw [exec_frameSent hr hs hi]
    refine ⟨?_, ?_, ?_, ?_⟩
    · rintro rfl; rfl
    · rintro pairs rfl; rfl
    · rintro r rfl hh; simp [State.afterSent, hh, State.mapBus, b]
    · rintro r c rfl hh hc hq
      simp only [State.afterSent, State.mapBus_bus, hh]
      rw [State.triggerReport_of_none (by simpa using hc) (by simpa using hq)]
      rfl

end Sys2Proof.Machine

namespace Sys2Proof.Machine

/-! ### Queries and their outcomes (R20, R165 to R175) -/

/-- A slot that takes a word for a held role asks the station that holds it (R167). -/
theorem State.slotTakes_eq_asks {s : State} (hc : s.bus.conflict = false) {role : DictRole}
    {station : StationNo} (hs : s.bus.holder role.role = some station) (tag : Fin 4)
    (line serial : Word) (already : Option DictRole) : s.slotTakes tag line serial role already =
      s.asks tag ⟨line, serial, station, role, already, .sending, false⟩ := by
  have hc' : (((s.setSlot tag (.asking ⟨line, serial, station, role, already, .sending, false⟩)).setWord
      line serial .asking (some tag))).bus.conflict = false := hc
  simp only [State.slotTakes, hs, Option.getD_some, State.enqueueFrame, hc']
  rfl

/-- The record of a station asked in vain (R20). -/
def Station.unansweredOnce (r : Station) : Station :=
  { r with
    unanswered := min 2 (r.unanswered + 1)
    status := if 1 ≤ r.unanswered then .lost else r.status }

theorem State.countUnanswered_eq (s : State) (n : StationNo) : s.countUnanswered n =
    if s.bus.table[n].role = some .primary ∨ s.bus.table[n].role = some .secondary then
      { s with bus := { s.bus with table := s.bus.table.set n s.bus.table[n].unansweredOnce } }
    else s := by
  have two (k : Nat) : min 2 (k + 1) = 2 ↔ 1 ≤ k := by omega
  simp only [State.countUnanswered, two]
  rfl

@[simp] theorem State.countUnanswered_conflict (s : State) (n : StationNo) :
    (s.countUnanswered n).bus.conflict = s.bus.conflict := by
  rw [State.countUnanswered_eq]; split <;> rfl

/-- Only the record asked changes, and only while it holds a dictionary role. -/
theorem State.countUnanswered_table (s : State) (n : StationNo) :
    (s.countUnanswered n).bus.table =
      if s.bus.table[n].role = some .primary ∨ s.bus.table[n].role = some .secondary then
        s.bus.table.set n s.bus.table[n].unansweredOnce
      else s.bus.table := by
  rw [State.countUnanswered_eq]; split <;> rfl

theorem State.clearUnanswered_table (s : State) (n : StationNo) :
    (s.clearUnanswered n).bus.table =
      if s.bus.table[n].role = some .primary ∨ s.bus.table[n].role = some .secondary then
        s.bus.table.set n { s.bus.table[n] with unanswered := 0 }
      else s.bus.table := by
  simp only [State.clearUnanswered]; split <;> rfl

/-- The Spelling Unit changes no record of the station table. -/
theorem SpellingOnly.table {s t : State} (h : SpellingOnly s t) : t.bus.table = s.bus.table := by
  rw [h.rest]

/-- A DISCARDED slot whose query has ended becomes FREE (R175). -/
theorem State.queryEnded_discarded {s : State} {tag : Fin 4} {q : Query}
    (h : s.spell.slots[tag] = .discarded q) : s.queryEnded tag = s.freeSlot tag := by
  simp only [State.queryEnded, h]

/-- With no other dictionary left the word is UNCHECKABLE and its slot FREE (R170). -/
theorem State.queryEnded_asking_none {s : State} {tag : Fin 4} {q : Query}
    (h : s.spell.slots[tag] = .asking q) (hc : s.candidate (some q.stage) q.already = none) :
    s.queryEnded tag = (s.setWord q.line q.serial .uncheckable none).freeSlot tag := by
  simp only [State.queryEnded, h, State.queryFailed, hc]

/-- The word moves on to the other dictionary under the same tag (R170). -/
theorem State.queryEnded_asking_some {s : State} {tag : Fin 4} {q : Query}
    (h : s.spell.slots[tag] = .asking q) (hf : s.bus.conflict = false) {role : DictRole}
    {station : StationNo} (hc : s.candidate (some q.stage) q.already = some role)
    (hs : s.bus.holder role.role = some station) : s.queryEnded tag =
      s.asks tag ⟨q.line, q.serial, station, role, some q.stage, .sending, false⟩ := by
  simp only [State.queryEnded, h, State.queryFailed, hc, State.slotTakes_eq_asks hf hs]

theorem State.returnPending_short {s : State} (h : s.spell.pending.length < 8) (i : PendingItem) :
    s.returnPending i = s.mapSpell fun u => { u with pending := i :: u.pending } := by
  unfold State.returnPending
  split
  · rw [if_neg (by simp only [Config.pendingCapacity]; omega)]
  · next hn => simp [State.mapSpell, List.getLast?_eq_none_iff.mp hn]

theorem State.returnPending_full {s : State} {others : List PendingItem} {newest : PendingItem}
    (hp : s.spell.pending = others ++ [newest]) (h : 8 ≤ s.spell.pending.length) (i : PendingItem) :
    s.returnPending i = (s.setWord newest.line newest.serial .uncheckable none).mapSpell fun u =>
      { u with pending := i :: others } := by
  have hl : s.spell.pending.getLast? = some newest := by simp [hp]
  simp only [State.returnPending, hl, Config.pendingCapacity, h, if_true]
  simp [State.mapSpell, hp]

theorem State.queryOutcome_table (s : State) (dest : StationNo) (tag : Fin 4) (a : AnswerCode) :
    (s.queryOutcome dest tag a).bus.table =
      match a with
      | .taken => (s.clearUnanswered dest).bus.table
      | .busy => s.bus.table
      | _ => (s.countUnanswered dest).bus.table := by
  cases a with
  | taken => simp only [State.queryOutcome]; split <;> simp
  | busy =>
    simp only [State.queryOutcome]
    split
    · rfl
    · exact (((s.setSlot_only _ _).trans (State.setWord_only _ _ _ _ _)).trans
        ((State.returnPending_only _ _).trans (State.takeItems_only _))).table
    · exact (s.freeSlot_only tag).table
  | refused | absent => exact ((s.countUnanswered dest).queryEnded_only tag).table

/-- Settles O7: the count is kept by the Bus Interface, the rest is the slot's own case. -/
theorem queryOutcomeCounted : Obligations.QueryOutcomeCounted := by
  refine ⟨?_, ?_⟩
  · intro s i dest tag letters outcome hr hs hi r dictionary r'
    refine ⟨_, exec_frameSent hr hs hi outcome, fun hd => ?_, fun hd => ?_, ?_, ?_⟩
    · simp only [State.afterSent, State.queryOutcome_table]
      cases outcome with
      | taken => exact (State.clearUnanswered_table _ dest).trans (if_pos hd)
      | busy => exact (Vector.set_getElem_self _).symm
      | refused | absent => exact (State.countUnanswered_table _ dest).trans (if_pos hd)
    · simp only [State.afterSent, State.queryOutcome_table]
      cases outcome with
      | taken => exact (State.clearUnanswered_table _ dest).trans (if_neg hd)
      | busy => rfl
      | refused | absent => exact (State.countUnanswered_table _ dest).trans (if_neg hd)
    all_goals
      rintro rfl q hq
      have hq' : s.spell.slots[tag.val] = _ := hq
      simp only [State.afterSent, State.queryOutcome, State.clearUnanswered_spell, State.mapBus_spell, hq]
      simp [State.setSlot]
  · intro s i dest tag letters outcome hr hs hi r left sent counted freed ends
    have sends : ends (sent.queryOutcome dest tag outcome) := exec_frameSent hr hs hi outcome
    have hcount : sent.countUnanswered dest = counted := State.countUnanswered_eq sent dest
    refine ⟨?_, ?_⟩
    · rintro rfl
      refine ⟨?_, fun q hq => ?_⟩
      · intro q hq u item
        have hu : sent.queryOutcome dest tag .busy = (u.returnPending item).takeItems := by
          simp only [State.queryOutcome, show sent.spell.slots[tag] = _ from hq]; rfl
        rw [hu] at sends
        refine ⟨fun hp => ?_, fun others newest hp h8 => ?_⟩
        · rwa [State.returnPending_short (show u.spell.pending.length < 8 from hp)] at sends
        · rwa [State.returnPending_full (show u.spell.pending = _ from hp) h8] at sends
      · have hu : sent.queryOutcome dest tag .busy = sent.freeSlot tag := by
          simp only [State.queryOutcome, show sent.spell.slots[tag] = _ from hq]
        rwa [hu] at sends
    · intro ho
      have hu : sent.queryOutcome dest tag outcome = counted.queryEnded tag := by
        rw [← hcount]; rcases ho with rfl | rfl <;> rfl
      have hslots : counted.spell = s.spell := by rw [← hcount]; simp [sent]
      have hconf : counted.bus.conflict = s.bus.conflict := by rw [← hcount]; simp [sent, left]
      rw [hu] at sends
      refine ⟨fun q hq => ?_, fun q hq => ⟨fun hc => ?_, fun hf role station hc hs => ?_⟩⟩
      · rwa [State.queryEnded_discarded (q := q) (by rwa [hslots])] at sends
      · rwa [State.queryEnded_asking_none (q := q) (by rwa [hslots]) hc] at sends
      · rwa [State.queryEnded_asking_some (q := q) (by rwa [hslots]) (hconf.trans hf) hc hs] at sends

end Sys2Proof.Machine

namespace Sys2Proof.Machine

/-! ### ANSWER_EXPIRY and ANSWER (R169 to R175) -/

@[simp] theorem State.setSlot_setSlot (s : State) (tag : Fin 4) (x y : Slot) :
    (s.setSlot tag x).setSlot tag y = s.setSlot tag y := by
  simp [State.setSlot, State.mapSpell]

/-- A slot that becomes FREE forgets what it was. -/
@[simp] theorem State.freeSlot_setSlot (s : State) (tag : Fin 4) (x : Slot) :
    (s.setSlot tag x).freeSlot tag = s.freeSlot tag := by
  simp [State.freeSlot]

@[simp] theorem State.asks_setSlot (s : State) (tag : Fin 4) (x : Slot) (q : Query) :
    (s.setSlot tag x).asks tag q = s.asks tag q := by
  simp [State.asks, State.setSlot, State.mapSpell, State.setWord, State.updateLine, State.mapLines,
    State.foldedForm]

theorem State.countUnanswered_setSlot (s : State) (tag : Fin 4) (x : Slot) (n : StationNo) :
    (s.setSlot tag x).countUnanswered n = (s.countUnanswered n).setSlot tag x := by
  by_cases h : s.bus.table[n].role = some .primary ∨ s.bus.table[n].role = some .secondary
  · rw [State.countUnanswered_eq s n, if_pos h]
    exact (State.countUnanswered_eq _ n).trans (if_pos h)
  · rw [State.countUnanswered_eq s n, if_neg h]
    exact (State.countUnanswered_eq _ n).trans (if_neg h)

/-- Settles O13: the count is kept by the Bus Interface, and the slot goes on as after a failed query. -/
theorem answerExpires : Obligations.AnswerExpires := by
  intro s tag q hr hph hrun r r' counted freed ends
  have hcount : s.countUnanswered q.station = counted := State.countUnanswered_eq s q.station
  have hspell : counted.spell = s.spell := by rw [← hcount]; simp
  have hconf : counted.bus.conflict = s.bus.conflict := by rw [← hcount]; simp
  have hfreed : freed = counted.setSlot tag .free := by
    simp only [freed, State.setSlot, State.mapSpell, hspell]
  have sends (h : s.spell.slots[tag].expiring = some q) :
      ends ((counted.setSlot tag s.spell.slots[tag].stopExpiry).queryEnded tag) := by
    simp only [ends, exec, execAnswerExpiry, State.whenRunning_eq hr, h,
      State.countUnanswered_setSlot, hcount]
  have asking (h : s.spell.slots[tag] = .asking q) :
      (counted.setSlot tag s.spell.slots[tag].stopExpiry).spell.slots[tag] =
        .asking { q with expiryRunning := false } := by
    rw [h]; simp [State.setSlot, Slot.stopExpiry]
  refine ⟨fun h => ?_, fun h hc => ?_, fun h hf role station hc hs => ?_⟩
  · have := sends (by simp [h, Slot.expiring, hph, hrun])
    rw [State.queryEnded_discarded (q := { q with expiryRunning := false })
      (by rw [h]; simp [State.setSlot, Slot.stopExpiry]), State.freeSlot_setSlot] at this
    rwa [hfreed]
  · have := sends (by simp [h, Slot.expiring, hph, hrun])
    rw [State.queryEnded_asking_none (asking h) hc] at this
    rw [hfreed]
    exact cast (congrArg ends ((counted.setWord q.line q.serial .uncheckable none).freeSlot_setSlot
      tag _)) this
  · have := sends (by simp [h, Slot.expiring, hph, hrun])
    rwa [State.queryEnded_asking_some (asking h) (hconf.trans hf) hc hs, State.asks_setSlot] at this

/-! What a freed slot takes (R165) -/

theorem Spelling.freeTag_eq_none {u : Spelling} (h : ∀ tag : Fin 4, u.slots[tag] ≠ .free) :
    u.freeTag = none :=
  List.find?_eq_none.mpr fun t _ => by simpa using h t

theorem Spelling.freeTag_eq_some {u : Spelling} {tag : Fin 4} (h : u.slots[tag] = .free)
    (lower : ∀ other < tag, u.slots[other] ≠ .free) : u.freeTag = some tag := by
  have place : ∀ t : Fin 4, allTags[t.val]'t.isLt = t := by decide
  refine List.find?_eq_some_iff_getElem.mpr ⟨by simpa using h, tag.val, tag.isLt, place tag, ?_⟩
  intro j hj
  have hlt : j < 4 := by omega
  rw [show allTags[j] = ⟨j, hlt⟩ from place ⟨j, hlt⟩]
  simpa using lower ⟨j, hlt⟩ hj

/-- In CONFLICT, with no item or with no FREE slot nothing is taken (R165, R178). -/
theorem State.takeItems_idle {s : State} (h : s.bus.conflict = true ∨ s.spell.pending = [] ∨
    ∀ tag : Fin 4, s.spell.slots[tag] ≠ .free) : s.takeItems = s := by
  unfold State.takeItems
  cases hn : s.spell.pending.length with
  | zero => rfl
  | succ n =>
    unfold State.takeItemsUpTo
    rcases h with h | h | h
    · simp [h]
    · simp [h] at hn
    · simp [Spelling.freeTag_eq_none h]

/-- The head of the list is taken by the FREE slot of lowest tag, and then the next (R165). -/
theorem State.takeItems_step {s : State} {item : PendingItem} {rest : List PendingItem} {tag : Fin 4}
    (hc : s.bus.conflict = false) (hp : s.spell.pending = item :: rest)
    (ht : s.spell.freeTag = some tag) :
    s.takeItems =
      (match s.candidate item.already none with
        | some r => (s.mapSpell fun u => { u with pending := rest }).slotTakes tag item.line item.serial
            r item.already
        | none => (s.mapSpell fun u => { u with pending := rest }).setWord item.line item.serial
            .uncheckable none).takeItems := by
  have hlen (r : DictRole) : ((s.mapSpell fun u => { u with pending := rest }).slotTakes tag item.line
      item.serial r item.already).spell.pending = rest := by
    simp only [State.slotTakes, State.enqueueFrame]
    split <;> rfl
  rw [State.takeItems, hp, List.length_cons, State.takeItemsUpTo]
  simp only [hc, hp, ht]
  cases s.candidate item.already none with
  | none => rfl
  | some r => simp [State.takeItems, hlen r]

theorem State.candidate_spec (s : State) (a b : Option DictRole) :
    let allowed (r : DictRole) := s.bus.usable r.role = true ∧ a ≠ some r ∧ b ≠ some r
    (allowed .primary → s.candidate a b = some .primary) ∧
      (¬ allowed .primary → allowed .secondary → s.candidate a b = some .secondary) ∧
      (¬ allowed .primary → ¬ allowed .secondary → s.candidate a b = none) := by
  intro allowed
  obtain ⟨p, hp⟩ : ∃ p : DictRole → Bool,
    p = fun r => s.bus.usable r.role && a != some r && b != some r := ⟨_, rfl⟩
  have key (r : DictRole) : p r = true ↔ allowed r := by simp [hp, and_assoc, allowed]
  have found : s.candidate a b = [DictRole.primary, .secondary].find? p := by rw [hp]; rfl
  rw [found]
  refine ⟨fun h => ?_, fun h1 h2 => ?_, fun h1 h2 => ?_⟩
  · rw [List.find?_cons_of_pos ((key _).mpr h)]
  · rw [List.find?_cons_of_neg (mt (key _).mp h1), List.find?_cons_of_pos ((key _).mpr h2)]
  · rw [List.find?_cons_of_neg (mt (key _).mp h1), List.find?_cons_of_neg (mt (key _).mp h2),
      List.find?_nil]

/-! ANSWER -/

/-- A request for an alert changes the Alert Unit alone, by the machine state and what sounds (R190). -/
theorem State.requestAlert_congr {s t : State} (hm : t.machine = s.machine) (ha : t.alert = s.alert)
    (a : Alert) : t.requestAlert a = { t with alert := (s.requestAlert a).alert } := by
  have hself : t = { t with alert := s.alert } := by rw [← ha]
  unfold State.requestAlert
  rw [hm, ha]
  repeat' split
  all_goals first
    | exact hself
    | simp [State.mapAlert, ha]

theorem acceptable_iff (v : Nat) (c : Capital) :
    acceptable v c = true ↔ v = 1 ∨ (v = 2 ∧ c ≠ .lower) := by
  simp [acceptable]

theorem State.isDictionary_iff (s : State) (n : StationNo) : s.isDictionary n = true ↔
    s.bus.table[n].status = .adopted ∧
      (s.bus.table[n].role = some .primary ∨ s.bus.table[n].role = some .secondary) := by
  simp [State.isDictionary, Bus.adoptedRole, and_or_left]

/-- Settles O12: the answer of a dictionary is `offerAnswer`'s, and what a freed slot takes is read off
`takeItems` one item at a time. -/
theorem answerOffered : Obligations.AnswerOffered := by
  refine ⟨?_, ?_, ?_⟩
  · intro s sender tag verdict hr hc h1 h3 hd slot answers freed
    have offers {a : AnswerCode} {u : State} (h : s.offerAnswer sender tag verdict = (a, u)) :
        answers a u := by
      have fields : answerFieldsOk tag verdict = true := by
        simp [answerFieldsOk, h1, h3]; omega
      simp only [answers, exec, execAnswer, State.receive_eq hr hc, fields, hd, Bool.and_self, if_true,
        Fin.ofNat_val_eq_self, h]
      rfl
    refine ⟨fun hs => ?_, fun q hs hq => ?_, fun q hs hq hw => ?_, fun q hs hq hw => ?_⟩
    · exact offers (by simp only [State.offerAnswer, show s.spell.slots[tag] = _ from hs])
    · have hno : ¬ (q.station = sender ∧ q.phase = .waiting) := by
        rintro ⟨h, h'⟩
        rcases hq with hq | hq
        · exact hq h
        · rw [h'] at hq; cases hq
      rcases hs with hs | hs <;>
        exact offers (by simp only [State.offerAnswer, show s.spell.slots[tag] = _ from hs, hno, if_false])
    · exact offers (by
        simp only [State.offerAnswer, show s.spell.slots[tag] = _ from hs, hq, hw, and_self, if_true]
        rfl)
    · have takes {u : State} (h : s.applyVerdict tag q verdict = u) : answers .taken u :=
        offers (by
          simp only [State.offerAnswer, show s.spell.slots[tag] = _ from hs, hq, hw, and_self, if_true, h])
      intro c acceptable
      have hacc := acceptable_iff verdict c
      refine ⟨fun ha => takes ?_, fun ha role station hcand hst => takes ?_, fun ha hcand => takes ?_⟩
      · simp only [State.applyVerdict, hacc.mpr ha, c, if_true]; rfl
      · simp only [State.applyVerdict, mt hacc.mp ha, c, Bool.false_eq_true, if_false, hcand,
          State.slotTakes_eq_asks hc hst]
      · simp only [State.applyVerdict, mt hacc.mp ha, c, Bool.false_eq_true, if_false, hcand]
        rw [State.requestAlert_congr (s := s) (t := s.setWord q.line q.serial .flagged none) rfl rfl]
        rfl
  · intro s sender tag verdict hr hc r dictionary h
    have hno : (answerFieldsOk tag verdict && s.isDictionary sender) = false := by
      rw [Bool.eq_false_iff, ne_eq, Bool.and_eq_true, State.isDictionary_iff]
      rintro ⟨hf, hd⟩
      simp only [answerFieldsOk, Bool.and_eq_true, decide_eq_true_eq] at hf
      rcases h with h | h
      · exact h hd
      · omega
    simp only [exec, execAnswer, State.receive_eq hr hc, hno]
    rfl
  · intro s
    refine ⟨s.candidate_spec, State.takeItems_idle, fun item rest tag hc hp ht lower => ?_⟩
    intro u
    have hstep := State.takeItems_step hc hp (Spelling.freeTag_eq_some ht lower)
    refine ⟨fun hcand => ?_, fun role station hcand hst => ?_⟩
    · rw [hstep, hcand]; rfl
    · rw [hstep, hcand]
      exact congrArg State.takeItems (State.slotTakes_eq_asks (s := u) hc hst _ _ _ _)

end Sys2Proof.Machine

namespace Sys2Proof.Machine

/-! ### KEY and TEXT (R9, R25, R34) -/

/-- What a trigger does to the frames depends on the frames and on what a REPORT carries (R22, R23). -/
theorem State.triggerReport_congr {s t : State} (conflict : t.bus.conflict = s.bus.conflict)
    (queue : t.bus.queue = s.bus.queue) (sending : t.bus.sending = s.bus.sending)
    (held : t.bus.heldReport = s.bus.heldReport) (build : t.buildReport = s.buildReport)
    (c : ReportCause) : (t.triggerReport c).bus.queue = (s.triggerReport c).bus.queue ∧
      (t.triggerReport c).bus.heldReport = (s.triggerReport c).bus.heldReport := by
  simp only [State.triggerReport, conflict, queue, sending, build]
  by_cases hc : s.bus.conflict = true
  · simp only [hc, if_true]; exact ⟨queue, held⟩
  · simp only [hc]
    cases queuedReport s.bus.queue with
    | none => exact ⟨by simp [queue], held⟩
    | some p =>
      by_cases hs : s.bus.sending = some p.1
      · simp [hs, queue, held]
      · simp [hs, queue, held]

/-- The answer slot has no part in a REPORT, nor in the arbiter. -/
theorem State.triggerReport_answerWith (s : State) (a : AnswerCode) (c : ReportCause) :
    (s.answerWith a).triggerReport c = (s.triggerReport c).answerWith a := by
  obtain ⟨hq, hh⟩ := State.triggerReport_congr (s := s) (t := s.answerWith a) rfl rfl rfl rfl rfl c
  rw [State.triggerReport_spec, hq, hh, s.triggerReport_spec c]
  rfl

theorem State.setOwner_answerWith (s : State) (a : AnswerCode) (o : Owner) :
    (s.answerWith a).setOwner o = (s.setOwner o).answerWith a := by
  simp only [State.setOwner]
  rw [← State.triggerReport_answerWith]
  rfl

theorem State.arbitrate_answerWith (s : State) (a : AnswerCode) :
    (s.answerWith a).arbitrate = s.arbitrate.answerWith a := by
  unfold State.arbitrate
  simp only [State.answerWith_intake, State.setOwner_answerWith]
  repeat' split
  all_goals rfl

/-- The arbiter changes the owner, the owner and mode of the current line, and REPORTs (R39). -/
theorem State.arbitrate_spec (s : State) :
    s.arbitrate = { s with
      intake := { s.intake with owner := s.arbitrate.intake.owner }
      lines := { s.lines with current := { s.lines.current with
        owner := s.arbitrate.lines.current.owner, mode := s.arbitrate.lines.current.mode } }
      bus := { s.bus with
        queue := s.arbitrate.bus.queue, heldReport := s.arbitrate.bus.heldReport } } := by
  obtain e | ⟨-, o, -, e, -⟩ := s.arbitrate_cases
  · rw [e]
  · rw [e, State.setOwner_spec]

theorem State.arbitrate_owned {s : State} (h : s.intake.owner ≠ .none) : s.arbitrate = s := by
  simp [State.arbitrate, h]

/-- The wake changes REPORTs, the mechanism, the panel, the ribbon and the wake mark alone (R201). -/
theorem State.startWake_spec (s : State) :
    s.startWake = { s with
      bus := { s.bus with
        queue := s.startWake.bus.queue, heldReport := s.startWake.bus.heldReport }
      wheel := s.startWake.wheel
      seq := { s.seq with mech := s.startWake.seq.mech, work := s.startWake.seq.work }
      disp := s.startWake.disp
      supply := s.startWake.supply } := by
  unfold State.startWake
  split
  · rw [State.startHoming, State.setMech_spec]
    rfl
  · rfl

theorem State.startWake_awake {s : State}
    (h : s.supply.power ≠ .standby ∨ s.supply.wakeMark = true) : s.startWake = s := by
  unfold State.startWake
  refine if_neg fun ⟨hp, hw⟩ => ?_
  rcases h with h | h
  · exact h hp
  · rw [hw] at h; cases h

theorem State.panelOn_panel (s : State) : s.panelOn.disp.panel = .on := by
  simp only [State.panelOn, State.mapDisp_disp]
  split
  · assumption
  · rfl

/-- What the wake starts (R201). -/
theorem State.startWake_begins {s : State} (hp : s.supply.power = .standby)
    (hw : s.supply.wakeMark = false) :
    s.startWake.supply = { s.supply with wakeMark := true } ∧ s.startWake.seq.mech = .homing ∧
      s.startWake.seq.work = some (.homing .wake) ∧ s.startWake.disp.panel = .on ∧
      s.startWake.wheel = { s.wheel with ribbon := s.pins.ribbon } := by
  unfold State.startWake
  rw [if_pos ⟨hp, hw⟩, State.startHoming, State.setMech_spec]
  exact ⟨rfl, rfl, rfl, State.panelOn_panel _, rfl⟩

/-- The state with a keystroke at the tail of the queue and the claims examined (R25, R39). -/
def State.withKeystroke (s : State) (k : Keystroke) : State :=
  let joined := s.mapIntake fun i => { i with keys := i.keys ++ [k] }
  if s.intake.keys.isEmpty then joined.arbitrate else joined

theorem State.takeKeystroke_eq (s : State) (k : Keystroke) :
    s.takeKeystroke k = (s.withKeystroke k).startWake := rfl

theorem State.withKeystroke_spec (s : State) (k : Keystroke) :
    s.withKeystroke k = { s with
      intake := { s.intake with
        keys := s.intake.keys ++ [k], owner := (s.withKeystroke k).intake.owner }
      lines := { s.lines with current := { s.lines.current with
        owner := (s.withKeystroke k).lines.current.owner
        mode := (s.withKeystroke k).lines.current.mode } }
      bus := { s.bus with
        queue := (s.withKeystroke k).bus.queue
        heldReport := (s.withKeystroke k).bus.heldReport } } := by
  simp only [State.withKeystroke]
  split
  · exact State.arbitrate_spec _
  · rfl

theorem State.withKeystroke_ownershipOnly (s : State) (k : Keystroke) (a : AnswerCode) :
    OwnershipOnly ((s.mapIntake fun i => { i with keys := i.keys ++ [k] }).answerWith a)
      ((s.withKeystroke k).answerWith a) := by
  simp only [State.withKeystroke]
  split
  · rw [← State.arbitrate_answerWith]; exact State.arbitrate_ownershipOnly _
  · exact .refl _

/-- With a key before it, or with an owner, the keystroke joins and nothing else changes. -/
theorem State.withKeystroke_owned {s : State} (h : s.intake.keys ≠ [] ∨ s.intake.owner ≠ .none)
    (k : Keystroke) : s.withKeystroke k = s.mapIntake fun i => { i with keys := i.keys ++ [k] } := by
  simp only [State.withKeystroke]
  split
  · next he => exact State.arbitrate_owned (h.resolve_left fun hn => hn (by simpa using he))
  · rfl

theorem Bus.adoptedRole_eq_keyboard (b : Bus) (n : StationNo) : b.adoptedRole n = some .keyboard ↔
    b.table[n].status = .adopted ∧ b.table[n].role = some .keyboard := by
  simp [Bus.adoptedRole]

/-- Settles O10: the keystroke joins, the arbiter changes the ownership alone, and the wake starts once. -/
theorem keyFrames : Obligations.KeyFrames := by
  have received {s : State} (hr : s.stopped = false) (hc : s.bus.conflict = false) (n : StationNo)
      (code flag : Nat) : exec (.key n code flag) s = .next (answered (s.offerKey n code flag)) := by
    simp only [exec, execKey, State.receive_eq hr hc]
  have fields (code flag : Nat) : keyFieldsOk code flag = false ↔ code = 0 ∨ 159 < code ∨ 1 < flag := by
    simp [keyFieldsOk]; omega
  refine ⟨?_, ?_⟩
  · intro s sender code flag hr hc h1 h2 hf hu hw hst hrole hlen u
    have taken : exec (.key sender code flag) s =
        .next ((s.takeKeystroke ⟨code, flag == 1⟩).answerWith .taken) := by
      rw [received hr hc, State.offerKey, if_neg (by rw [fields]; omega), if_neg (by simp [hu]),
        if_neg (not_not.mpr ((Bus.adoptedRole_eq_keyboard _ _).mpr ⟨hst, hrole⟩)), if_neg hw,
        if_neg (by simp only [Config.keyCapacity]; omega)]
      rfl
    have spec := s.withKeystroke_spec ⟨code, flag == 1⟩
    have only := s.withKeystroke_ownershipOnly ⟨code, flag == 1⟩ .taken
    have wake := (s.withKeystroke ⟨code, flag == 1⟩).startWake_spec
    have supply : (s.withKeystroke ⟨code, flag == 1⟩).supply = s.supply := by rw [spec]
    rw [State.takeKeystroke_eq] at taken
    refine ⟨_, taken, by rw [wake, spec]; rfl, rfl, by rw [wake, spec]; rfl, by rw [wake, spec]; rfl,
      by rw [wake, spec]; rfl, by rw [wake, spec]; rfl, by rw [wake, spec]; rfl, by rw [wake, spec]; rfl,
      by rw [wake, spec]; rfl, by rw [wake, spec]; rfl, fun awake => ?_, fun awake owned => ?_,
      fun hp hm => ?_⟩
    · rw [State.startWake_awake (by rwa [supply])]; exact only
    · rw [State.startWake_awake (by rwa [supply]), State.withKeystroke_owned owned]; rfl
    · obtain ⟨hs, hmech, hwork, hpanel, hwheel⟩ := State.startWake_begins
        (s := s.withKeystroke ⟨code, flag == 1⟩) (by rwa [supply]) (by rwa [supply])
      exact ⟨by rw [← supply]; exact hs, hmech, hwork, hpanel, hwheel.trans (by rw [spec])⟩
  · intro s sender code flag hr hc u outOfRange keyboard
    have hk := Bus.adoptedRole_eq_keyboard s.bus sender
    refine ⟨fun h => ?_, fun h hu => ?_, fun h hu hn => ?_, fun h hu hkey hb => ?_⟩ <;>
      rw [received hr hc, State.offerKey]
    · rw [if_pos ((fields _ _).mpr h)]; rfl
    · rw [if_neg (mt (fields _ _).mp h), if_pos hu]; rfl
    · rw [if_neg (mt (fields _ _).mp h), if_neg (by simp [hu]), if_pos (mt hk.mp hn)]; rfl
    · rw [if_neg (mt (fields _ _).mp h), if_neg (by simp [hu]), if_neg (not_not.mpr (hk.mpr hkey))]
      by_cases hm : s.machine = .powerWarn
      · rw [if_pos hm]; rfl
      · have full : Config.keyCapacity ≤ s.intake.keys.length := hb.resolve_left hm
        rw [if_neg hm, if_pos full]; rfl

end Sys2Proof.Machine

namespace Sys2Proof.Machine

/-! ### TEXT (R34) -/

theorem Intake.src_mapSrc (i : Intake) (n : SourceNo) (f : SourceIntake → SourceIntake) :
    (i.mapSrc n f).src n = f (i.src n) := by cases n <;> rfl

theorem Intake.mapSrc_congr {i : Intake} {n : SourceNo} {f g : SourceIntake → SourceIntake}
    (h : f (i.src n) = g (i.src n)) : i.mapSrc n f = i.mapSrc n g := by
  cases n
  · exact congrArg (fun r => { i with src1 := r }) h
  · exact congrArg (fun r => { i with src2 := r }) h

theorem Intake.mapSrc_mapSrc (i : Intake) (n : SourceNo) (f g : SourceIntake → SourceIntake) :
    (i.mapSrc n f).mapSrc n g = i.mapSrc n (g ∘ f) := by cases n <;> rfl

/-- The record of a source that holds a block, with its job open at it; a new job has its attributes off
(R34 cases 6 and 9). -/
def SourceIntake.holding (r : SourceIntake) (b : TextBlock) : SourceIntake :=
  { r with
    slot := some ⟨b, 0⟩, job := .opened b.job b.seq, idleRunning := false
    bold := if r.job = .idle then false else r.bold
    underline := if r.job = .idle then false else r.underline }

/-- The state with the block held, before the claims are examined. -/
def State.withBlock (s : State) (n : SourceNo) (b : TextBlock) : State :=
  s.mapIntake fun i => i.mapSrc n fun r => r.holding b

/-- A block of the open job that follows the last one is held (R34 case 6). -/
theorem State.offerBlock_goesOn {s : State} {n : SourceNo} {b : TextBlock} {last : Nat}
    (hw : s.machine ≠ .powerWarn) (hs : b.job ≠ (s.intake.src n).stoppedJob)
    (hslot : (s.intake.src n).slot = none) (hj : (s.intake.src n).job = .opened b.job last)
    (hq : b.seq = (last + 1) % 256) (hl : b.seq ≠ last) :
    s.offerBlock n b = (.taken, (s.withBlock n b).arbitrate.startWake) := by
  simp only [State.offerBlock, hw, hs, hj, hslot, Option.isSome_none, Bool.false_eq_true, if_false, hl,
    and_false, true_and, if_pos hq]
  have : (s.jobAt n b).mapIntake (fun i => i.mapSrc n fun r =>
      { r with slot := some ⟨b, 0⟩, idleRunning := false }) = s.withBlock n b := by
    simp only [State.jobAt, State.withBlock, State.mapIntake, Intake.mapSrc_mapSrc]
    rw [Intake.mapSrc_congr]
    simp [SourceIntake.holding, hj]
  rw [State.holdBlock, this]

/-- The FIRST block of a job that is not the closed one's is held (R34 case 9). -/
theorem State.offerBlock_opens {s : State} {n : SourceNo} {b : TextBlock}
    (hw : s.machine ≠ .powerWarn) (hs : b.job ≠ (s.intake.src n).stoppedJob)
    (hslot : (s.intake.src n).slot = none) (hj : (s.intake.src n).job = .idle)
    (hc : (s.intake.src n).closedJob ≠ some (b.job, b.seq)) (hf : b.first = true) :
    s.offerBlock n b = (.taken, (s.withBlock n b).arbitrate.startWake) := by
  simp only [State.offerBlock, hw, hs, hj, hslot, Option.isSome_none, Bool.false_eq_true, if_false, hc,
    hf, if_true]
  have : ((s.jobAt n b).mapIntake fun i => i.mapSrc n fun r =>
      { r with bold := false, underline := false }).mapIntake (fun i => i.mapSrc n fun r =>
      { r with slot := some ⟨b, 0⟩, idleRunning := false }) = s.withBlock n b := by
    simp only [State.jobAt, State.withBlock, State.mapIntake, Intake.mapSrc_mapSrc]
    rw [Intake.mapSrc_congr]
    simp [SourceIntake.holding, hj]
  rw [State.holdBlock, this]

/-- Settles O11: by the ten cases of R34 as `offerBlock` has them. -/
theorem textFrames : Obligations.TextFrames := by
  have received {s : State} (hr : s.stopped = false) (hc : s.bus.conflict = false) (n : StationNo)
      (b : TextBlock) : exec (.text n b) s = .next (answered (s.offerText n b)) := by
    simp only [exec, execText, State.receive_eq hr hc]
  have offered {s : State} {b : TextBlock} (hf : textFieldsOk b = true) (hu : s.rolesUnsettled = false)
      {sender : StationNo} {n : SourceNo} (hn : s.sourceOf sender = some n) :
      s.offerText sender b = s.offerBlock n b := by
    simp only [State.offerText, hf, hu, hn, Bool.true_eq_false, Bool.false_eq_true, if_false]
  refine ⟨?_, ?_⟩
  · intro s sender n b hr hc hf hu hw hn hs hslot r goesOn opens held h
    have taken : exec (.text sender b) s =
        .next ((s.withBlock n b).arbitrate.startWake.answerWith .taken) := by
      rw [received hr hc, offered hf hu hn]
      rcases h with ⟨last, hj, hq, hl⟩ | ⟨hj, hcl, hfirst⟩
      · rw [State.offerBlock_goesOn hw hs hslot hj hq hl]; rfl
      · rw [State.offerBlock_opens hw hs hslot hj hcl hfirst]; rfl
    have spec := (s.withBlock n b).arbitrate_spec
    have wake := (s.withBlock n b).arbitrate.startWake_spec
    have supply : (s.withBlock n b).arbitrate.supply = s.supply := by rw [spec]; rfl
    have source : (s.withBlock n b).arbitrate.intake.src n = held := by
      rw [spec]
      exact (show _ = ((s.withBlock n b).intake.src n) by cases n <;> rfl).trans
        (Intake.src_mapSrc _ _ _)
    have same : { s with
        intake := s.intake.mapSrc n fun _ => held
        bus := { s.bus with answer := .taken } } = (s.withBlock n b).answerWith .taken := by
      simp only [State.withBlock, State.mapIntake]
      rw [Intake.mapSrc_congr (f := fun r => r.holding b) (g := fun _ => held) rfl]
      rfl
    refine ⟨_, taken, rfl, ?_, ?_, ?_, ?_, ?_, fun awake => ?_, fun hp hm => ?_⟩
    · rw [wake]; exact source
    · rw [wake, spec]; cases n <;> rfl
    · rw [wake, spec]; rfl
    · rw [wake, spec]; rfl
    · rw [wake, spec]; rfl
    · rw [same, State.startWake_awake (by rwa [supply]), ← State.arbitrate_answerWith]
      exact State.arbitrate_ownershipOnly _
    · obtain ⟨hsup, hmech, hwork, hpanel, hwheel⟩ := State.startWake_begins
        (s := (s.withBlock n b).arbitrate) (by rwa [supply]) (by rwa [supply])
      refine ⟨by rw [← supply]; exact hsup, hmech, hwork, hpanel, hwheel.trans ?_, ?_, ?_, ?_, ?_⟩
      · rw [spec]; rfl
      all_goals rw [wake, spec]; rfl
  · intro s sender b hr hc hf u
    refine ⟨fun hu => ?_, fun hu hn => ?_, fun hu n hn => ?_⟩
    · rw [received hr hc, State.offerText, if_neg (by simp [hf]), if_pos hu]; rfl
    · simp only [received hr hc, State.offerText, hf, hu, hn, Bool.true_eq_false, Bool.false_eq_true,
        if_false]
      rfl
    · intro r
      rw [received hr hc, offered hf hu hn]
      refine ⟨fun hw => ?_, fun hw hs => ?_, fun hw hs => ⟨fun id last hj => ?_, fun hslot => ?_,
        fun hslot id last hj => ⟨fun hid hseq => ?_, fun hno => ?_⟩,
        fun hslot hj => ⟨fun hcl => ?_, fun hcl hfirst => ?_⟩⟩⟩
      · rw [State.offerBlock, if_pos hw]; rfl
      · rw [State.offerBlock, if_neg hw, if_pos hs]; rfl
      · have hj' : (s.intake.src n).job = _ := hj
        have hs' : b.job ≠ (s.intake.src n).stoppedJob := hs
        simp only [State.offerBlock, if_neg hw, if_neg hs', hj']; rfl
      · have hslot' : (s.intake.src n).slot.isSome = _ := hslot
        have hs' : b.job ≠ (s.intake.src n).stoppedJob := hs
        simp only [State.offerBlock, if_neg hw, if_neg hs', hslot', if_true]
        cases (s.intake.src n).job <;> rfl
      all_goals
        have hj' : (s.intake.src n).job = _ := hj
        have hslot' : (s.intake.src n).slot = _ := hslot
        have hs' : b.job ≠ (s.intake.src n).stoppedJob := hs
        simp only [State.offerBlock, if_neg hw, if_neg hs', hj', hslot', Option.isSome_none,
          Bool.false_eq_true, if_false]
      · rw [if_pos ⟨hid, hseq⟩]; rfl
      · rw [if_neg (by tauto), if_neg (by tauto)]; rfl
      · rw [if_pos hcl]; rfl
      · rw [if_neg hcl, if_neg (by simp [hfirst])]; rfl

end Sys2Proof.Machine

namespace Sys2Proof.Machine

/-! ### What the bus keeps while lines, owners and REPORTs change -/

/-- The Bus Interface without its outgoing frames and held triggers. -/
def Bus.fixed (b : Bus) : Bus := { b with queue := [], heldReport := none }

theorem Bus.fixed_table {b c : Bus} (h : b.fixed = c.fixed) : b.table = c.table :=
  show b.fixed.table = c.fixed.table from congrArg Bus.table h

theorem Bus.fixed_answer {b c : Bus} (h : b.fixed = c.fixed) : b.answer = c.answer :=
  show b.fixed.answer = c.fixed.answer from congrArg Bus.answer h

theorem WorkOnly.busFixed {s t : State} (h : WorkOnly s t) : t.bus.fixed = s.bus.fixed := by
  rw [h.rest]; rfl

@[simp] theorem State.settle_busFixed (s : State) : s.settle.bus.fixed = s.bus.fixed :=
  s.settle_work.busFixed

@[simp] theorem State.setOwner_busFixed (s : State) (o : Owner) :
    (s.setOwner o).bus.fixed = s.bus.fixed := by
  rw [State.setOwner_spec]; rfl

@[simp] theorem State.arbitrate_busFixed (s : State) : s.arbitrate.bus.fixed = s.bus.fixed := by
  rw [State.arbitrate_spec]; rfl

@[simp] theorem State.releaseLine_busFixed (s : State) : s.releaseLine.bus.fixed = s.bus.fixed := by
  simp [State.releaseLine]

@[simp] theorem State.commit_busFixed (s : State) (c : List Entry) :
    (s.commit c).bus.fixed = s.bus.fixed := by
  obtain ⟨u, work, -, hu, -⟩ := s.commit_work c
  rw [work.busFixed, hu]; rfl

@[simp] theorem State.relocated_busFixed (s : State) : s.relocated.bus.fixed = s.bus.fixed := by
  simp only [State.relocated]
  split <;> simp

@[simp] theorem State.lapseLost_busFixed (s : State) : s.lapseLost.bus.fixed = s.bus.fixed := by
  simp only [State.lapseLost]
  repeat' split
  all_goals simp

@[simp] theorem State.closeJob_busFixed (s : State) (n : SourceNo) :
    (s.closeJob n).bus.fixed = s.bus.fixed := by
  simp only [State.closeJob]
  repeat' split
  all_goals simp

@[simp] theorem State.endJob_busFixed (s : State) (n : SourceNo) (i l : Nat) :
    (s.endJob n i l).bus.fixed = s.bus.fixed := by
  simp [State.endJob]

@[simp] theorem State.sourceLost_busFixed (s : State) (n : SourceNo) :
    (s.sourceLost n).bus.fixed = s.bus.fixed := by
  simp only [State.sourceLost]
  repeat' split
  all_goals simp

@[simp] theorem State.tellUsability_busFixed (s : State) (old : Bus) :
    (s.tellUsability old).bus.fixed = s.bus.fixed := by
  simp only [State.tellUsability]
  repeat' split
  all_goals simp

/-! ### A ROLL from another station (R13, R17, R18) -/

/-- Telling the units changes nothing when no role's usability has changed (R19). -/
theorem State.tellUsability_same {s : State} {old : Bus}
    (h : ∀ r, s.bus.usable r = old.usable r) : s.tellUsability old = s := by
  simp [State.tellUsability, h]

/-- A record without a role, before and after, makes no role usable or unusable. -/
theorem State.usable_setStation {s : State} {n : StationNo} {r : Station}
    (h : s.bus.table[n].role = none) (h' : r.role = none) (role : Role) :
    (s.setStation n r).bus.usable role = s.bus.usable role := by
  simp only [Fin.getElem_fin] at h
  unfold Bus.usable
  congr 1
  funext m
  simp only [State.setStation, State.mapBus_bus]
  by_cases hm : m = n
  · subst hm; simp [h, h']
  · have hm' : ¬ n.val = m.val := fun e => hm (Fin.ext e.symm)
    simp [hm']

/-- A ROLL in range from another station is dealt with by `takeRoll`, and the answer slot is silent. -/
theorem exec_roll {s : State} {sender : StationNo} {kind first second : Nat} (hr : s.stopped = false)
    (hc : s.bus.conflict = false) (ho : sender ≠ s.bus.own)
    (hf : rollFieldsOk kind first second = true) :
    exec (.roll sender kind first second) s =
      .next ((s.answerWith .absent).takeRoll sender kind first second) := by
  simp only [exec, execRoll, State.receive_eq hr hc]
  rw [if_neg (by simpa [State.answerWith] using ho), if_pos hf]

/-- The record that a ROLL leaves, by the table of its time (R13, R17, R18). -/
def State.rolled (s : State) (sender : StationNo) (kind first second : Nat) : Station :=
  if s.bus.window = .closed then s.bus.table[sender].afterWindow kind first second
  else s.bus.table[sender].inWindow kind first second

/-- A ROLL changes its sender's record and no other; a record that holds no role, before and after,
concerns no unit. -/
theorem State.takeRoll_spec (s : State) (sender : StationNo) (kind first second : Nat) :
    let t := (s.answerWith .absent).takeRoll sender kind first second
    let r' := s.rolled sender kind first second
    t.bus.table = s.bus.table.set sender r' ∧ t.bus.answer = .absent ∧
      (s.bus.table[sender].role = none → r'.role = none →
        t = { s with bus := { s.bus with answer := .absent, table := s.bus.table.set sender r' } }) := by
  intro t r'
  have told : t = ((s.answerWith .absent).setStation sender r').tellUsability
    (s.answerWith .absent).bus := rfl
  have fixed := ((s.answerWith .absent).setStation sender r').tellUsability_busFixed
    (s.answerWith .absent).bus
  rw [← told] at fixed
  exact ⟨Bus.fixed_table fixed, Bus.fixed_answer fixed, fun h h' =>
    told.trans (State.tellUsability_same fun role => State.usable_setStation h h' role)⟩

/-- Settles O14: the record is `Station.inWindow`'s, row by row. -/
theorem rollInWindow : Obligations.RollInWindow := by
  intro s sender kind first second k hr hc ho hw hf r becomes
  have rolls {r' : Station} (h : r.inWindow kind first second = r') : becomes r' := by
    have e : s.rolled sender kind first second = r' := by rw [State.rolled, if_neg hw]; exact h
    have := s.takeRoll_spec sender kind first second
    rw [e] at this
    exact ⟨_, exec_roll hr hc ho hf, this⟩
  refine ⟨fun hk => ⟨fun hs => ?_, fun hs hkind => ?_, fun hs hkind => ?_⟩, ?_, fun hs => ?_⟩
  · exact rolls (by simp only [Station.inWindow, hs, hk])
  · exact rolls (by simp only [Station.inWindow, hs, hk, hkind, if_true])
  · exact rolls (by simp only [Station.inWindow, hs, hk, hkind, if_false])
  · rintro rfl
    exact ⟨fun hs => rolls (by simp only [Station.inWindow, hs, stationKindOf]; rfl),
      fun hs => rolls (by simp only [Station.inWindow, hs, stationKindOf])⟩
  · exact rolls (by simp only [Station.inWindow, hs])

/-- Settles O15: the record is `Station.afterWindow`'s, row by row. -/
theorem rollAfterWindow : Obligations.RollAfterWindow := by
  intro s sender kind first second k hr hc ho hw hf r held same becomes
  have rolls {r' : Station} (h : r.afterWindow kind first second = r') : becomes r' := by
    have e : s.rolled sender kind first second = r' := by rw [State.rolled, if_pos hw]; exact h
    obtain ⟨table, answer, -⟩ := s.takeRoll_spec sender kind first second
    rw [e] at table
    exact ⟨_, exec_roll hr hc ho hf, table, answer⟩
  refine ⟨fun hk => ⟨fun hs => ?_, fun hs hsame => ?_, fun hs hsame => ?_, fun hs => ?_⟩, ?_,
    fun hs => ?_⟩
  · exact rolls (by simp only [Station.afterWindow, hs, hk])
  · rcases hs with hs | hs <;>
      exact rolls (by simp only [Station.afterWindow, hs, hk]; exact if_pos hsame)
  · rcases hs with hs | hs <;>
      exact rolls (by simp only [Station.afterWindow, hs, hk]; exact if_neg hsame)
  · exact rolls (by simp only [Station.afterWindow, hs, hk])
  · rintro rfl
    refine ⟨fun hs => ?_, fun hs => ?_, fun hs => ?_⟩
    · rcases hs with hs | hs <;> exact rolls (by simp only [Station.afterWindow, hs, stationKindOf])
    · exact rolls (by simp only [Station.afterWindow, hs, stationKindOf]; rfl)
    · exact rolls (by simp only [Station.afterWindow, hs, stationKindOf])
  · exact rolls (by simp only [Station.afterWindow, hs])

end Sys2Proof.Machine

namespace Sys2Proof.Machine

/-! ### The roles given at the close of the roll window (R15) -/

theorem stationNumbers_getElem (i : Nat) (h : i < stationNumbers.length) :
    stationNumbers[i] = ⟨i, h⟩ :=
  (by decide : ∀ n : Fin 8, stationNumbers[n.val]'n.isLt = n) ⟨i, h⟩

theorem mem_stationNumbers : ∀ n : StationNo, n ∈ stationNumbers := by decide

/-- The first station that passes a test is the lowest that does. -/
theorem find?_stationNumbers {q : StationNo → Bool} {n : StationNo} :
    stationNumbers.find? q = some n ↔ q n = true ∧ ∀ m, q m = true → n ≤ m := by
  rw [List.find?_eq_some_iff_getElem]
  simp only [stationNumbers_getElem]
  refine and_congr_right fun _ => ⟨?_, fun h => ⟨n.val, n.isLt, rfl, fun j hj => ?_⟩⟩
  · rintro ⟨i, hi, rfl, first⟩ m hm
    refine not_lt.mp fun hlt => ?_
    have := first m.val hlt
    rw [hm] at this
    cases this
  · rw [Bool.not_eq_true', Bool.eq_false_iff]
    exact fun hq => absurd (h _ hq) (not_le.mpr hj)

theorem exists_find?_stationNumbers {q : StationNo → Bool} {n : StationNo} (h : q n = true) :
    ∃ m, stationNumbers.find? q = some m := by
  rw [← Option.isSome_iff_exists, List.find?_isSome]
  exact ⟨n, mem_stationNumbers n, h⟩

/-- A station other than the controller, heard in the window and not ignored, of a kind. -/
def Bus.heard (b : Bus) (n : StationNo) (k : StationKind) : Prop :=
  n ≠ b.own ∧ b.table[n].status = .adopted ∧ b.table[n].kind = some k

theorem Bus.lowestOf_eq_some {b : Bus} {k : StationKind} {p : StationNo → Bool} {n : StationNo} :
    b.lowestOf k p = some n ↔
      (b.heard n k ∧ p n = true) ∧ ∀ m, b.heard m k → p m = true → n ≤ m := by
  have test (m : StationNo) : (m != b.own && b.table[m].status == .adopted &&
      b.table[m].kind == some k && p m) = true ↔ b.heard m k ∧ p m = true := by
    simp [Bus.heard, and_assoc]
  unfold Bus.lowestOf
  rw [find?_stationNumbers, test]
  simp only [test, and_imp]

theorem Bus.exists_lowestOf {b : Bus} {k : StationKind} {p : StationNo → Bool} {n : StationNo}
    (h : b.heard n k) (hp : p n = true) : ∃ m, b.lowestOf k p = some m :=
  exists_find?_stationNumbers (n := n) (by simpa [Bus.heard, and_assoc, hp] using h)

/-- The lowest station of a kind. -/
def Bus.lowest (b : Bus) (n : StationNo) (k : StationKind) : Prop :=
  b.heard n k ∧ ∀ m, b.heard m k → n ≤ m

theorem Bus.lowestOf_true {b : Bus} {k : StationKind} {n : StationNo} :
    (b.lowestOf k fun _ => true) = some n ↔ b.lowest n k := by
  simp [Bus.lowestOf_eq_some, Bus.lowest]

theorem Bus.exists_lowest {b : Bus} {k : StationKind} {n : StationNo} (h : b.heard n k) :
    ∃ p, b.lowest p k := by
  obtain ⟨p, hp⟩ := Bus.exists_lowestOf (p := fun _ => true) h rfl
  exact ⟨p, Bus.lowestOf_true.mp hp⟩

theorem Bus.lowest_unique {b : Bus} {k : StationKind} {m n : StationNo} (h : b.lowest m k)
    (h' : b.lowest n k) : m = n := le_antisymm (h.2 n h'.1) (h'.2 m h.1)

theorem Bus.choose_keyboard {b : Bus} {n : StationNo} :
    b.choose .keyboard = some n ↔ b.lowest n .keyboard := Bus.lowestOf_true

theorem Bus.choose_primary {b : Bus} {n : StationNo} :
    b.choose .primary = some n ↔ b.lowest n .dictionary := Bus.lowestOf_true

theorem Bus.choose_source1 {b : Bus} {n : StationNo} :
    b.choose .source1 = some n ↔ b.lowest n .source := Bus.lowestOf_true

theorem Bus.choose_secondary {b : Bus} {n : StationNo} : b.choose .secondary = some n ↔
    ∃ p, b.lowest p .dictionary ∧ b.heard n .dictionary ∧ n ≠ p ∧
      b.table[n].ability1 = b.table[p].ability1 ∧
      ∀ m, b.heard m .dictionary → m ≠ p → b.table[m].ability1 = b.table[p].ability1 → n ≤ m := by
  unfold Bus.choose
  cases h : b.lowestOf .dictionary fun _ => true with
  | none =>
    refine ⟨nofun, fun ⟨p, hp, _⟩ => ?_⟩
    rw [Bus.lowestOf_true.mpr hp] at h
    cases h
  | some p =>
    have hp := Bus.lowestOf_true.mp h
    simp only [Bus.lowestOf_eq_some, Bool.and_eq_true, bne_iff_ne, ne_eq, beq_iff_eq, and_imp,
      and_assoc]
    refine ⟨fun h => ⟨p, hp, h⟩, fun ⟨p', hp', h⟩ => ?_⟩
    rwa [Bus.lowest_unique hp hp']

theorem Bus.choose_source2 {b : Bus} {n : StationNo} : b.choose .source2 = some n ↔
    ∃ p, b.lowest p .source ∧ b.heard n .source ∧ n ≠ p ∧
      ∀ m, b.heard m .source → m ≠ p → n ≤ m := by
  unfold Bus.choose
  cases h : b.lowestOf .source fun _ => true with
  | none =>
    refine ⟨nofun, fun ⟨p, hp, _⟩ => ?_⟩
    rw [Bus.lowestOf_true.mpr hp] at h
    cases h
  | some p =>
    have hp := Bus.lowestOf_true.mp h
    simp only [Bus.lowestOf_eq_some, bne_iff_ne, ne_eq, and_assoc]
    refine ⟨fun h => ⟨p, hp, h⟩, fun ⟨p', hp', h⟩ => ?_⟩
    rwa [Bus.lowest_unique hp hp']

/-- The kind of the stations that a role is for. -/
def Role.stationKind : Role → StationKind
  | .keyboard => .keyboard
  | .primary | .secondary => .dictionary
  | .source1 | .source2 => .source

theorem Bus.choose_heard {b : Bus} {r : Role} {n : StationNo} (h : b.choose r = some n) :
    b.heard n r.stationKind := by
  cases r with
  | keyboard => exact (Bus.choose_keyboard.mp h).1
  | primary => exact (Bus.choose_primary.mp h).1
  | source1 => exact (Bus.choose_source1.mp h).1
  | secondary => obtain ⟨p, -, hn, -⟩ := Bus.choose_secondary.mp h; exact hn
  | source2 => obtain ⟨p, -, hn, -⟩ := Bus.choose_source2.mp h; exact hn

theorem Bus.heard_kind {b : Bus} {n : StationNo} {k l : StationKind} (h : b.heard n k)
    (h' : b.heard n l) : k = l := Option.some.inj (h.2.2.symm.trans h'.2.2)

/-- Two roles for stations of one kind are the two dictionaries or the two sources. -/
theorem Role.eq_or_pair {r r' : Role} (h : r.stationKind = r'.stationKind) : r = r' ∨
    (r = .primary ∧ r' = .secondary) ∨ (r = .secondary ∧ r' = .primary) ∨
    (r = .source1 ∧ r' = .source2) ∨ (r = .source2 ∧ r' = .source1) := by
  cases r <;> cases r' <;> simp_all [Role.stationKind]

/-- No station is chosen for two roles (R15). -/
theorem Bus.choose_injective {b : Bus} {r r' : Role} {n : StationNo} (h : b.choose r = some n)
    (h' : b.choose r' = some n) : r = r' := by
  have dictionaries : b.choose .primary = some n → ¬ b.choose .secondary = some n := fun h h' => by
    obtain ⟨p, hp, -, hne, -⟩ := Bus.choose_secondary.mp h'
    exact hne (Bus.lowest_unique (Bus.choose_primary.mp h) hp)
  have sources : b.choose .source1 = some n → ¬ b.choose .source2 = some n := fun h h' => by
    obtain ⟨p, hp, -, hne, -⟩ := Bus.choose_source2.mp h'
    exact hne (Bus.lowest_unique (Bus.choose_source1.mp h) hp)
  rcases Role.eq_or_pair (Bus.heard_kind (Bus.choose_heard h) (Bus.choose_heard h')) with
    e | ⟨rfl, rfl⟩ | ⟨rfl, rfl⟩ | ⟨rfl, rfl⟩ | ⟨rfl, rfl⟩
  · exact e
  · exact absurd h' (dictionaries h)
  · exact absurd h (dictionaries h')
  · exact absurd h' (sources h)
  · exact absurd h (sources h')

theorem Bus.roleFor_eq_some {b : Bus} {n : StationNo} {r : Role} :
    b.roleFor n = some r ↔ b.choose r = some n := by
  have all : ∀ r, r ∈ allRoles := by intro r; cases r <;> decide
  refine ⟨fun h => by simpa using List.find?_some h, fun h => ?_⟩
  obtain ⟨r', hr'⟩ : ∃ r', b.roleFor n = some r' := by
    rw [← Option.isSome_iff_exists, Bus.roleFor, List.find?_isSome]
    exact ⟨r, all r, by simpa using h⟩
  have h' : b.choose r' = some n := by simpa using List.find?_some hr'
  rw [hr', Bus.choose_injective h h']

theorem Bus.giveRoles_table (b : Bus) (n : StationNo) : b.giveRoles.table[n] = b.recordAtClose n := by
  simp [Bus.giveRoles]

/-- Records of the controller itself and of stations not adopted stay (R15). -/
theorem Bus.giveRoles_other {b : Bus} {n : StationNo} (h : n = b.own ∨ b.table[n].status ≠ .adopted) :
    b.giveRoles.table[n] = b.table[n] := by
  rw [Bus.giveRoles_table]
  simp only [Bus.recordAtClose]
  exact if_pos h

theorem Bus.giveRoles_chosen {b : Bus} {n : StationNo} {r : Role} (h : b.choose r = some n) :
    b.giveRoles.table[n] = { b.table[n] with role := some r, unanswered := 0 } := by
  obtain ⟨hown, hst, -⟩ := Bus.choose_heard h
  rw [Bus.giveRoles_table]
  simp only [Bus.recordAtClose]
  rw [if_neg (by tauto), Bus.roleFor_eq_some.mpr h]

theorem Bus.giveRoles_ignored {b : Bus} {n : StationNo} {k : StationKind} (hn : b.heard n k)
    (h : ∀ r : Role, r.stationKind = k → b.choose r ≠ some n) :
    b.giveRoles.table[n] = { b.table[n] with status := .ignored } := by
  have none : b.roleFor n = none := by
    cases hr : b.roleFor n with
    | none => rfl
    | some r =>
      have hc := Bus.roleFor_eq_some.mp hr
      exact absurd hc (h r (Bus.heard_kind (Bus.choose_heard hc) hn))
  obtain ⟨hown, hst, -⟩ := hn
  rw [Bus.giveRoles_table]
  simp only [Bus.recordAtClose]
  rw [if_neg (by tauto), none]

/-- With no role held before, a role is usable after the close when a station is chosen for it. -/
theorem Bus.giveRoles_usable {b : Bus} (h : ∀ n : StationNo, b.table[n].role = none) (r : Role) :
    b.giveRoles.usable r = true ↔ ∃ n, b.choose r = some n := by
  simp only [Bus.usable, List.any_eq_true, mem_stationNumbers, true_and, Bool.and_eq_true, beq_iff_eq]
  refine exists_congr fun n => ⟨fun ⟨hr, hst⟩ => ?_, fun hc => ?_⟩
  · by_cases ho : n = b.own ∨ b.table[n].status ≠ .adopted
    · rw [Bus.giveRoles_other ho, h n] at hr; cases hr
    · rw [Bus.giveRoles_table] at hr
      simp only [Bus.recordAtClose, if_neg ho] at hr
      split at hr
      · next r' hr' => cases hr; exact Bus.roleFor_eq_some.mp hr'
      · exact absurd hr (by rw [h n]; nofun)
  · rw [Bus.giveRoles_chosen hc]
    exact ⟨rfl, (Bus.choose_heard hc).2.1⟩

end Sys2Proof.Machine

namespace Sys2Proof.Machine

/-! ### The end of the roll call (R16, R202 step 6) -/

/-- What leaving STARTING may change: the power state, the panel, and the REPORT of the change. -/
theorem State.leaveStarting_spec (s : State) :
    s.leaveStarting = { s with
      bus := { s.bus with
        queue := s.leaveStarting.bus.queue, heldReport := s.leaveStarting.bus.heldReport }
      supply := { s.supply with power := s.leaveStarting.supply.power }
      disp := { s.disp with
        panel := s.leaveStarting.disp.panel, lit := s.leaveStarting.disp.lit } } := by
  have panel (t : State) : t.panelOn = { t with disp := { t.disp with
      panel := t.panelOn.disp.panel, lit := t.panelOn.disp.lit } } := by
    simp only [State.panelOn, State.mapDisp]
    split <;> rfl
  unfold State.leaveStarting
  split
  · split
    · rw [panel, State.setPower, State.reportIfChanged_spec]; rfl
    · split
      · rw [panel]
      · rfl
    · rfl
  · rfl

theorem State.triggerReport_keeps (s : State) (c : ReportCause) {f : OutFrame}
    (hf : f.isReport = false) (h : f ∈ s.bus.queue) : f ∈ (s.triggerReport c).bus.queue := by
  obtain e | ⟨held, e⟩ | ⟨before, old, new, after, -, hq, e⟩ | ⟨new, -, -, e⟩ :=
    s.triggerReport_cases c <;> rw [e]
  · exact h
  · exact h
  · rw [hq] at h
    simp only [List.mem_append, List.mem_cons] at h
    simp only [State.mapBus_bus, List.mem_append, List.mem_cons]
    rcases h with h | rfl | h
    · exact .inl h
    · cases hf
    · exact .inr (.inr h)
  · exact List.mem_append_left _ h

theorem State.leaveStarting_keeps (s : State) {f : OutFrame} (hf : f.isReport = false)
    (h : f ∈ s.bus.queue) : f ∈ s.leaveStarting.bus.queue := by
  unfold State.leaveStarting
  split
  · split
    · simp only [State.panelOn_bus, State.setPower, State.reportIfChanged]
      split
      · exact h
      · exact State.triggerReport_keeps _ _ hf h
    · split <;> exact h
    · exact h
  · exact h

/-- STARTING is left when the roll call and the homing are over, with the panel ON (R202 step 6). -/
theorem State.leaveStarting_starting {s : State} (hd : s.supply.rollCallDone = true)
    (hh : s.supply.homingDone = true) (hp : s.supply.power = .starting) :
    s.leaveStarting = (s.setPower .run).panelOn := by
  simp [State.leaveStarting, hd, hh, hp]

/-- In a power warning that came in STARTING only the panel becomes ON (R199). -/
theorem State.leaveStarting_warned {s : State} (hd : s.supply.rollCallDone = true)
    (hh : s.supply.homingDone = true) (hp : s.supply.power = .powerWarn)
    (hprior : s.supply.prior = .starting) : s.leaveStarting = s.panelOn := by
  simp [State.leaveStarting, hd, hh, hp, hprior]

theorem State.leaveStarting_waits {s : State} (h : s.supply.homingDone ≠ true ∨
    ¬ (s.supply.power = .starting ∨ s.supply.power = .powerWarn ∧ s.supply.prior = .starting)) :
    s.leaveStarting = s := by
  unfold State.leaveStarting
  split
  · next hb =>
    have hh : s.supply.homingDone = true := by simp_all
    have hn := h.resolve_left (not_not.mpr hh)
    split
    · next hp => exact absurd (.inl hp) hn
    · next hp => exact if_neg fun hprior => hn (.inr ⟨hp, hprior⟩)
    · rfl
  · rfl

theorem MechState.machine_ne_starting (m : MechState) : m.machine ≠ .starting := by
  cases m <;> decide

/-- The REPORT of the end of STARTING (R22). -/
theorem State.leaveStarting_reports {s : State} (hd : s.supply.rollCallDone = true)
    (hh : s.supply.homingDone = true) (hp : s.supply.power = .starting)
    (hc : s.bus.conflict = false) (hl : s.store.loadWaits = false)
    (hq : ∀ f ∈ s.bus.queue, f.isReport = false) :
    ∃ r, OutFrame.report r ∈ s.leaveStarting.bus.queue ∧ r.state = s.leaveStarting.machine := by
  rw [State.leaveStarting_starting hd hh hp]
  have changed : (s.mapSupply fun u => { u with power := .run }).reportIfChanged s.machine =
      (s.mapSupply fun u => { u with power := .run }).triggerReport .plain := by
    refine if_neg (not_or.mpr ⟨?_, by simp [hl]⟩)
    simpa [State.machine, hp] using s.seq.mech.machine_ne_starting
  have joins := State.triggerReport_of_none (s := s.mapSupply fun u => { u with power := .run })
    hc hq .plain
  rw [State.setPower, changed, joins]
  exact ⟨_, List.mem_append_right _ (List.mem_singleton_self _), rfl⟩

/-- The state in which the roll call has ended, before STARTING is left. -/
def State.rollCalled (s : State) : State :=
  let given := s.mapBus Bus.giveRoles
  ((((given.enqueueFrame (.summary given.bus.summaryPairs)).mapSpell fun u =>
    { u with hadPrimary := given.bus.usable .primary, hadSecondary := given.bus.usable .secondary
      }).tellKeyboard).mapSupply fun u => { u with rollCallDone := true })

theorem State.enqueueFrame_spec (s : State) (f : OutFrame) : s.enqueueFrame f =
    { s with bus := { s.bus with queue := (s.enqueueFrame f).bus.queue } } := by
  unfold State.enqueueFrame
  split <;> rfl

theorem State.rollCalled_spec (s : State) : s.rollCalled = { s with
    bus := { s.bus.giveRoles with queue := s.rollCalled.bus.queue }
    spell := { s.spell with
      hadPrimary := s.bus.giveRoles.usable .primary, hadSecondary := s.bus.giveRoles.usable .secondary }
    disp := { s.disp with standing := { s.disp.standing with
      noKeyboard := !s.bus.giveRoles.usable .keyboard } }
    supply := { s.supply with rollCallDone := true } } := by
  simp only [State.rollCalled]
  rw [State.enqueueFrame_spec]
  rfl

theorem State.rollCalled_queue {s : State} (h : s.bus.conflict = false) :
    s.rollCalled.bus.queue = s.bus.queue ++ [.summary s.bus.giveRoles.summaryPairs] := by
  have h' : (s.mapBus Bus.giveRoles).bus.conflict = false := h
  simp only [State.rollCalled, State.enqueueFrame, h']
  rfl

/-! The records at the close, kind by kind -/

theorem Bus.giveRoles_keyboard {b : Bus} {n : StationNo} (h : b.heard n .keyboard)
    {_ : Decidable (∃ m, b.heard m .keyboard ∧ m < n)} : b.giveRoles.table[n] =
      if ∃ m, b.heard m .keyboard ∧ m < n then { b.table[n] with status := .ignored }
      else { b.table[n] with role := some .keyboard, unanswered := 0 } := by
  split
  · next hm =>
    obtain ⟨m, hm, hlt⟩ := hm
    refine Bus.giveRoles_ignored h fun r hr hc => ?_
    cases r <;> cases hr
    exact absurd ((Bus.choose_keyboard.mp hc).2 m hm) (not_le.mpr hlt)
  · next hm =>
    push Not at hm
    exact Bus.giveRoles_chosen (Bus.choose_keyboard.mpr ⟨h, hm⟩)

theorem Bus.giveRoles_source {b : Bus} {n : StationNo} (h : b.heard n .source)
    {_ : Decidable (∃ m, b.heard m .source ∧ m < n)}
    {_ : Decidable (∃ l m, b.heard l .source ∧ b.heard m .source ∧ l < m ∧ m < n)} :
    b.giveRoles.table[n] =
      if ∃ l m, b.heard l .source ∧ b.heard m .source ∧ l < m ∧ m < n then
        { b.table[n] with status := .ignored }
      else if ∃ m, b.heard m .source ∧ m < n then
        { b.table[n] with role := some .source2, unanswered := 0 }
      else { b.table[n] with role := some .source1, unanswered := 0 } := by
  obtain ⟨p, hp⟩ := Bus.exists_lowest h
  split
  · next hm =>
    obtain ⟨l, m, hl, hm, hlm, hmn⟩ := hm
    refine Bus.giveRoles_ignored h fun r hr hc => ?_
    cases r <;> cases hr
    · exact absurd ((Bus.choose_source1.mp hc).2 m hm) (not_le.mpr hmn)
    · obtain ⟨p, hp, -, -, hn⟩ := Bus.choose_source2.mp hc
      exact absurd (hn m hm ((hp.2 l hl).trans_lt hlm).ne') (not_le.mpr hmn)
  · next hno =>
    split
    · next hm =>
      obtain ⟨m, hm, hmn⟩ := hm
      refine Bus.giveRoles_chosen (Bus.choose_source2.mpr
        ⟨p, hp, h, ((hp.2 m hm).trans_lt hmn).ne', fun l hl hlp => not_lt.mp fun hln => ?_⟩)
      exact hno ⟨p, l, hp.1, hl, lt_of_le_of_ne (hp.2 l hl) hlp.symm, hln⟩
    · next hm =>
      push Not at hm
      exact Bus.giveRoles_chosen (Bus.choose_source1.mpr ⟨h, hm⟩)

/-- A dictionary and a later one in its language. -/
def Bus.inLanguage (b : Bus) (m n : StationNo) : Prop :=
  b.heard m .dictionary ∧ b.heard n .dictionary ∧ m < n ∧ b.table[m].ability1 = b.table[n].ability1

/-- Of the dictionaries behind the lowest, the next in its language gets a role (R15). -/
theorem Bus.giveRoles_dictionary {b : Bus} {p n : StationNo} (hp : b.lowest p .dictionary)
    (h : b.heard n .dictionary) (hpn : p < n)
    {_ : Decidable (b.inLanguage p n ∧ ∀ m, b.inLanguage p m → n ≤ m)} : b.giveRoles.table[n] =
      if b.inLanguage p n ∧ ∀ m, b.inLanguage p m → n ≤ m then
        { b.table[n] with role := some .secondary, unanswered := 0 }
      else { b.table[n] with status := .ignored } := by
  split
  · next hm =>
    obtain ⟨⟨-, -, -, hlang⟩, first⟩ := hm
    exact Bus.giveRoles_chosen (Bus.choose_secondary.mpr ⟨p, hp, h, hpn.ne', hlang.symm,
      fun m hm hmp hml => first m ⟨hp.1, hm, lt_of_le_of_ne (hp.2 m hm) hmp.symm, hml.symm⟩⟩)
  · next hno =>
    refine Bus.giveRoles_ignored h fun r hr hc => hno ?_
    cases r <;> cases hr
    · exact absurd ((Bus.choose_primary.mp hc).2 p hp.1) (not_le.mpr hpn)
    · obtain ⟨p', hp', -, -, hlang, first⟩ := Bus.choose_secondary.mp hc
      rw [Bus.lowest_unique hp' hp] at hlang first
      exact ⟨⟨hp.1, h, hpn, hlang.symm⟩, fun m ⟨_, hm, hpm, hml⟩ => first m hm hpm.ne' hml.symm⟩

theorem Bus.exists_secondary {b : Bus} : (∃ n, b.choose .secondary = some n) ↔
    ∃ p n, b.inLanguage p n ∧ ∀ m, b.heard m .dictionary → p ≤ m := by
  constructor
  · rintro ⟨n, hn⟩
    obtain ⟨p, hp, hn, hne, hlang, -⟩ := Bus.choose_secondary.mp hn
    exact ⟨p, n, ⟨hp.1, hn, lt_of_le_of_ne (hp.2 n hn) hne.symm, hlang.symm⟩, hp.2⟩
  · rintro ⟨p, n, ⟨hp, hn, hpn, hlang⟩, lowest⟩
    have hchoose : b.choose .primary = some p := Bus.choose_primary.mpr ⟨hp, lowest⟩
    obtain ⟨m, hm⟩ := Bus.exists_lowestOf (b := b) (k := .dictionary)
      (p := fun n => n != p && b.table[n].ability1 == b.table[p].ability1) hn
      (by simpa [hpn.ne'] using hlang.symm)
    refine ⟨m, ?_⟩
    have hl : (b.lowestOf .dictionary fun _ => true) = some p := hchoose
    simp only [Bus.choose, hl, hm]

/-- Settles O16: the roles are `giveRoles`'s, and what follows is the leaving of STARTING. -/
theorem rollCallGivesRoles : Obligations.RollCallGivesRoles := by
  intro s hr hw heard inLanguage
  have run : exec .rollWindowClose s = .next s.rollCalled.leaveStarting := by
    simp only [exec, execRollWindowClose, State.whenRunning_eq hr, hw, if_true]
    rfl
  have spec := s.rollCalled_spec
  have left := s.rollCalled.leaveStarting_spec
  have table : s.rollCalled.leaveStarting.bus.table = s.bus.giveRoles.table := by rw [left, spec]
  have language : s.rollCalled.leaveStarting.bus.language = s.bus.giveRoles.language := by
    rw [left, spec]
  have done : s.rollCalled.supply.rollCallDone = true := rfl
  have homed' : s.rollCalled.supply.homingDone = s.supply.homingDone := by rw [spec]
  have lowestDictionary {p : StationNo} (hp : heard p .dictionary)
      (first : ∀ m, heard m .dictionary → p ≤ m) : s.bus.lowest p .dictionary := ⟨hp, first⟩
  refine ⟨_, run, ?_, ?_, fun n hn => ?_, fun n hn => ?_, fun n hn => ?_, fun n hn => ?_,
    fun n hn first => ⟨?_, ?_⟩, fun p n hp first hn hpn => ?_, fun hno => ?_, fun hc => ?_,
    fun hroles => ⟨?_, ?_, ?_⟩, ?_, ?_, ?_, ?_, ?_, ?_, ?_, ?_, ?_⟩
  · rw [left, spec]; rfl
  · rw [left]; rfl
  · rw [table]; exact Bus.giveRoles_other hn
  · rw [table]
    exact Bus.giveRoles_ignored hn fun r hk => by cases r <;> cases hk
  · rw [table]; exact Bus.giveRoles_keyboard hn
  · rw [table]; exact Bus.giveRoles_source hn
  · rw [table]; exact Bus.giveRoles_chosen (Bus.choose_primary.mpr ⟨hn, first⟩)
  · rw [language]
    show (s.bus.choose .primary).map _ = _
    rw [Bus.choose_primary.mpr ⟨hn, first⟩]; rfl
  · rw [table]; exact Bus.giveRoles_dictionary (lowestDictionary hp first) hn hpn
  · rw [language]
    show (s.bus.choose .primary).map _ = _
    cases hp : s.bus.choose .primary with
    | none => rfl
    | some p => exact absurd (Bus.choose_heard hp) (hno p)
  · rw [table]
    refine State.leaveStarting_keeps _ rfl ?_
    rw [State.rollCalled_queue hc]
    exact List.mem_append_right _ (List.mem_singleton_self _)
  · rw [left, spec]
    simp only [Bool.not_eq_true', ← Bool.not_eq_true, Bus.giveRoles_usable hroles, not_exists]
    refine ⟨fun h n hn => ?_, fun h n hn => h n (Bus.choose_heard hn)⟩
    obtain ⟨p, hp⟩ := Bus.exists_lowest hn
    exact h p (Bus.choose_keyboard.mpr hp)
  · rw [left, spec]
    refine (Bus.giveRoles_usable hroles .primary).trans ⟨fun ⟨n, hn⟩ => ⟨n, Bus.choose_heard hn⟩, ?_⟩
    rintro ⟨n, hn⟩
    obtain ⟨p, hp⟩ := Bus.exists_lowest hn
    exact ⟨p, Bus.choose_primary.mpr hp⟩
  · rw [left, spec]
    exact (Bus.giveRoles_usable hroles .secondary).trans Bus.exists_secondary
  · rw [left, spec]
  · intro homed starting warned
    have supply : s.rollCalled.supply = { s.supply with rollCallDone := true } := by rw [spec]
    have disp : s.rollCalled.disp.panel = s.disp.panel ∧ s.rollCalled.disp.lit = s.disp.lit := by
      rw [spec]; exact ⟨rfl, rfl⟩
    have power : s.rollCalled.supply.power = s.supply.power := by rw [supply]
    have prior : s.rollCalled.supply.prior = s.supply.prior := by rw [supply]
    refine ⟨?_, fun hh hw => ?_, fun hn => ?_, fun hh hs hc hl hq => ?_⟩
    · by_cases hs : homed ∧ starting
      · rw [if_pos hs, State.leaveStarting_starting done (homed'.trans hs.1) (power.trans hs.2)]
        simp [State.setPower, supply]
      · rw [if_neg hs]
        by_cases hwarn : homed ∧ warned
        · rw [State.leaveStarting_warned done (homed'.trans hwarn.1) (power.trans hwarn.2.1)
            (prior.trans hwarn.2.2), State.panelOn_supply, supply]
        · rw [State.leaveStarting_waits, supply]
          rw [homed', power, prior]
          exact or_iff_not_imp_left.mpr fun h k => k.elim
            (fun k => hs ⟨not_not.mp h, k⟩) fun k => hwarn ⟨not_not.mp h, k⟩
    · rcases hw with hs | ⟨hp, hprior⟩
      · rw [State.leaveStarting_starting done (homed'.trans hh) (power.trans hs)]
        exact State.panelOn_panel _
      · rw [State.leaveStarting_warned done (homed'.trans hh) (power.trans hp) (prior.trans hprior)]
        exact State.panelOn_panel _
    · rw [State.leaveStarting_waits]
      · exact disp
      · rw [homed', power, prior]; exact hn
    · refine State.leaveStarting_reports done (homed'.trans hh) (power.trans hs) ?_ ?_ ?_
      · rw [spec]; exact hc
      · rw [spec]; exact hl
      · rw [State.rollCalled_queue hc]
        intro f hf
        rcases List.mem_append.mp hf with hf | hf
        · exact hq f hf
        · rw [List.mem_singleton.mp hf]; rfl
  all_goals rw [left, spec]

end Sys2Proof.Machine

namespace Sys2Proof.Machine

/-! ### The head key (R26 to R32) -/

/-- A command that examines the head key and is the row of a code. -/
def examines (c : Instr) (code : Nat) : Prop :=
  ∃ ours act, (∀ s, exec c s = .next (s.examineKey ours act)) ∧ ours code = true

/-- The row of every key code examines the head key (R27). -/
theorem examines_of_keyCommand {code : Nat} {c : Instr} (h : keyCommand code = some c) :
    examines c code := by
  unfold keyCommand at h
  rw [Option.orElse_eq_orElse, Option.orElse_eq_or, Option.or_eq_some_iff] at h
  rcases h with h | ⟨-, h⟩
  · obtain ⟨before, after, split, -⟩ := List.lookup_eq_some_iff.mp h
    have row : (code, c) ∈ before ++ (code, c) :: after := by simp
    rw [← split] at row
    refine (?_ : ∀ p ∈ _, examines p.2 p.1) (code, c) row
    simp only [List.forall_mem_cons, List.not_mem_nil, IsEmpty.forall_iff, implies_true, and_true]
    and_intros <;> exact ⟨_, _, fun _ => rfl, rfl⟩
  · split at h
    · next hc => cases h; exact ⟨_, _, fun _ => rfl, hc⟩
    · cases h

/-- A change of the owner changes no condition for the head key but the owner. -/
theorem State.KeyDue.setOwner {s : State} {k : Keystroke} {rest : List Keystroke} (h : s.KeyDue k rest)
    {o : Owner} (ho : o.source = none) : (s.setOwner o).KeyDue k rest := by
  have spec := s.setOwner_spec o
  refine ⟨⟨?_, ?_, ?_⟩, ?_, by simpa using ho⟩
  · rw [spec]; exact h.keys
  · rw [spec]; exact h.running
  · rw [spec]; exact h.consuming
  · rw [spec]; exact h.notHalted

/-- A head key that needs the line is granted it first, when no one owns it (R28). -/
theorem State.examineKey_claims {s : State} {k : Keystroke} {rest : List Keystroke}
    (h : s.KeyDue k rest) {ours : Nat → Bool} (hc : ours k.code = true)
    (act : Keystroke → State → KeyOutcome) (hl : claimsLine k.code = true)
    (ho : s.intake.owner = .none) :
    s.examineKey ours act = (s.setOwner .keyboard).examineKey ours act := by
  have claimed : s.claimLine k = s.setOwner .keyboard := by
    simp [State.claimLine, hl, State.arbitrate, ho, Intake.keyboardClaims, h.keys]
  rw [State.examineKey_due (h.setOwner rfl) hc act fun _ => by simp]
  unfold State.examineKey
  rw [h.keys]
  have popped : (s.setOwner .keyboard).popKey = (s.setOwner .keyboard).withoutKey rest :=
    State.popKey_eq (by simpa using h.keys)
  simp only [h.running, h.consuming, hc, h.notHalted, h.noSource, claimed, popped]
  simp

/-- Settles O17: the arbiter's order is its definition's, and a line key meets the arbiter before its
effect. -/
theorem arbiterGrants : Obligations.ArbiterGrants := by
  have claims (s : State) : s.intake.keyboardClaims = s.intake.keys.head?.any fun k =>
      (32 ≤ k.code && k.code ≤ 159) || (1 ≤ k.code && k.code ≤ 11) || k.code == 18 ||
        k.code == 27 || k.code == 28 := by
    unfold Intake.keyboardClaims
    cases s.intake.keys with
    | nil => rfl
    | cons k rest => simp [claimsLine, isPrintingKey, isLineKey, Bool.or_assoc]
  have granted (s : State) (o : Owner) : (s.setOwner o).lines.current.owner = o := by
    rw [State.setOwner_spec]
  have mode (s : State) (o : Owner) : (s.setOwner o).lines.current.mode = match o with
      | .source1 | .source2 => .hold
      | .keyboard => s.lines.current.mode
      | .none => s.lines.keyboardMode := by
    simp only [State.setOwner, State.triggerReport_lines]
    cases o <;> rfl
  refine ⟨fun s => ?_, fun s o => ?_, fun s c k rest h hk hl ho => ?_⟩
  · intro claim t
    have hclaim : claim = s.intake.keyboardClaims := (claims s).symm
    refine ⟨s.arbitrate_ownershipOnly, State.arbitrate_owned, fun ho => ⟨fun hc => ?_, fun hc h1 => ?_,
      fun hc h1 h2 => ?_, fun hc h1 h2 => ?_⟩⟩
    · have e : t = s.setOwner .keyboard := by simp [t, State.arbitrate, ho, ← hclaim, hc]
      rw [e]; exact ⟨by simp, granted s _, mode s _⟩
    · have e : t = s.setOwner .source1 := by simp [t, State.arbitrate, ho, ← hclaim, hc, h1]
      rw [e]; exact ⟨by simp, granted s _, mode s _⟩
    · have e : t = s.setOwner .source2 := by simp [t, State.arbitrate, ho, ← hclaim, hc, h1, h2]
      rw [e]; exact ⟨by simp, granted s _, mode s _⟩
    · simp [t, State.arbitrate, ho, ← hclaim, hc, h1, h2]
  · intro md
    unfold State.setOwner
    cases o <;> rfl
  · obtain ⟨ours, act, hexec, hours⟩ := examines_of_keyCommand hk
    refine ⟨?_, by simp, ?_, State.setOwner_ownershipOnly (by simp [ho])⟩
    · rw [hexec, hexec, State.examineKey_claims h hours act hl ho]
    · rw [State.setOwner_spec, mode]

/-- What a refusal may change (R32). -/
theorem State.refusedAs_spec (s : State) (k : Keystroke) (rest : List Keystroke) (m : Option Message) :
    s.refusedAs k rest m = { s with
      intake := { s.intake with keys := rest }
      disp := (s.refusedAs k rest m).disp
      alert := (s.refusedAs k rest m).alert } := by
  have message (t : State) : t.showOptional m = { t with disp := (t.showOptional m).disp } := by
    unfold State.showOptional State.showMessage
    repeat' split
    all_goals rfl
  unfold State.refusedAs
  dsimp only
  rw [message]
  split
  · rfl
  · rw [State.requestAlert_congr (s := s.withoutKey rest) rfl rfl]
    rfl

/-- REFUSE is asked for unless the key is a repeat (R32). -/
theorem State.refusedAs_alert (s : State) (k : Keystroke) (rest : List Keystroke) (m : Option Message) :
    (s.refusedAs k rest m).alert = if k.isRepeat then s.alert else (s.requestAlert .refuse).alert := by
  simp only [State.refusedAs, State.showOptional_alert]
  split
  · rfl
  · rw [State.requestAlert_congr (s := s) (t := s.withoutKey rest) rfl rfl]

theorem State.refusedAs_disp_none (s : State) (k : Keystroke) (rest : List Keystroke) :
    (s.refusedAs k rest none).disp = { s.disp with transient := none } := by
  simp only [State.refusedAs, State.showOptional]
  split
  · rfl
  · rw [State.requestAlert_disp]; rfl

theorem State.refusedAs_disp_some (s : State) (k : Keystroke) (rest : List Keystroke) (m : Message) :
    (s.refusedAs k rest (some m)).disp =
      if s.disp.panel = .on ∧ s.disp.standing.conflict = false ∧ s.disp.standing.halt = none then
        { s.disp with transient := some m }
      else { s.disp with transient := none } := by
  simp only [State.refusedAs, State.showOptional]
  generalize ht : (if k.isRepeat then s.withoutKey rest else
    (s.withoutKey rest).requestAlert .refuse) = t
  have hd : t.disp = { s.disp with transient := none } := by
    rw [← ht]
    split
    · rfl
    · rw [State.requestAlert_disp]; rfl
  simp only [State.showMessage, hd]
  split
  · simp [hd]
  · exact hd

/-- Settles O18: the two refusals stand before every row's own effect. -/
theorem keysRefusedByTheState : Obligations.KeysRefusedByTheState := by
  have source {s : State} (ho : s.intake.owner = .source1 ∨ s.intake.owner = .source2) :
      s.afterKey false = s := by
    rcases ho with ho | ho <;>
      simp [State.afterKey, State.lapsesEmpty, State.lapsesLost, State.arbitrate, ho]
  refine ⟨fun s c k rest h hk => ?_, fun s k rest m => ?_⟩
  · obtain ⟨ours, act, hexec, hours⟩ := examines_of_keyCommand hk
    have examined : s.examineKey ours act =
        if s.machine = .halted ∧ k.code ≠ clearCode then s.refuseKey k none
        else if s.intake.owner.source.isSome ∧ allowedUnderSource k.code = false then
          s.refuseKey k none
        else (s.claimLine k).carryKey k (act k (s.claimLine k).popKey) := by
      simp [State.examineKey, h.keys, h.running, h.consuming, hours]
    have fields := s.refusedAs_spec k rest none
    refine ⟨fun hm hk => ⟨_, ?_, State.afterKey_leaves ?_⟩, fun hm ho h29 h30 h31 h27 h28 => ?_⟩
    · rw [hexec, examined, if_pos ⟨hm, hk⟩, State.refuseKey_eq h.keys]
    · rw [fields]; exact h.running
    · have refused : s.intake.owner.source.isSome ∧ allowedUnderSource k.code = false := by
        refine ⟨by rcases ho with ho | ho <;> simp [ho, Owner.source], ?_⟩
        simp [allowedUnderSource, stopJobCode, clearCode, h29, h30, h31, h27, h28]
      rw [hexec, examined, if_neg (fun h => hm h.1), if_pos refused, State.refuseKey_eq h.keys, source]
      rw [fields]; exact ho
  · intro t
    have unit {α : Type} (f : State → α) := congrArg f (s.refusedAs_spec k rest m)
    have alert := s.refusedAs_alert k rest m
    refine ⟨unit State.intake, unit State.lines, unit State.esc, unit State.seq, unit State.corr,
      unit State.spell, unit State.wheel, unit State.store, unit State.supply, unit State.bus,
      unit State.pins, fun hr => alert.trans (if_pos hr),
      fun hr => alert.trans (if_neg (by simp [hr])), ?_, ?_⟩
    · rintro rfl; exact s.refusedAs_disp_none k rest
    · rintro text rfl
      refine ⟨fun hp hc hh => (s.refusedAs_disp_some k rest text).trans (if_pos ⟨hp, hc, hh⟩),
        fun hno => (s.refusedAs_disp_some k rest text).trans (if_neg ?_)⟩
      rintro ⟨hp, hc, hh⟩
      rcases hno with hno | hno | hno
      · exact hno hp
      · rw [hc] at hno; cases hno
      · exact hno hh

end Sys2Proof.Machine

namespace Sys2Proof.Machine

/-! ### The head of the print queue, and REPORT triggers (R22, R117, R118) -/

theorem queuedReport_append {before after : List OutFrame} {old : Report}
    (h : ∀ f ∈ before, f.isReport = false) :
    queuedReport (before ++ .report old :: after) = some (before.length, old) := by
  induction before with
  | nil => rfl
  | cons f before ih =>
    obtain ⟨hf, hb⟩ := List.forall_mem_cons.mp h
    have := ih hb
    cases f with
    | report r => cases hf
    | roll | summary _ | query _ _ _ => simp [queuedReport, this]

/-- What a trigger does while a REPORT is queued (R22, R23). -/
theorem State.triggerReport_of_some {s : State} (hc : s.bus.conflict = false)
    {before after : List OutFrame} {old : Report} (hq : s.bus.queue = before ++ .report old :: after)
    (hb : ∀ f ∈ before, f.isReport = false) (c : ReportCause) :
    s.triggerReport c =
      if s.bus.sending = some before.length then
        { s with bus := { s.bus with
          heldReport := some ((s.bus.heldReport.getD .plain).merge c) } }
      else { s with bus := { s.bus with
        queue := before ++ .report (s.buildReport (old.cause.merge c) old.start) :: after } } := by
  have queued : queuedReport s.bus.queue = some (before.length, old) := by
    rw [hq, queuedReport_append hb]
  have set (r : Report) : s.bus.queue.set before.length (.report r) = before ++ .report r :: after := by
    rw [hq]; simp
  simp [State.triggerReport, hc, queued, set, State.mapBus]

/-- The head action starts, with this drive. -/
def State.startsHead (s : State) (d : Option Drive) : State :=
  (s.mapSeq fun q => { q with work := some (.action d), headStarted := true }).setMech .running none none

/-- The examination of a head whose mechanism is free, with nothing else to do first (R117). -/
theorem State.examineHead_action {s : State} (hw : s.seq.work = none) (hp : s.seq.mech ≠ .parked)
    (hh : s.seq.mech ≠ .halted) (hc : s.pins.coverOpen = false) (hold : s.seq.hold = false)
    (hr : s.seq.readDue = false) {a : Action} {q : List Action} (hq : s.seq.queue = a :: q) :
    s.examineHead =
      match s.headCase a with
      | .wait need => s.setMech .waitingWheel none (some need)
      | .pauseRibbon => s.setMech .paused (some .ribbon) none
      | .start d => s.startsHead d := by
  simp [State.examineHead, hw, hp, hh, hc, hold, hr, hq]
  rfl

/-- A WHEEL-READ that is due goes first (R117). -/
theorem State.examineHead_reads {s : State} (hw : s.seq.work = none) (hp : s.seq.mech ≠ .parked)
    (hh : s.seq.mech ≠ .halted) (hc : s.pins.coverOpen = false) (hold : s.seq.hold = false)
    (hr : s.seq.readDue = true) :
    s.examineHead.seq = { s.seq with work := some .wheelRead, mech := .running } := by
  have e : s.examineHead =
      (s.mapSeq fun q => { q with work := some .wheelRead }).setMech .running none none := by
    simp [State.examineHead, hw, hp, hh, hc, hold, hr]
  rw [e, State.setMech_spec]
  rfl

/-- Settles O42: by the cases of `examineHead`, and of a trigger with and without a queued REPORT. -/
theorem headExamined : Obligations.HeadExamined := by
  refine ⟨fun s => ?_, fun s c => ?_⟩
  · intro t
    refine ⟨fun h => ?_, fun hw hp hh => ⟨fun hc => ?_, fun hc hold => ?_, fun hc hold => ⟨fun hr => ?_,
      fun hr hq => ?_, fun hr a q hq => ?_⟩⟩, fun m pause need => ?_⟩
    · have busy : (s.seq.work.isSome || s.seq.mech == .parked || s.seq.mech == .halted) = true := by
        rcases h with h | h | h
        · simp [Option.isSome_iff_ne_none.mpr h]
        · simp [h]
        · simp [h]
      exact if_pos busy
    · simp [t, State.examineHead, hw, hp, hh, hc]
    · simp [t, State.examineHead, hw, hp, hh, hc, hold]
    · exact State.examineHead_reads hw hp hh hc hold hr
    · simp [t, State.examineHead, hw, hp, hh, hc, hold, hr, hq]
    · have e : t = _ := State.examineHead_action hw hp hh hc hold hr hq
      intro starts
      have begun {d : Option Drive} (h : s.headCase a = .start d) : starts d := by
        rw [h] at e
        rw [show starts d = (t.seq = _) from rfl, e]
        simp only [State.startsHead]
        rw [State.setMech_spec]
        rfl
      refine ⟨?_, ?_, ?_⟩
      · rintro b rfl
        refine ⟨fun hm => ?_, fun f hm => ⟨fun hf => ?_, fun hf ho => ?_, fun hf ho => begun ?_⟩⟩
        · simpa [State.headCase, hm] using e
        · simpa [State.headCase, hm, hf] using e
        · simpa [State.headCase, hm, hf, ho] using e
        · simp [State.headCase, hm, hf, ho]
      · rintro b g rfl
        refine ⟨fun hm => ?_, fun f hm => ⟨fun hf => ?_, fun hf => begun ?_⟩⟩
        · simpa [State.headCase, hm] using e
        · simpa [State.headCase, hm, hf] using e
        · simp [State.headCase, hm, hf]
      · rintro (⟨x, rfl⟩ | ⟨d, x, rfl⟩) <;> exact begun rfl
    · exact ⟨fun h => if_pos h, fun h hl =>
        if_neg (not_or.mpr ⟨h, by simp [hl]⟩)⟩
  · intro report later b
    have later_eq (new old : Option Nat) : later new old = (new <|> old) := by
      cases new <;> rfl
    refine ⟨fun hc => ?_, fun hc hq => ?_, fun hc before old after hq hb => ⟨fun hs => ?_, fun hs => ?_⟩⟩
    · simp [State.triggerReport, show s.bus.conflict = true from hc]
    · exact State.triggerReport_of_none hc hq c
    · rw [State.triggerReport_of_some hc hq hb, if_neg hs, later_eq, later_eq]
      rfl
    · intro held
      rw [State.triggerReport_of_some hc hq hb, if_pos hs, later_eq, later_eq]
      rfl

end Sys2Proof.Machine

namespace Sys2Proof.Machine

/-! ### The cover, the ribbon and a new tape (R56, R126, R137) -/

theorem MechState.machine_ne_standby (m : MechState) : m.machine ≠ .standby := by
  cases m <;> decide

theorem MechState.machine_ne_powerWarn (m : MechState) : m.machine ≠ .powerWarn := by
  cases m <;> decide

theorem State.machine_eq_standby (s : State) : s.machine = .standby ↔ s.supply.power = .standby := by
  unfold State.machine
  cases s.supply.power <;> simp [MechState.machine_ne_standby]

theorem State.machine_eq_powerWarn (s : State) :
    s.machine = .powerWarn ↔ s.supply.power = .powerWarn := by
  unfold State.machine
  cases s.supply.power <;> simp [MechState.machine_ne_powerWarn]

/-- When the ribbon is watched (R56, R129; log 14). -/
theorem State.ribbonWatched_iff {s : State} (hr : s.stopped = false) :
    s.ribbonWatched = true ↔ s.supply.power ≠ .standby ∧
      ¬ (s.seq.mech = .parked ∧ s.supply.power = .powerWarn ∧ s.supply.prior = .standby) := by
  simp [State.ribbonWatched, hr, ← State.machine_eq_standby]
  tauto

theorem State.inputsWatched_iff {s : State} (hr : s.stopped = false) :
    s.inputsWatched = true ↔ s.seq.mech ≠ .parked := by
  simp [State.inputsWatched, hr]

/-- The state with the cover closed while it is watched: read due is set, and a new tape counts 900 (R126,
R137). -/
def State.withCoverClosed (s : State) : State :=
  { s with
    pins := { s.pins with coverOpen := false }
    seq := { s.seq with readDue := true }
    corr := { s.corr with
      tape := if s.corr.newTape = true then 900 else s.corr.tape, newTape := false } }

/-- The close of a watched cover, with the REPORT of a low tape's exchange (R22, R138). -/
theorem State.coverClosed_eq (s : State) :
    (s.mapPins fun p => { p with coverOpen := false }).coverClosed =
      (if s.corr.newTape = true ∧ s.corr.tape ≤ 50 then
        s.withCoverClosed.triggerReport ⟨true, none, none⟩ else s.withCoverClosed).examineHead := by
  unfold State.coverClosed
  by_cases hn : s.corr.newTape = true
  · simp [State.setTape, State.withCoverClosed, hn, State.mapPins, State.mapSeq, State.mapCorr,
      Config.newTapeCount]
  · have same : ({ s.corr with newTape := false } : Correction) = s.corr := by
      rw [Bool.not_eq_true] at hn
      rw [← hn]
    simp [State.withCoverClosed, hn, State.mapPins, State.mapSeq, same]

/-- Settles O49: by the power state, which decides what is watched. -/
theorem coverRibbonAndTape : Obligations.CoverRibbonAndTape := by
  intro s hr watched parkedWarning
  have opens : exec .coverOpen s = .next (if s.inputsWatched then
      (s.mapPins fun p => { p with coverOpen := true }).coverOpened
      else s.mapPins fun p => { p with coverOpen := true }) := rfl
  have closes : exec .coverClose s = .next (if s.pins.coverOpen && s.inputsWatched then
      (s.mapPins fun p => { p with coverOpen := false }).coverClosed
      else s.mapPins fun p => { p with coverOpen := false }) := rfl
  have ribbon (kind : RibbonKind) : exec (.ribbonKindChange kind) s = .next
      (if s.ribbonWatched = true ∧ s.wheel.ribbon ≠ kind then
        ((s.mapPins fun p => { p with ribbon := kind }).mapWheel fun w =>
          { w with ribbon := kind }).examineHead
      else s.mapPins fun p => { p with ribbon := kind }) := rfl
  have tape : exec .tapeNew s = .next (if s.pins.coverOpen = false then s
      else if s.seq.mech = .parked then s.mapPins fun p => { p with freshTape := true }
      else s.mapCorr fun c => { c with newTape := true }) := by
    simp [exec, execTapeNew, hr]
  have seen : watched → s.inputsWatched = true := (State.inputsWatched_iff hr).mpr
  have unseen (h : ¬ watched) : s.inputsWatched = false :=
    Bool.eq_false_iff.mpr (mt (State.inputsWatched_iff hr).mp h)
  have watchedRibbon := State.ribbonWatched_iff hr
  refine ⟨fun hw => ?_, fun hw ho => ?_, fun hw ho => ?_, fun kind hp hn hk => ?_, fun kind h => ?_,
    fun hw ho => ?_, fun ho => ?_, fun hw => ⟨?_, ?_, fun ho => ?_⟩⟩
  · rw [opens, if_pos (seen hw)]; rfl
  · intro closed
    rw [closes, if_pos (by simp [ho, seen hw]), State.coverClosed_eq]
    refine ⟨fun hn ht => ?_, fun h => ?_⟩
    · rw [if_pos ⟨hn, ht⟩]; rfl
    · rw [if_neg]
      · rfl
      · rintro ⟨hn, ht⟩
        rcases h with h | h
        · rw [h] at hn; cases hn
        · omega
  · refine ⟨_, by rw [closes, if_pos (by simp [ho, seen hw]), State.coverClosed_eq], ?_⟩
    generalize hv : (if s.corr.newTape = true ∧ s.corr.tape ≤ 50 then
      s.withCoverClosed.triggerReport ⟨true, none, none⟩ else s.withCoverClosed) = v
    have spec : v = { s.withCoverClosed with
        bus := { s.bus with queue := v.bus.queue, heldReport := v.bus.heldReport } } := by
      rw [← hv]
      split
      · exact State.triggerReport_spec _ _
      · rfl
    have examined := v.examineHead_spec
    have seq : v.seq = { s.seq with readDue := true } := by rw [spec]; rfl
    refine ⟨?_, ?_, fun hwork hh hold => ?_, ?_, ?_, ?_, ?_, ?_⟩
    · rw [examined, spec]; rfl
    · rw [examined, spec]; rfl
    · rw [State.examineHead_reads (by rw [seq]; exact hwork) (by rw [seq]; exact hw)
        (by rw [seq]; exact hh) (by rw [spec]; rfl) (by rw [seq]; exact hold) (by rw [seq]), seq]
    all_goals rw [examined, spec]; rfl
  · rw [ribbon, if_pos ⟨watchedRibbon.mpr ⟨hp, hn⟩, hk⟩]; rfl
  · rw [ribbon, if_neg]
    · rfl
    · rintro ⟨hrib, hk⟩
      obtain ⟨hp, hn⟩ := watchedRibbon.mp hrib
      rcases h with h | h | h
      · exact hp h
      · exact hn h
      · exact hk h
  · rw [tape, if_neg (by simp [ho]), if_neg hw]; rfl
  · rw [tape, if_pos ho]
  · rw [opens, if_neg (by simp [unseen hw])]; rfl
  · rw [closes, if_neg (by simp [unseen hw])]; rfl
  · rw [tape, if_neg (by simp [ho]), if_pos (not_not.mp hw)]; rfl

end Sys2Proof.Machine

namespace Sys2Proof.Machine

/-! ### The power warning, STANDBY and the stops (R129, R196 to R202) -/

theorem NextWrite.congr {s s' : State} {u v : StoreUnit} (h : NextWrite s u v)
    (settings : s.settingsNow = s'.settingsNow) (tape : s.corr.tape = s'.corr.tape)
    (words : s.spell.userWords = s'.spell.userWords) : NextWrite s' u v :=
  ⟨h.busy, settings ▸ h.settings, tape ▸ h.tape, words ▸ h.userList, h.clean⟩

/-- The tape block marked dirty is written when its turn comes, with the contents that stand in `s`
(R196). -/
theorem State.markTapeDirty_spec {s t : State} (store : t.store = s.store)
    (settings : t.settingsNow = s.settingsNow) (tape : t.corr.tape = s.corr.tape)
    (words : t.spell.userWords = s.spell.userWords) :
    ∃ u, NextWrite s { s.store with dirtyTape := true } u ∧ t.markTapeDirty = { t with store := u } := by
  obtain ⟨started, next⟩ := (t.mapStore fun u => { u with dirtyTape := true }).startWrite_spec
  refine ⟨_, ?_, started⟩
  simp only [State.mapStore_store, store] at next
  exact next.congr settings tape words

/-- A change of the power state that changes the machine state triggers a REPORT, unless a start's load
waits (R22; log 34). -/
theorem State.setPower_changes {s : State} {p : Power}
    (h : (s.mapSupply fun u => { u with power := p }).machine ≠ s.machine) :
    s.setPower p =
      if s.store.loadWaits = true then s.mapSupply fun u => { u with power := p }
      else (s.mapSupply fun u => { u with power := p }).triggerReport .plain := by
  unfold State.setPower State.reportIfChanged
  simp only [h, false_or, State.mapSupply_store]

/-- A stopped controller examines no key. -/
theorem State.examineKey_stopped {s : State} (h : s.stopped = true) (ours : Nat → Bool)
    (act : Keystroke → State → KeyOutcome) : s.examineKey ours act = s := by
  unfold State.examineKey
  split
  · rfl
  · simp [h]

theorem State.consumeText_stopped {s : State} (h : s.stopped = true) (ours : Nat → Bool)
    (act : SourceIntake → Nat → State → Option State) : s.consumeText ours act = s := by
  simp [State.consumeText, h]

/-- A stopped controller takes no frame, no key, no text, no completion and no expiry (R199, R202;
log 13). -/
theorem exec_stopped {s : State} (h : s.stopped = true) (c : Instr) (hopen : c ≠ .coverOpen)
    (hclose : c ≠ .coverClose) (hribbon : ∀ kind, c ≠ .ribbonKindChange kind)
    (hwrite : c ≠ .storeWriteComplete) (hsupply : c ≠ .supplyReset) (hreset : c ≠ .resetAsserted)
    (hcold : ∀ straps, c ≠ .coldStart straps) (hline : ∀ straps, c ≠ .lineStart straps) :
    exec c s = .next s := by
  have idle (f : State → State) : (.next (s.whenRunning f) : Host.Outcome State Fault Refusal) =
      .next s := congrArg _ (State.whenRunning_stopped h f)
  have frame (bytes : List Byte) (c : Instr) (a : AnswerCode) :
      (.next (s.received bytes c a) : Host.Outcome State Fault Refusal) = .next s := by
    rw [State.received, State.receive]; exact idle _
  have key (ours : Nat → Bool) (act : Keystroke → State → KeyOutcome) :
      (.next (s.examineKey ours act) : Host.Outcome State Fault Refusal) = .next s :=
    congrArg _ (State.examineKey_stopped h ours act)
  have text (ours : Nat → Bool) (act : SourceIntake → Nat → State → Option State) :
      (.next (s.consumeText ours act) : Host.Outcome State Fault Refusal) = .next s :=
    congrArg _ (State.consumeText_stopped h ours act)
  cases c with
  | coverOpen => exact absurd rfl hopen
  | coverClose => exact absurd rfl hclose
  | ribbonKindChange kind => exact absurd rfl (hribbon kind)
  | storeWriteComplete => exact absurd rfl hwrite
  | supplyReset => exact absurd rfl hsupply
  | resetAsserted => exact absurd rfl hreset
  | coldStart straps => exact absurd rfl (hcold straps)
  | lineStart straps => exact absurd rfl (hline straps)
  | tapeNew => simp [exec, execTapeNew, h]
  | standbyIdleExpiry => simp [exec, execStandbyIdleExpiry, State.standbyIdleRunning, h]
  | textCharacter | textReturn | textTab | textHalfSpace | textBold | textUnderline =>
    exact text _ _
  | frameCheckFailed _ | refusedFrame _ | discardedBroadcast _ | queryLeftToDictionary _ =>
    exact frame _ _ _
  | frameSendStart _ | frameSent _ | sendMismatch | key _ _ _ | text _ _
  | answer _ _ _ | roll _ _ _ _
  | rollWindowClose | answerExpiry _ | jobIdleExpiry _ | jobClose | keyboardLapse | strikeComplete
  | liftComplete | moveComplete | feedComplete | homingComplete _ | wheelReadComplete _
  | actionLimitExpiry _ | messageTimeExpiry | blink | tonePatternEnd | supplyWarning
  | supplyRecovery => exact idle _
  | _ => exact key _ _

/-- The conditions of the standby idle expiry, one by one (R200). -/
theorem State.standbyIdleRunning_iff (s : State) : s.standbyIdleRunning = true ↔
    s.stopped = false ∧ s.supply.power = .run ∧ s.bus.conflict = false ∧ s.seq.mech = .idle ∧
      s.intake.keys = [] ∧ s.intake.src1.slot = none ∧ s.intake.src2.slot = none ∧
      s.seq.queue = [] ∧ s.lines.mark = none ∧ s.store.inFlight = none := by
  simp [State.standbyIdleRunning, and_assoc]

@[simp] theorem State.release_store (s : State) : s.release.store = s.store := rfl

/-- Settles O54: each command is its change of the power state, and a stopped controller performs nothing
but the inputs, the store's report, the stops and the starts. -/
theorem supplyStandbyAndStops : Obligations.SupplyStandbyAndStops := by
  refine ⟨fun s hr => ?_, fun s => ?_, fun s => ⟨rfl, fun b hb => ?_, fun hb => ?_, fun h => ?_⟩⟩
  · intro told
    have toldSpec (u : State) : told u = { u with bus := { u.bus with
        queue := (told u).bus.queue, heldReport := (told u).bus.heldReport } } := by
      simp only [told]
      split
      · rfl
      · exact State.triggerReport_spec _ _
    have changes {v : State} {p : Power} (same : v.store = s.store)
        (h : (v.mapSupply fun u => { u with power := p }).machine ≠ v.machine) :
        v.setPower p = told (v.mapSupply fun u => { u with power := p }) := by
      rw [State.setPower_changes h, same]
    have warning : exec .supplyWarning s = .next (if s.supply.power = .powerWarn then s else
        ((((s.mapSupply fun u => { u with prior := u.power }).mapSeq fun q =>
          { q with hold := true }).setPower .powerWarn).markTapeDirty)) := by
      simp only [exec, execSupplyWarning, State.whenRunning_eq hr]
    have recovery : exec .supplyRecovery s = .next (if s.supply.power = .powerWarn then
        ((s.mapSeq fun q => { q with hold := false }).setPower s.supply.prior).resume.examineHead
        else s) := by
      simp only [exec, execSupplyRecovery, State.whenRunning_eq hr]
    refine ⟨fun hp => ?_, fun hp => ?_, fun hp => ?_, fun hp => ?_⟩
    · rw [warning, if_pos hp]
    · let warned : State := { s with
        supply := { s.supply with power := .powerWarn, prior := s.supply.power }
        seq := { s.seq with hold := true } }
      have power : ((s.mapSupply fun u => { u with prior := u.power }).mapSeq fun q =>
          { q with hold := true }).setPower .powerWarn = told warned :=
        changes rfl (by
          rw [(State.machine_eq_powerWarn _).mpr rfl]
          exact fun h => hp ((State.machine_eq_powerWarn _).mp h.symm))
      obtain ⟨store, next, dirty⟩ := State.markTapeDirty_spec (s := s) (t := told warned)
        (by rw [toldSpec]) (by rw [toldSpec]; rfl) (by rw [toldSpec]) (by rw [toldSpec])
      exact ⟨store, next, by rw [warning, if_neg hp, power, dirty]⟩
    · rw [recovery, if_neg hp]
    · intro back recovers complete homes
      have supply (p : Power) : (back p).supply = { s.supply with power := p } := by
        simp only [back]; rw [toldSpec]
      have store (p : Power) : (back p).store = s.store := by simp only [back]; rw [toldSpec]
      have seq (p : Power) : (back p).seq = { s.seq with hold := false } := by
        simp only [back]; rw [toldSpec]
      have disp (p : Power) : (back p).disp = s.disp := by simp only [back]; rw [toldSpec]
      have returns {p : Power} (h : s.supply.prior = p) (hn : p ≠ .powerWarn) {u : State}
          (hu : (back p).resume = u) : recovers u := by
        have power : (s.mapSeq fun q => { q with hold := false }).setPower p = back p :=
          changes rfl (by
            rw [(State.machine_eq_powerWarn (s.mapSeq _)).mpr hp]
            exact fun h => hn ((State.machine_eq_powerWarn _).mp h))
        simp only [recovers]
        rw [recovery, if_pos hp, h, power, hu]
      refine ⟨fun h => returns h nofun ?_, fun h hc => returns h nofun ?_, fun h hc => ?_,
        fun h hw => returns h nofun ?_, fun h hw hh => ?_⟩
      · simp [State.resume, supply]
      · have resumed : (back .starting).resume = (back .starting).leaveStarting := by
          simp [State.resume, supply]
        have waits : ¬ ((back .starting).supply.rollCallDone &&
            (back .starting).supply.homingDone) = true := by
          simpa [supply, complete] using hc
        rw [resumed]
        exact if_neg waits
      · intro u
        refine returns h nofun ?_
        have leaves : u.resume = (u.setPower .run).panelOn := by
          have e : u.resume = u.leaveStarting := by simp [u, State.resume, supply]
          rw [e]
          exact State.leaveStarting_starting (by rw [supply]; exact hc.1) (by rw [supply]; exact hc.2)
            (by rw [supply])
        have runs : u.setPower .run = told { u with supply := { u.supply with power := .run } } := by
          have before : u.machine = .starting := by simp [State.machine, u, supply]
          refine changes (store _) ?_
          rw [before]
          exact MechState.machine_ne_starting _
        rw [leaves, runs, State.panelOn, State.mapDisp, toldSpec]
        simp only [u, disp]
      · simp only [State.resume, supply, seq]
        refine if_neg fun ⟨hwake, hhomes⟩ => ?_
        rcases hw with hw | hw
        · rw [hw] at hwake; cases hwake
        · exact hhomes hw
      · intro u
        refine returns h nofun ?_
        have ends : u.resume = u.endWake := by
          simp only [u, State.resume, supply, seq]
          exact if_pos ⟨hw, hh⟩
        have standby : u.supply.power = .standby := by simp [u, supply]
        have before : (u.mapSupply fun v => { v with wakeMark := false }).machine = .standby :=
          (State.machine_eq_standby _).mpr standby
        rw [ends, State.endWake, if_pos standby, changes]
        · rfl
        · exact store _
        · rw [before]
          exact MechState.machine_ne_standby _
  · intro idle u
    have iff := s.standbyIdleRunning_iff
    refine ⟨fun h => ?_, fun h => ?_⟩
    · simp only [exec, execStandbyIdleExpiry, if_neg (mt iff.mp h)]
    · have power : s.setPower .standby = if s.store.loadWaits = true then u else
          u.triggerReport .plain := State.setPower_changes (by
            rw [(State.machine_eq_standby _).mpr rfl]
            intro e
            have := (State.machine_eq_standby _).mp e.symm
            rw [h.2.1] at this; cases this)
      have told : s.setPower .standby = { u with
          bus := if s.store.loadWaits = true then s.bus else (u.triggerReport .plain).bus } := by
        rw [power]
        split
        · rfl
        · rw [State.triggerReport_spec]
      obtain ⟨store, next, dirty⟩ := State.markTapeDirty_spec (s := s)
        (t := { s with
          supply := u.supply
          bus := if s.store.loadWaits = true then s.bus else (u.triggerReport .plain).bus
          seq := { s.seq with mech := .parked, readDue := false, retry := false }
          disp := { s.disp with panel := .off, lit := true, transient := none }
          alert := { s.alert with current := none } }) rfl rfl rfl rfl
      refine ⟨store, next, ?_⟩
      simp only [exec, execStandbyIdleExpiry, if_pos (iff.mpr h), State.enterStandby]
      rw [told]
      exact congrArg _ dirty
  · simp only [exec, execResetAsserted, State.leaveWrite, State.mapStore, State.release_store, hb]; rfl
  · simp only [exec, execResetAsserted, State.leaveWrite, State.mapStore, State.release_store, hb]
    rw [← hb]; rfl
  · exact ⟨by simp [exec, execCoverOpen, State.inputsWatched, h]; rfl,
      by simp [exec, execCoverClose, State.inputsWatched, h]; rfl,
      fun kind => by simp [exec, execRibbonKindChange, State.ribbonWatched, h]; rfl,
      exec_stopped h⟩

end Sys2Proof.Machine

namespace Sys2Proof.Machine

/-! ### The starts (R195, R202) -/

/-- Steps 3 and 4 of a start on a fresh controller: the loaded values, the roll call's two frames and the
homing (R12, R125). The machine stays STARTING, so the homing triggers no REPORT. -/
theorem State.beginStart_load {s : State} (hc : s.bus.conflict = false)
    (hp : s.supply.power = .starting) (hd : s.disp.standing = ⟨false, none, none, none, false⟩) :
    s.load.beginStart = { s.load with
      bus := { s.bus with
        queue := [.roll, .report (s.load.buildReport .plain (some s.supply.startCause))]
        sending := none, heldReport := none }
      seq := { s.load.seq with mech := .homing, work := some (.homing .start) } } := by
  have begun : s.load.beginRollCall = { s.load with bus := { s.bus with
      queue := [.roll, .report (s.load.buildReport .plain (some s.supply.startCause))]
      sending := none, heldReport := none } } := if_neg (by rw [State.load]; simp [hc])
  have disp : s.load.disp = { s.load.disp with
      standing := { s.load.disp.standing with pause := none, wheel := none } } := by
    simp only [State.load, hd]
    rw [← hd]
  rw [State.beginStart, begun, State.startHoming, State.setMech, State.reportIfChanged, if_pos]
  · simp only [State.mapSeq, State.mapDisp]
    rw [← disp]
  · left
    simp [State.machine, State.load, hp, State.mapSeq, State.mapDisp]

theorem freshTable_get (own n : StationNo) : (freshTable own)[n] =
    if n = own then ⟨some .controller, 2, 0, .adopted, none, 0⟩
    else ⟨none, 0, 0, .absent, none, 0⟩ := by
  by_cases h : n = own
  · subst h; simp [freshTable, Station.own]
  · have : ¬ own.val = n.val := fun e => h (Fin.ext e.symm)
    simp [freshTable, h, this, Station.unheard]

/-- A write that the store is still finishing holds up the load (R202; log 34). -/
theorem State.start_waits {s : State} (h : s.store.finishing.isSome = true) (cause : StartCause)
    (t : Straps) : s.start cause t = (s.fresh cause t).mapStore fun u => { u with loadWaits := true } :=
  if_pos h

theorem State.start_goes {s : State} (h : s.store.finishing = none) (cause : StartCause) (t : Straps) :
    s.start cause t = (s.fresh cause t).load.beginStart :=
  if_neg (by rw [show (s.fresh cause t).store.finishing = none from h]; decide)

/-- Settles O56: the values are those of `State.start`, and what a write holds up is the load. -/
theorem startsTakeTheirValues : Obligations.StartsTakeTheirValues := by
  intro s straps cause c hstart waits platen v tape default clean
  obtain ⟨w, run, kept, finishing⟩ : ∃ w : StoreUnit,
      exec c s = .next (({ s with store := w } : State).start cause straps) ∧
      w = { s.store with
        finishing := w.finishing, inFlight := w.inFlight, loadWaits := w.loadWaits } ∧
      w.finishing = if waits then
        (if s.store.inFlight = none then s.store.finishing else s.store.inFlight) else none := by
    rcases hstart with ⟨rfl, rfl, hr⟩ | ⟨rfl, rfl, hr⟩
    · refine ⟨{ s.store with finishing := none }, ?_, rfl, by simp [waits]⟩
      simp only [exec, execColdStart, hr]
      rfl
    · refine ⟨s.leaveWrite.store, ?_, rfl, ?_⟩
      · simp only [exec, execLineStart, hr]
        rfl
      · simp only [State.leaveWrite, State.mapStore_store, waits, true_and]
        cases s.store.inFlight <;> cases s.store.finishing <;> simp
  have block {α : Type} (f : StoreUnit → α) := congrArg f kept
  have htape : w.tape = s.store.tape := block StoreUnit.tape
  have hset : w.settings = s.store.settings := block StoreUnit.settings
  have huser : w.userList = s.store.userList := block StoreUnit.userList
  let fresh : State := ({ s with store := w } : State).fresh cause straps
  let loaded := fresh.store.loadSettings fresh.esc.platen
  let loadedTape := fresh.store.loadTape
  let loadedWords := fresh.store.loadUserList
  have htape' : loadedTape = tape := by
    show (if w.tape.isValid tapeCheckValue (fun n => n ≤ 900) then w.tape.contents else 0) = _
    rw [htape]
  have hset' : loaded = if s.store.settings.isValid Settings.checkValue Settings.inRange then
      s.store.settings.contents.clamp platen else default := by
    rw [← hset]; rfl
  have huser' : loadedWords = if s.store.userList.isValid userCheckValue userListInRange then
      s.store.userList.contents else [] := by
    rw [← huser]; rfl
  refine ⟨_, run, ?_⟩
  by_cases hw : waits
  · have left : w.finishing.isSome = true := by
      have h := hw.2
      rw [finishing, if_pos hw]
      cases hi : s.store.inFlight with
      | none => simpa [hi, Option.isSome_iff_ne_none] using h
      | some b => simp
    rw [State.start_waits left]
    refine ⟨rfl, rfl, rfl, rfl, rfl, rfl, freshTable_get _, rfl, rfl, rfl, rfl, rfl, rfl, rfl, rfl, rfl,
      rfl, rfl, rfl, rfl, rfl, rfl, rfl, rfl, fun tag => Vector.getElem_replicate _, rfl, rfl, rfl, rfl,
      rfl, rfl, rfl, fun h => absurd hw h, fun _ => ⟨rfl, rfl, rfl, rfl, rfl, rfl, ?_⟩⟩
    rw [if_pos hw] at finishing
    rw [← finishing]
    show ({ w with
      dirtySettings := false, dirtyTape := false, dirtyUser := false, inFlight := none
      loadWaits := true } : StoreUnit) = _
    rw [kept]
  · have none_left : w.finishing = none := by rw [finishing, if_neg hw]
    rw [State.start_goes none_left, State.beginStart_load rfl rfl rfl]
    refine ⟨rfl, rfl, rfl, rfl, rfl, rfl, freshTable_get _, rfl, rfl, rfl, rfl, rfl, rfl, rfl, rfl, rfl,
      rfl, rfl, rfl, rfl, rfl, rfl, rfl, rfl, fun tag => Vector.getElem_replicate _, rfl, rfl, rfl, rfl,
      rfl, rfl, rfl, fun _ => ⟨?_, rfl, rfl, ?_, ?_, fun hv => ?_, fun hv => ⟨?_, ?_⟩, fun hv => ?_,
        fun hv => ?_⟩, fun h => absurd h hw⟩
    · show [.roll, OutFrame.report ⟨.starting, .none, none,
        if loadedTape ≤ 50 ∨ false = true then some loadedTape else none, some cause, none, none,
        false⟩] = _
      simp [htape']
    · show (⟨loadedTape, 0, [], false⟩ : Correction) = _
      rw [htape']
    · rw [if_neg hw] at finishing
      rw [← finishing]
      show ({ w with
        dirtySettings := false, dirtyTape := false, dirtyUser := false, inFlight := none
        loadWaits := false } : StoreUnit) = _
      rw [kept]
    · show loaded = _
      rw [hset', if_neg (by simp [hv])]
    · show loaded = _
      rw [hset', if_pos hv]
      simp only [Settings.clamp, Bool.decide_and, v]
    · show (if loaded.hold then Mode.hold else .direct) = _
      rw [hset', if_pos hv]
      rfl
    · show loadedWords = _
      rw [huser', if_pos hv]
    · show loadedWords = _
      rw [huser', if_neg (by simp [hv])]

end Sys2Proof.Machine

namespace Sys2Proof.Machine

/-! ### Words apart from strikes and REPORTs -/

/-- The number, the words and the word serials of a line. -/
def Line.wordPart (l : Line) : Word × List WordRec × List (Option Word) :=
  (l.number, l.words, l.entries.map (·.serial))

/-- The words of every line that the Line Store holds. -/
def LineStore.wordParts (ls : LineStore) : List (Word × List WordRec × List (Option Word)) :=
  (ls.current :: ls.ring).map Line.wordPart

theorem State.wordView_eq (s : State) : s.wordView =
    (s.lines.wordParts, s.lines.serialCounter, s.spell, s.bus.queue.filter OutFrame.isQuery) := rfl

theorem LineStore.updateLine_wordParts {ls : LineStore} {n : Word} {f : Line → Line}
    (h : ∀ l, (f l).wordPart = l.wordPart) : (ls.updateLine n f).wordParts = ls.wordParts := by
  unfold LineStore.updateLine LineStore.wordParts
  split
  · simp [h]
  · simp [updateFirst_map fun l _ => h l]

theorem State.beginEntry_serial (s : State) (n : Word) (e : Entry) :
    (s.beginEntry n e).serial = e.serial := by
  unfold State.beginEntry
  split <;> rfl

theorem State.feedOne_wordParts (s : State) (m : FeedMark) :
    (s.feedOne m).lines.wordParts = s.lines.wordParts := by
  have up (l : Line) (id : Nat) : (s.lines.updateLine l.number fun l' =>
      { l' with entries := l'.entries.map fun x =>
        if x.id = id ∧ x.strike = some .held then s.beginEntry l.number x else x }).wordParts =
      s.lines.wordParts := by
    refine LineStore.updateLine_wordParts fun l' => ?_
    simp only [Line.wordPart, List.map_map]
    congr 2
    refine List.map_congr_left fun e _ => ?_
    simp only [Function.comp_apply]
    split
    · exact s.beginEntry_serial _ e
    · rfl
  unfold State.feedOne
  split
  · split <;> rfl
  · split
    · rfl
    · split
      · rfl
      · next l hl _ e he =>
        dsimp only
        split
        · exact up l _
        · exact up l _

theorem State.pumpUpTo_wordParts (n : Nat) (s : State) :
    (s.pumpUpTo n).lines.wordParts = s.lines.wordParts := by
  induction n generalizing s with
  | zero => rfl
  | succ n ih =>
    unfold State.pumpUpTo
    split
    · rfl
    · split
      · rfl
      · exact (ih _).trans (s.feedOne_wordParts _)

/-- A trigger changes no QUERY. -/
@[simp] theorem State.triggerReport_queries (s : State) (c : ReportCause) :
    (s.triggerReport c).bus.queue.filter OutFrame.isQuery = s.bus.queue.filter OutFrame.isQuery := by
  obtain e | ⟨held, e⟩ | ⟨before, old, new, after, -, hq, e⟩ | ⟨new, -, -, e⟩ :=
    s.triggerReport_cases c <;> rw [e]
  · rfl
  · simp [hq, OutFrame.isQuery]
  · simp [OutFrame.isQuery]

@[simp] theorem State.reportIfChanged_queries (s : State) (m : MachineState) :
    (s.reportIfChanged m).bus.queue.filter OutFrame.isQuery = s.bus.queue.filter OutFrame.isQuery := by
  unfold State.reportIfChanged
  split <;> simp

@[simp] theorem State.setMech_queries (s : State) (m : MechState) (p : Option PauseCause)
    (n : Option WheelNeed) : (s.setMech m p n).bus.queue.filter OutFrame.isQuery =
      s.bus.queue.filter OutFrame.isQuery := by
  simp [State.setMech]

@[simp] theorem State.examineHead_queries (s : State) :
    s.examineHead.bus.queue.filter OutFrame.isQuery = s.bus.queue.filter OutFrame.isQuery := by
  unfold State.examineHead
  repeat' split
  all_goals simp

@[simp] theorem State.settle_queries (s : State) :
    s.settle.bus.queue.filter OutFrame.isQuery = s.bus.queue.filter OutFrame.isQuery := by
  unfold State.settle
  split <;> simp

/-- The settling changes no word (R102, R117). -/
@[simp] theorem State.settle_wordView (s : State) : s.settle.wordView = s.wordView := by
  have lines : s.settle.lines = s.pump.lines := by rw [State.settle_feeding]
  have counter : s.pump.lines.serialCounter = s.lines.serialCounter := by rw [s.pump_feeding.rest]
  have spell : s.settle.spell = s.spell := by rw [State.settle_feeding]
  simp only [State.wordView_eq, lines, State.settle_queries, counter, spell,
    show s.pump.lines.wordParts = s.lines.wordParts from s.pumpUpTo_wordParts _]

@[simp] theorem State.triggerReport_wordView (s : State) (c : ReportCause) :
    (s.triggerReport c).wordView = s.wordView := by
  simp [State.wordView_eq]

@[simp] theorem State.setOwner_wordView (s : State) (o : Owner) :
    (s.setOwner o).wordView = s.wordView := by
  unfold State.setOwner
  rw [State.triggerReport_wordView]
  rfl

@[simp] theorem State.arbitrate_wordView (s : State) : s.arbitrate.wordView = s.wordView := by
  obtain e | ⟨-, o, -, e, -⟩ := s.arbitrate_cases <;> rw [e]
  exact s.setOwner_wordView o

@[simp] theorem State.releaseLine_wordView (s : State) : s.releaseLine.wordView = s.wordView := by
  simp [State.releaseLine]

/-! ### The word serials of the ring lines -/

/-- The number of a line and the serials of its words. -/
def Line.serials (l : Line) : Word × List Word := (l.number, l.words.map (·.serial))

/-- The words of the ring lines, by number and serial. -/
def LineStore.ringSerials (ls : LineStore) : List (Word × List Word) := ls.ring.map Line.serials

theorem LineStore.updateLine_ringSerials {ls : LineStore} {n : Word} {f : Line → Line}
    (h : ∀ l, (f l).serials = l.serials) : (ls.updateLine n f).ringSerials = ls.ringSerials := by
  unfold LineStore.updateLine LineStore.ringSerials
  split
  · rfl
  · exact updateFirst_map fun l _ => h l

@[simp] theorem State.setWord_ringSerials (s : State) (line serial : Word) (st : WordState)
    (tag : Option (Fin 4)) : (s.setWord line serial st tag).lines.ringSerials = s.lines.ringSerials := by
  refine LineStore.updateLine_ringSerials fun l => ?_
  simp only [Line.serials, List.map_map]
  congr 1
  refine List.map_congr_left fun w _ => ?_
  simp only [Function.comp_apply]
  split <;> rfl

@[simp] theorem State.slotTakes_ringSerials (s : State) (tag : Fin 4) (line serial : Word)
    (r : DictRole) (already : Option DictRole) :
    (s.slotTakes tag line serial r already).lines.ringSerials = s.lines.ringSerials := by
  simp only [State.slotTakes, State.enqueueFrame]
  split <;> simp

@[simp] theorem State.takeItemsUpTo_ringSerials (n : Nat) (s : State) :
    (s.takeItemsUpTo n).lines.ringSerials = s.lines.ringSerials := by
  induction n generalizing s with
  | zero => rfl
  | succ n ih =>
    unfold State.takeItemsUpTo
    split
    · rfl
    · split
      · dsimp only
        split <;> simp [ih]
      · rfl

@[simp] theorem State.appendPending_ringSerials (s : State) (i : PendingItem) :
    (s.appendPending i).lines.ringSerials = s.lines.ringSerials := by
  unfold State.appendPending
  split
  · split <;> simp
  · rfl

@[simp] theorem State.handWord_ringSerials (s : State) (line serial : Word) :
    (s.handWord line serial).lines.ringSerials = s.lines.ringSerials := by
  have capital : (s.updateLine line fun l => { l with words := l.words.map fun w =>
      if w.serial = serial then { w with capital := some (capitalOf (l.wordCodes serial)) }
      else w }).lines.ringSerials = s.lines.ringSerials := by
    refine LineStore.updateLine_ringSerials fun l => ?_
    simp only [Line.serials, List.map_map]
    congr 1
    refine List.map_congr_left fun w _ => ?_
    simp only [Function.comp_apply]
    split <;> rfl
  simp only [State.handWord]
  repeat' split
  all_goals simp [State.takeItems, capital]

/-- The segmentation of the current line keeps the words of the ring lines but for their states. -/
theorem State.resegment_ringSerials (s : State) :
    (s.resegment s.lines.current.number).lines.ringSerials = s.lines.ringSerials := by
  have folds {α : Type} {f : State → α → State}
      (hf : ∀ t a, (f t a).lines.ringSerials = t.lines.ringSerials) (as : List α) (t : State) :
      (as.foldl f t).lines.ringSerials = t.lines.ringSerials := by
    induction as generalizing t with
    | nil => rfl
    | cons a as ih => exact (ih _).trans (hf t a)
  simp only [State.resegment]
  split
  · rfl
  · rw [folds fun t a => t.handWord_ringSerials _ a,
      folds (f := fun t serial => t.dropWord s.lines.current.number serial) fun t a => rfl]
    simp [State.updateLine, LineStore.updateLine, LineStore.ringSerials]


/-! ### The words that go with a line (R103, R174) -/

/-- A query slot once the words of which `gone` holds are dropped (R163, R174). -/
def Slot.without (gone : Word → Word → Bool) : Slot → Slot
  | .asking q => if gone q.line q.serial then .discarded q else .asking q
  | x => x

/-- What the Spelling Unit holds once the words of which `gone` holds are dropped (R174). -/
def Spelling.without (u : Spelling) (gone : Word → Word → Bool) : Spelling :=
  { u with
    pending := u.pending.filter fun i => !gone i.line i.serial
    slots := u.slots.map (Slot.without gone) }

theorem State.dropWord_spell (s : State) (line serial : Word) :
    (s.dropWord line serial).spell = s.spell.without fun n w => n == line && w == serial := by
  have slots : Slot.discardWord line serial =
      Slot.without fun n w => n == line && w == serial := by
    funext x
    cases x <;> simp [Slot.discardWord, Slot.without]
  simp only [State.dropWord, State.mapSpell, Spelling.without, slots]

theorem Spelling.without_none (u : Spelling) : u.without (fun _ _ => false) = u := by
  have slots : Slot.without (fun _ _ => false) = id := by
    funext x
    cases x <;> rfl
  simp [Spelling.without, slots]

theorem Spelling.without_without (u : Spelling) (f g : Word → Word → Bool) :
    (u.without f).without g = u.without fun n w => f n w || g n w := by
  have slots : Slot.without g ∘ Slot.without f = Slot.without fun n w => f n w || g n w := by
    funext x
    cases x with
    | asking q => cases h : f q.line q.serial <;> simp [Slot.without, h]
    | _ => rfl
  simp [Spelling.without, List.filter_filter, slots, Bool.and_comm]

theorem State.dropWords_spell (n : Word) (ws : List WordRec) (s : State) :
    (ws.foldl (fun s w => s.dropWord n w.serial) s).spell =
      s.spell.without fun line serial => line == n && (ws.map (·.serial)).contains serial := by
  induction ws generalizing s with
  | nil => simp [Spelling.without_none]
  | cons w ws ih =>
    rw [List.foldl_cons, ih, s.dropWord_spell, Spelling.without_without]
    congr 1
    funext line serial
    rw [List.map_cons, List.contains_cons, Bool.and_or_distrib_left]

/-- The word of this line number and serial is one of the line that a commit pushes out of a ring with
these words (R103). -/
def leavesRing (ring : List (Word × List Word)) (line serial : Word) : Bool :=
  ring.length == 3 && ring.head?.any fun p => line == p.1 && p.2.contains serial

/-- The ring after a commit, and what the Spelling Unit then holds (R103). -/
theorem State.ringOverflow_newest {s : State} {ring : List Line} {old : Line}
    (hr : s.lines.ring = ring ++ [old]) (hl : ring.length ≤ 3) :
    s.ringOverflow.lines.ring = (if ring.length = 3 then ring.tail else ring) ++ [old] ∧
    s.ringOverflow.spell = s.spell.without (leavesRing (ring.map Line.serials)) := by
  have full : Config.ringCapacity < s.lines.ring.length ↔ ring.length = 3 := by
    simp only [hr, Config.ringCapacity, List.length_append, List.length_singleton]
    omega
  constructor
  · rw [s.ringOverflow_spec]
    show (if Config.ringCapacity < s.lines.ring.length then _ else _) = _
    by_cases h3 : ring.length = 3
    · rw [if_pos (full.2 h3), if_pos h3, hr, List.tail_append_of_ne_nil (by rintro rfl; cases h3)]
    · rw [if_neg (full.not.2 h3), if_neg h3, hr]
  · cases ring with
    | nil =>
      have none : leavesRing [] = fun _ _ => false := rfl
      rw [List.map_nil, none, Spelling.without_none]
      unfold State.ringOverflow
      split
      · rfl
      · rw [if_neg (by simp [full])]
    | cons o ring =>
      unfold State.ringOverflow
      rw [hr]
      show (if Config.ringCapacity < (o :: ring ++ [old]).length then _ else _ : State).spell = _
      rw [← hr]
      by_cases h3 : (o :: ring).length = 3
      · rw [if_pos (full.2 h3), State.dropWords_spell]
        congr 1
        funext line serial
        simp [leavesRing, Line.serials, show ring.length = 2 by simpa using h3]
      · rw [if_neg (full.not.2 h3)]
        have none : leavesRing ((o :: ring).map Line.serials) = fun _ _ => false := by
          funext line serial
          simp [leavesRing, show ring.length ≠ 2 by simpa using h3]
        rw [none, Spelling.without_none]

/-! ### A commit of the whole line (R99) -/

/-- The current line, committed and segmented, its closed words handed (R99 step 2, R110). -/
def State.lineEnded (s : State) : State :=
  (s.mapCurrent fun l => { l with state := .committed }).resegment s.lines.current.number

theorem State.lineEnded_only (s : State) :
    SpellingOnly (s.mapCurrent fun l => { l with state := .committed }) s.lineEnded :=
  State.resegment_only _ _

theorem State.lineEnded_ringSerials (s : State) : s.lineEnded.lines.ringSerials = s.lines.ringSerials :=
  (s.mapCurrent fun l => { l with state := .committed }).resegment_ringSerials

theorem State.lineEnded_nextLine (s : State) : s.lineEnded.lines.nextLine = s.lines.nextLine := by
  have unit {α : Type} (f : LineStore → α) := congrArg f s.lineEnded_only.lines
  exact unit LineStore.nextLine

theorem State.lineEnded_ringLength (s : State) :
    s.lineEnded.lines.ring.length = s.lines.ring.length := by
  simpa [LineStore.ringSerials] using congrArg List.length s.lineEnded_ringSerials

/-- The line that a commit without carried entries opens (R99 step 5). -/
def State.lineOpened (s : State) : Line := s.lineEnded.openedLine s.lineEnded.lines.current []

/-- The committed line has joined the ring, and the next line is open (R99 steps 3 to 5). -/
def State.lineJoined (s : State) : State :=
  (s.lineEnded.mapLines fun ls => { ls with
    mark := some ⟨s.lines.current.number, commitPlace s.lineEnded.lines.mark s.lineEnded.lines.current,
      some (Int.ofNat s.lineEnded.esc.spacing, s.lineOpened.start)⟩
    ring := ls.ring ++ [s.lineEnded.lines.current]
    current := s.lineOpened
    nextLine := ls.nextLine + 1 }).mapEsc fun e =>
      { e with paperOffset := s.lineOpened.offset, bellRung := false }

/-- A commit without carried entries before it is settled (R99 steps 1 to 5). -/
def State.lineTurned (s : State) : State :=
  s.lineJoined.ringOverflow.showFrom 0 s.lineOpened.live.length

theorem State.commit_eq (s : State) : s.commit [] = s.lineTurned.settle := rfl

/-- The lines of a ring that stay when a line joins it (R103). -/
def keptRing (ring : List Line) : List Line := if ring.length = 3 then ring.tail else ring

theorem State.lineTurned_spec {s : State} (hl : s.lines.ring.length ≤ 3) :
    s.lineTurned.lines.ring = keptRing s.lineEnded.lines.ring ++ [s.lineEnded.lines.current] ∧
    s.lineTurned.spell = s.lineEnded.spell.without (leavesRing s.lines.ringSerials) := by
  have joined : s.lineJoined.lines.ring = s.lineEnded.lines.ring ++ [s.lineEnded.lines.current] := rfl
  have unsettled : s.lineJoined.spell = s.lineEnded.spell := rfl
  obtain ⟨ring, spell⟩ := State.ringOverflow_newest joined (s.lineEnded_ringLength.trans_le hl)
  rw [unsettled, show s.lineEnded.lines.ring.map Line.serials = s.lines.ringSerials from
    s.lineEnded_ringSerials] at spell
  exact ⟨ring, spell⟩

theorem State.lineTurned_lines (s : State) : s.lineTurned.lines = { s.lineJoined.lines with
    ring := s.lineTurned.lines.ring
    viewDepth := 0
    cursor := s.lineOpened.live.length } := by
  unfold State.lineTurned
  rw [s.lineJoined.ringOverflow_spec]
  rfl

/-- The words of a committed line, and of the line pushed out of the ring (R99 step 2, R103, R174). -/
theorem State.lineClosed_wordView (s : State) (begins : List Entry) :
    (s.lineClosed s.lines.current.entries begins).wordView =
      ((s.lines.nextLine, [], begins.map (·.serial)) ::
        ((if s.lines.ring.length = 3 then s.lineEnded.lines.ring.tail else s.lineEnded.lines.ring) ++
          [s.lineEnded.lines.current]).map Line.wordPart,
        s.lineEnded.lines.serialCounter,
        s.lineEnded.spell.without (leavesRing s.lines.ringSerials),
        s.lineEnded.bus.queue.filter OutFrame.isQuery) := by
  have gone (line serial : Word) : leavesRing s.lines.ringSerials line serial = true ↔
      s.lines.ring.length = 3 ∧ ∃ o ∈ s.lines.ring.head?, o.number = line ∧
        ∃ w ∈ o.words, w.serial = serial := by
    cases h : s.lines.ring <;>
      simp [leavesRing, LineStore.ringSerials, h, Line.serials, eq_comm (a := line)]
  simp only [State.lineClosed, State.wordView, List.map_cons]
  refine congrArg₂ Prod.mk rfl (congrArg₂ Prod.mk rfl (congrArg₂ Prod.mk ?_ rfl))
  simp only [← gone]
  refine congrArg₂ (fun p q => ({ s.lineEnded.spell with pending := p, slots := q } : Spelling))
    ?_ ?_
  · refine List.filter_congr fun i _ => ?_
    cases leavesRing s.lines.ringSerials i.line i.serial <;> rfl
  · refine Vector.map_congr_left fun x _ => ?_
    cases x <;> rfl

/-- The words that a commit leaves (R99, R103, R110, R174). -/
theorem State.commit_wordView {s : State} (hl : s.lines.ring.length ≤ 3) :
    (s.commit []).wordView = (s.lineClosed s.lines.current.entries []).wordView := by
  obtain ⟨ring, spell⟩ := State.lineTurned_spec hl
  have queue : s.lineTurned.bus.queue = s.lineEnded.bus.queue :=
    congrArg (·.queue) s.lineJoined.ringOverflow_bus
  have current : s.lineOpened.wordPart = (s.lines.nextLine, [], []) :=
    congrArg (·, [], []) s.lineEnded_nextLine
  rw [s.commit_eq, State.settle_wordView, s.lineClosed_wordView, State.wordView_eq, spell, queue,
    s.lineTurned_lines, ring]
  refine congrArg₂ Prod.mk (congrArg₂ List.cons current ?_) rfl
  rw [keptRing, s.lineEnded_ringLength]

/-- The committed line is the current line, but for its words (R99 step 2). -/
theorem State.lineEnded_current (s : State) : s.lineEnded.lines.current.wordless =
    ({ s.lines.current with state := .committed } : Line).wordless :=
  congrArg LineStore.current s.lineEnded_only.lines

theorem State.lineEnded_entries (s : State) :
    s.lineEnded.lines.current.entries.map Entry.bare = s.lines.current.entries.map Entry.bare :=
  congrArg Line.entries s.lineEnded_current

theorem State.lineEnded_number (s : State) : s.lineEnded.lines.current.number = s.lines.current.number := by
  have unit {α : Type} (f : Line → α) := congrArg f s.lineEnded_current
  exact unit Line.number

theorem State.lineEnded_mark (s : State) : s.lineEnded.lines.mark = s.lines.mark := by
  have unit {α : Type} (f : LineStore → α) := congrArg f s.lineEnded_only.lines
  exact unit LineStore.mark

/-- The first HELD entry of a line does not depend on its words. -/
theorem heldEntry_of_bare {es fs : List Entry} (h : es.map Entry.bare = fs.map Entry.bare) :
    (es.find? fun e => e.strike == some .held).map (·.id) =
      (fs.find? fun e => e.strike == some .held).map (·.id) := by
  have held (es : List Entry) : (es.find? fun e => e.strike == some .held).map (·.id) =
      ((es.map Entry.bare).find? fun e => e.strike == some .held).map (·.id) := by
    rw [List.find?_map, Option.map_map]
    rfl
  rw [held, h, ← held]

theorem firstPlace_of_bare {l : Line} {fs : List Entry}
    (h : l.entries.map Entry.bare = fs.map Entry.bare) : commitPlace.firstPlace l =
      match (fs.find? fun e => e.strike == some .held).map (·.id) with
      | some id => .action id 0
      | none => .finalFeed := by
  rw [← heldEntry_of_bare h, commitPlace.firstPlace]
  cases l.entries.find? fun e => e.strike == some .held <;> rfl

theorem commitPlace_keeps {m : FeedMark} {l : Line} (h : m.line = l.number) :
    commitPlace (some m) l = m.place := if_pos h

theorem commitPlace_first {mark : Option FeedMark} {l : Line}
    (h : ∀ m, mark = some m → m.line ≠ l.number) : commitPlace mark l = commitPlace.firstPlace l := by
  cases mark with
  | none => rfl
  | some m => exact if_neg (h m rfl)

/-- A commit before it is settled changes no work, no input and no store. -/
theorem State.lineTurned_units (s : State) :
    s.lineTurned.seq = s.seq ∧ s.lineTurned.wheel = s.wheel ∧ s.lineTurned.corr = s.corr ∧
      s.lineTurned.pins = s.pins ∧ s.lineTurned.supply = s.supply ∧ s.lineTurned.store = s.store := by
  simp [State.lineTurned, State.showFrom, State.setCursor, State.lineJoined, State.lineEnded,
    State.mapLines, State.mapDisp, State.mapEsc, State.mapCurrent]

/-- A commit feeds the line (R99 step 3, R101, R102). -/
theorem State.commit_feeds {s : State} (hl : s.lines.ring.length ≤ 3) :
    FeedsCommitted s (s.commit []) s.lines.current.entries := by
  obtain ⟨seq, wheel, corr, pins, supply, store⟩ := s.lineTurned_units
  have esc : s.lineEnded.esc = s.esc := State.resegment_esc _ _
  have lineOf {α : Type} (f : Line → α) := congrArg f s.lineEnded_current
  refine ⟨s.lineTurned, s.lineEnded.lines.current,
    commitPlace s.lines.mark s.lineEnded.lines.current,
    seq, wheel, corr, pins, supply, store, ?_, ?_,
    s.lineEnded_number, lineOf Line.state, s.lineEnded_entries, ?_, ?_, ?_,
    rfl, rfl, rfl⟩
  · rw [s.lineTurned_lines]
    exact s.lineEnded_nextLine
  · rw [(State.lineTurned_spec hl).1, List.getLast?_append]
    rfl
  · rw [s.lineTurned_lines, s.lineEnded_number, ← s.lineEnded_mark, ← esc]
    rfl
  · intro m hm hn
    rw [hm, commitPlace_keeps hn]
  · intro other
    rw [commitPlace_first other, firstPlace_of_bare s.lineEnded_entries]
    constructor
    · intro before e after hes he first
      have : s.lines.current.entries.find? (fun x => x.strike == some .held) = some e := by
        rw [hes, List.find?_append, List.find?_eq_none.2 fun x hx => by simp [first x hx]]
        simp [he]
      rw [this]
      rfl
    · intro none
      rw [List.find?_eq_none.2 fun x hx => by simp [none x hx]]
      rfl

theorem State.commit_layout (s : State) : (s.commit []).lines.layout = s.lineTurned.lines.layout :=
  (State.settle_work _).lines

theorem State.commit_current (s : State) :
    (s.commit []).lines.current.layout = s.lineOpened.layout := by
  have layout := s.commit_layout
  rw [s.lineTurned_lines] at layout
  exact congrArg LineStore.current layout

@[simp] theorem State.commit_number (s : State) :
    (s.commit []).lines.current.number = s.lines.nextLine := by
  have unit {α : Type} (f : Line → α) := congrArg f s.commit_current
  exact (unit Line.number).trans s.lineEnded_nextLine

@[simp] theorem State.commit_entries (s : State) : (s.commit []).lines.current.entries = [] := by
  have unit {α : Type} (f : Line → α) := congrArg f s.commit_current
  exact List.map_eq_nil_iff.1 (unit Line.entries)

@[simp] theorem State.commit_viewDepth (s : State) : (s.commit []).lines.viewDepth = 0 := by
  have layout := s.commit_layout
  rw [s.lineTurned_lines] at layout
  have unit {α : Type} (f : LineStore → α) := congrArg f layout
  exact unit LineStore.viewDepth

/-- A commit withdraws no action (R99, R102). -/
theorem State.commit_actions (s : State) : s.seq.queue <+: (s.commit []).seq.queue := by
  have actions := s.lineTurned.settle_work.actions
  rwa [s.lineTurned_units.1] at actions

/-- A commit of the line as it stands, into a ring of at most three lines (R99, R101 to R103). -/
theorem State.commit_commitsLine {s : State} (hl : s.lines.ring.length ≤ 3) :
    CommitsLine s (s.commit []) := by
  have ring : (s.commit []).lines.ring.map Line.layout =
      (keptRing s.lineEnded.lines.ring ++ [s.lineEnded.lines.current]).map Line.layout := by
    rw [← (State.lineTurned_spec hl).1]
    exact congrArg LineStore.ring s.commit_layout
  refine ⟨State.commit_feeds hl, State.commit_wordView hl, s.commit_number, s.commit_entries, ?_, ?_⟩
  · have numbers : s.lineEnded.lines.ring.map (·.number) = s.lines.ring.map (·.number) := by
      simpa [LineStore.ringSerials, Function.comp_def, Line.serials] using
        congrArg (List.map Prod.fst) s.lineEnded_ringSerials
    have kept : (keptRing s.lineEnded.lines.ring).map (·.number) =
        (keptRing s.lines.ring).map (·.number) := by
      simp only [keptRing, s.lineEnded_ringLength]
      split
      · rw [List.map_tail, List.map_tail, numbers]
      · exact numbers
    have all := congrArg (List.map Line.number) ring
    simp only [List.map_map, List.map_append, List.map_singleton] at all
    exact all.trans (congrArg₂ (· ++ [·]) kept s.lineEnded_number)
  · have last := congrArg List.getLast? ring
    rw [List.map_append, List.getLast?_append, List.getLast?_map] at last
    obtain ⟨l, hl, same⟩ := Option.map_eq_some_iff.1 last
    have same := same.trans ((Line.layout_wordless _).symm.trans
      ((congrArg Line.layout s.lineEnded_current).trans (Line.layout_wordless _)))
    have unit {α : Type} (f : Line → α) := congrArg f same
    exact ⟨l, hl, unit Line.state, unit Line.start, unit Line.offset, unit Line.entries⟩

end Sys2Proof.Machine

namespace Sys2Proof.Machine

/-! ### States that hold the same words -/

/-- What the Spelling Unit and the Line Store read of a state when a line is segmented (R108 to R110, R159,
R164 to R167, R178) is the same in both. -/
structure SameWords (s t : State) : Prop where
  lines : t.lines = s.lines
  spell : t.spell = s.spell
  queue : t.bus.queue = s.bus.queue
  conflict : t.bus.conflict = s.bus.conflict
  usable : ∀ r : DictRole, t.bus.usable r.role = s.bus.usable r.role
  holder : ∀ r : DictRole, t.bus.holder r.role = s.bus.holder r.role
  suspended : t.handingSuspended = s.handingSuspended

namespace SameWords

variable {s t : State}

theorem wordView (h : SameWords s t) : t.wordView = s.wordView := by
  unfold State.wordView
  rw [h.lines, h.spell, h.queue]

theorem mapLines (h : SameWords s t) (f : LineStore → LineStore) :
    SameWords (s.mapLines f) (t.mapLines f) :=
  ⟨congrArg f h.lines, h.spell, h.queue, h.conflict, h.usable, h.holder, h.suspended⟩

theorem mapSpell (h : SameWords s t) (f : Spelling → Spelling) :
    SameWords (s.mapSpell f) (t.mapSpell f) :=
  ⟨h.lines, congrArg f h.spell, h.queue, h.conflict, h.usable, h.holder, h.suspended⟩

theorem enqueueFrame (h : SameWords s t) (f : OutFrame) :
    SameWords (s.enqueueFrame f) (t.enqueueFrame f) := by
  unfold State.enqueueFrame
  rw [h.conflict]
  split
  · exact h
  · exact ⟨h.lines, h.spell, congrArg (· ++ [f]) h.queue, h.conflict, h.usable, h.holder, h.suspended⟩

theorem setWord (h : SameWords s t) (line serial : Word) (st : WordState) (tag : Option (Fin 4)) :
    SameWords (s.setWord line serial st tag) (t.setWord line serial st tag) :=
  h.mapLines fun ls => ls.updateLine line fun l => { l with words := l.words.map fun w =>
    if w.serial = serial then { w with state := st, tag := tag } else w }

theorem slotTakes (h : SameWords s t) (tag : Fin 4) (line serial : Word) (r : DictRole)
    (already : Option DictRole) :
    SameWords (s.slotTakes tag line serial r already) (t.slotTakes tag line serial r already) := by
  have folded : t.foldedForm line serial = s.foldedForm line serial := by
    simp only [State.foldedForm, h.lines]
  simp only [State.slotTakes, h.holder, folded]
  exact ((h.mapSpell _).setWord _ _ _ _).enqueueFrame _

theorem candidate (h : SameWords s t) (a b : Option DictRole) : t.candidate a b = s.candidate a b := by
  simp only [State.candidate, h.usable]

theorem takeItemsUpTo (n : Nat) : ∀ {s t : State}, SameWords s t →
    SameWords (s.takeItemsUpTo n) (t.takeItemsUpTo n) := by
  induction n with
  | zero => exact id
  | succ n ih =>
    intro s t h
    simp only [State.takeItemsUpTo, h.conflict, h.spell, h.candidate]
    split
    · exact h
    · split
      · split
        · exact ih ((h.mapSpell _).slotTakes _ _ _ _ _)
        · exact ih ((h.mapSpell _).setWord _ _ _ _)
      · exact h

theorem takeItems (h : SameWords s t) : SameWords s.takeItems t.takeItems := by
  unfold State.takeItems
  rw [h.spell]
  exact h.takeItemsUpTo _

theorem appendPending (h : SameWords s t) (i : PendingItem) :
    SameWords (s.appendPending i) (t.appendPending i) := by
  simp only [State.appendPending, h.spell]
  split
  · split
    · exact (h.setWord _ _ _ _).mapSpell _
    · exact h.mapSpell _
  · exact h.mapSpell _

theorem handWord (h : SameWords s t) (line serial : Word) :
    SameWords (s.handWord line serial) (t.handWord line serial) := by
  have primary := h.usable .primary
  have secondary := h.usable .secondary
  simp only [DictRole.role] at primary secondary
  simp only [State.handWord, h.lines, h.suspended, h.spell, primary, secondary]
  split
  · exact h
  · split
    · exact h
    · next l hl w hw =>
      have named : SameWords _ _ := h.mapLines fun ls => ls.updateLine line fun l =>
        { l with words := l.words.map fun w =>
            if w.serial = serial then { w with capital := some (capitalOf (l.wordCodes serial)) }
            else w }
      have handed := ((named.setWord line serial .pending none).appendPending
        ⟨line, serial, none⟩).takeItems
      split
      · exact h
      · iterate 6
          split
          · exact named.setWord _ _ _ _
        exact handed

theorem foldl {α : Type} {f : State → α → State}
    (hf : ∀ {s t : State} (a : α), SameWords s t → SameWords (f s a) (f t a)) (as : List α) :
    ∀ {s t : State}, SameWords s t → SameWords (as.foldl f s) (as.foldl f t) := by
  induction as with
  | nil => exact id
  | cons a as ih => exact fun h => ih (hf a h)

theorem resegment (h : SameWords s t) (number : Word) :
    SameWords (s.resegment number) (t.resegment number) := by
  simp only [State.resegment, h.lines]
  split
  · exact h
  · exact foldl (fun serial h => h.handWord number serial) _
      (foldl (f := fun s serial => s.dropWord number serial) (fun serial h => h.mapSpell _) _
        ((h.mapLines _).mapLines _))

theorem lineClosed (h : SameWords s t) (entries begins : List Entry) :
    (t.lineClosed entries begins).wordView = (s.lineClosed entries begins).wordView := by
  have ended : SameWords
      { s with lines := { s.lines with
        current := { s.lines.current with entries := entries, state := .committed } } }
      { t with lines := { s.lines with
        current := { s.lines.current with entries := entries, state := .committed } } } :=
    ⟨rfl, h.spell, h.queue, h.conflict, h.usable, h.holder, h.suspended⟩
  have closed := ended.resegment s.lines.current.number
  unfold State.lineClosed State.wordView
  simp only [h.lines, closed.lines, closed.spell, closed.queue]

end SameWords

/-! ### Commits before and after a change of something else -/

/-- A commit does the same to the lines, the words and the print queue of both states (R99). -/
structure CommitsAlike (s t : State) : Prop where
  words : SameWords s t
  seq : t.seq = s.seq
  wheel : t.wheel = s.wheel
  corr : t.corr = s.corr
  pins : t.pins = s.pins
  supply : t.supply = s.supply
  store : t.store = s.store
  esc : t.esc = s.esc

/-- The two states agree in everything that is said of a commit (R99): the words, the print queue, the
feeding mark, the ring, and what stands on the current line. -/
structure SameCommit (s t : State) : Prop where
  words : t.wordView = s.wordView
  seq : t.seq = s.seq
  mark : t.lines.mark = s.lines.mark
  ring : t.lines.ring = s.lines.ring
  number : t.lines.current.number = s.lines.current.number
  entries : t.lines.current.entries = s.lines.current.entries

theorem SameCommit.refl (s : State) : SameCommit s s := ⟨rfl, rfl, rfl, rfl, rfl, rfl⟩

theorem SameCommit.trans {s t u : State} (h : SameCommit s t) (k : SameCommit t u) : SameCommit s u :=
  ⟨k.words.trans h.words, k.seq.trans h.seq, k.mark.trans h.mark, k.ring.trans h.ring,
    k.number.trans h.number, k.entries.trans h.entries⟩

theorem CommitsLine.of_alike {s s' t : State} (h : CommitsLine s' t) (same : CommitsAlike s s') :
    CommitsLine s t := by
  obtain ⟨words, seq, wheel, corr, pins, supply, store, esc⟩ := same
  obtain ⟨feeds, wordsLeft, number, empty, ring, newest⟩ := h
  rw [words.lines] at feeds number ring newest wordsLeft
  rw [words.lineClosed] at wordsLeft
  refine ⟨?_, wordsLeft, number, empty, ring, newest⟩
  simp only [FeedsCommitted, words.lines, seq, wheel, corr, pins, supply, store, esc] at feeds
  exact feeds

theorem CommitsLine.of_same {s t t' : State} (h : CommitsLine s t) (same : SameCommit t t') :
    CommitsLine s t' := by
  obtain ⟨words, seq, mark, ring, number, entries⟩ := same
  obtain ⟨⟨u, l, place, feeds⟩, wordsLeft, numbered, empty, ringKept, newest⟩ := h
  refine ⟨⟨u, l, place, ?_⟩, words.trans wordsLeft, number.trans numbered, entries.trans empty,
    ?_, ?_⟩
  · rw [seq, mark, ring]
    exact feeds
  · rw [ring]
    exact ringKept
  · rw [ring]
    exact newest

theorem State.triggerReport_sameCommit (s : State) (c : ReportCause) :
    SameCommit s (s.triggerReport c) := by
  refine ⟨s.triggerReport_wordView c, ?_, ?_, ?_, ?_, ?_⟩ <;> simp

theorem State.setOwner_sameCommit (s : State) (o : Owner) : SameCommit s (s.setOwner o) := by
  refine ⟨s.setOwner_wordView o, ?_, ?_, ?_, ?_, ?_⟩ <;>
    simp [State.setOwner, State.mapIntake, State.mapCurrent, State.mapLines]

theorem State.arbitrate_sameCommit (s : State) : SameCommit s s.arbitrate := by
  obtain e | ⟨-, o, -, e, -⟩ := s.arbitrate_cases <;> rw [e]
  · exact .refl s
  · exact s.setOwner_sameCommit o

/-- The end of an ownership changes nothing that a commit makes (R41). -/
theorem State.releaseLine_sameCommit (s : State) : SameCommit s s.releaseLine :=
  (s.setOwner_sameCommit .none).trans (State.arbitrate_sameCommit _)

theorem State.mapIntake_sameCommit (s : State) (f : Intake → Intake) : SameCommit s (s.mapIntake f) :=
  ⟨rfl, rfl, rfl, rfl, rfl, rfl⟩

end Sys2Proof.Machine

namespace Sys2Proof.Machine

/-! ### The owner after an ownership ends (R39, R41) -/

/-- The source that gets a line that no key claims (R39). -/
def Intake.nextSource (i : Intake) : Owner :=
  if i.src1.slot.isSome then .source1 else if i.src2.slot.isSome then .source2 else .none

/-- With no key at the head that claims the line, the line goes to a source that claims it, or to
no one, and the owner field of the current line says so (R39, R41). -/
theorem State.releaseLine_next {s : State} (hk : s.intake.keyboardClaims = false) :
    s.releaseLine.intake.owner = s.intake.nextSource ∧
      s.releaseLine.lines.current.owner = s.intake.nextSource := by
  have owner (t : State) (o : Owner) :
      (t.setOwner o).intake.owner = o ∧ (t.setOwner o).lines.current.owner = o := by
    rw [t.setOwner_spec]
    exact ⟨rfl, rfl⟩
  have intake : (s.setOwner .none).intake = { s.intake with owner := .none } := by
    rw [s.setOwner_spec]
  have claims : ({ s.intake with owner := .none } : Intake).keyboardClaims = false := hk
  unfold State.releaseLine State.arbitrate Intake.nextSource
  simp only [intake, claims, ne_eq, not_true_eq_false, if_false,
    Bool.false_eq_true]
  split
  · exact owner _ _
  · split
    · exact owner _ _
    · exact owner _ _

@[simp] theorem State.releaseLine_viewDepth (s : State) :
    s.releaseLine.lines.viewDepth = s.lines.viewDepth := by
  have owner (t : State) (o : Owner) : (t.setOwner o).lines.viewDepth = t.lines.viewDepth := by
    rw [t.setOwner_spec]
  unfold State.releaseLine
  obtain e | ⟨-, o, -, e, -⟩ := (s.setOwner .none).arbitrate_cases <;> rw [e]
  · exact owner s .none
  · exact (owner _ o).trans (owner s .none)

@[simp] theorem State.releaseLine_keys (s : State) : s.releaseLine.intake.keys = s.intake.keys := by
  unfold State.releaseLine
  obtain e | ⟨-, o, -, e, -⟩ := (s.setOwner .none).arbitrate_cases <;> simp [e]

/-! ### KEYBOARD_LAPSE (R40) -/

/-- A key that waits has a use for the line (R40). -/
def Intake.lineWork (i : Intake) : Prop := ∃ k ∈ i.keys, claimsLine k.code = true

theorem Intake.hasLineWork_eq {i : Intake} : i.hasLineWork = true ↔ i.lineWork := by
  simp [Intake.hasLineWork, Intake.lineWork]

theorem Intake.hasLineWork_of_not {i : Intake} (h : ¬ i.lineWork) : i.hasLineWork = false :=
  Bool.eq_false_iff.2 fun k => h (Intake.hasLineWork_eq.1 k)

theorem exec_keyboardLapse {s : State} (hr : s.stopped = false) : exec .keyboardLapse s =
    .next (if s.lapsesEmpty then s.releaseLine else if s.lapsesLost then s.lapseLost else s) := by
  simp [exec, execKeyboardLapse, State.whenRunning_eq hr]

/-- The ownership ends for want of a key that uses the line (R40, R41). -/
theorem State.releaseLine_lapses {s : State} (ho : s.intake.owner = .keyboard)
    (hw : ¬ s.intake.lineWork) : OwnershipOnly s s.releaseLine ∧
      s.releaseLine.intake.owner = s.intake.nextSource ∧
      s.releaseLine.lines.current.owner = s.intake.nextSource := by
  have claims := Intake.keyboardClaims_of_hasLineWork (Intake.hasLineWork_of_not hw)
  exact ⟨State.releaseLine_ownershipOnly ho claims, State.releaseLine_next claims⟩

/-- The lost keyboard's line is committed, and the ownership ends (R40, R41, R99). -/
theorem State.commit_lapses {s : State} (ho : s.intake.owner = .keyboard) (hw : ¬ s.intake.lineWork) :
    let t := (s.commit []).releaseLine
    t.intake.owner = s.intake.nextSource ∧
      (∃ u : State, u.intake.owner = .keyboard ∧ OwnershipOnly u t) ∧
      t.lines.viewDepth = 0 ∧ t.lines.current.number = s.lines.nextLine ∧
      t.lines.current.entries = [] ∧ (s.lines.ring.length ≤ 3 → CommitsLine s t) ∧
      t.intake.keys = s.intake.keys ∧ s.seq.queue <+: t.seq.queue := by
  intro t
  have intake := s.commit_intake []
  obtain ⟨ownership, next, -⟩ :=
    State.releaseLine_lapses (s := s.commit []) (intake ▸ ho) (intake ▸ hw)
  have same := (s.commit []).releaseLine_sameCommit
  rw [intake] at next
  exact ⟨next, ⟨_, intake ▸ ho, ownership⟩, by simp [t], same.number.trans s.commit_number,
    same.entries.trans s.commit_entries, fun hl => (State.commit_commitsLine hl).of_same same,
    by simp [t], same.seq ▸ s.commit_actions⟩

theorem State.room_relocate {s : State} (hv : s.lines.viewDepth ≠ 0) :
    s.relocateActions.length = 2 := by
  rw [State.relocateActions, if_neg hv]
  rfl

/-- The view returned as RELOCATE does, from a ring line (R107). -/
theorem State.relocated_view {s : State} (hv : s.lines.viewDepth ≠ 0) : s.relocated =
    ({ s with
      lines := { s.lines with viewDepth := 0, cursor := s.lines.current.live.length }
      disp := { s.disp with window := windowFor 0 s.lines.current.live.length } }.enqueue
        [.feed (signedDiff s.lines.current.offset s.lines.displayed.offset) s.cursorPoint,
          .move s.typingPoint]).settle := by
  unfold State.relocated State.relocateActions
  simp only [if_neg hv]
  rfl

theorem State.relocated_layout {s : State} (hv : s.lines.viewDepth ≠ 0) :
    s.relocated.lines.layout =
      { s.lines with viewDepth := 0, cursor := s.lines.current.live.length : LineStore }.layout := by
  rw [State.relocated_view hv]
  exact (State.settle_work _).lines

/-- The lapse of a lost keyboard on the current line (R40 third case). -/
theorem State.lapseLost_current {s : State} (hv : s.lines.viewDepth = 0) : s.lapseLost =
    if s.lines.current.entries.isEmpty then s.releaseLine
    else if s.lineFeeding then s else (s.commit []).releaseLine := by
  simp [State.lapseLost, hv]

/-- The lapse of a lost keyboard in a view waits for room, and returns the view (R40 third case). -/
theorem State.lapseLost_view {s : State} (hv : s.lines.viewDepth ≠ 0) : s.lapseLost =
    if s.room < 2 then s
    else if s.relocated.lines.current.entries.isEmpty then s.relocated.releaseLine
    else if s.relocated.lineFeeding then s.relocated else (s.relocated.commit []).releaseLine := by
  simp [State.lapseLost, hv, State.room_relocate hv]

theorem State.lapsesEmpty_iff {s : State} : s.lapsesEmpty = true ↔ s.intake.owner = .keyboard ∧
    s.lines.current.entries = [] ∧ s.lines.viewDepth = 0 ∧ ¬ s.intake.lineWork := by
  simp [State.lapsesEmpty, ← Intake.hasLineWork_eq, and_assoc]

theorem State.lapsesLost_iff {s : State} : s.lapsesLost = true ↔ s.intake.owner = .keyboard ∧
    s.bus.usable .keyboard = false ∧ ¬ s.intake.lineWork := by
  simp [State.lapsesLost, ← Intake.hasLineWork_eq, and_assoc]

/-- A keyboard that owns no line, or has a use for the one it owns, keeps its ownership (R40). -/
theorem keyboardLapse_stays {s : State} (hr : s.stopped = false)
    (he : ¬ (s.lines.current.entries = [] ∧ s.lines.viewDepth = 0))
    (hl : ¬ s.bus.usable .keyboard = false) : exec .keyboardLapse s = .next s := by
  rw [exec_keyboardLapse hr, if_neg (mt State.lapsesEmpty_iff.1 (by tauto)),
    if_neg (mt State.lapsesLost_iff.1 (by tauto))]

theorem keyboardLapse_claimed {s : State} (hr : s.stopped = false)
    (h : s.intake.owner ≠ .keyboard ∨ s.intake.lineWork) : exec .keyboardLapse s = .next s := by
  rw [exec_keyboardLapse hr, if_neg (mt State.lapsesEmpty_iff.1 (by tauto)),
    if_neg (mt State.lapsesLost_iff.1 (by tauto))]

/-- The second case of R40: the displayed line is empty and no key would use it. -/
theorem keyboardLapse_empty {s : State} (hr : s.stopped = false) (ho : s.intake.owner = .keyboard)
    (hw : ¬ s.intake.lineWork) (he : s.lines.current.entries = []) (hv : s.lines.viewDepth = 0) :
    exec .keyboardLapse s = .next s.releaseLine := by
  rw [exec_keyboardLapse hr, if_pos (State.lapsesEmpty_iff.2 ⟨ho, he, hv, hw⟩)]

/-- The third case of R40: the role is lost and no key would use the line. -/
theorem keyboardLapse_lost {s : State} (hr : s.stopped = false) (ho : s.intake.owner = .keyboard)
    (hw : ¬ s.intake.lineWork) (hu : s.bus.usable .keyboard = false) :
    exec .keyboardLapse s = .next s.lapseLost := by
  by_cases h : s.lines.current.entries = [] ∧ s.lines.viewDepth = 0
  · rw [keyboardLapse_empty hr ho hw h.1 h.2, State.lapseLost_current h.2, if_pos (by simp [h.1])]
  · rw [exec_keyboardLapse hr, if_neg (mt State.lapsesEmpty_iff.1 (by tauto)),
      if_pos (State.lapsesLost_iff.2 ⟨ho, hu, hw⟩)]

/-- With the role lost, KEYBOARD_LAPSE is the third case of R40 and nothing else. -/
theorem keyboardLapse_unusable {s : State} (hr : s.stopped = false)
    (hu : s.bus.usable .keyboard = false) :
    exec .keyboardLapse s = .next (if s.lapsesLost then s.lapseLost else s) := by
  by_cases h : s.intake.owner ≠ .keyboard ∨ s.intake.lineWork
  · rw [keyboardLapse_claimed hr h, if_neg (mt State.lapsesLost_iff.1 (by tauto))]
  · obtain ⟨ho, hw⟩ := not_or.1 h
    have ho := Decidable.not_not.1 ho
    rw [keyboardLapse_lost hr ho hw hu, if_pos (State.lapsesLost_iff.2 ⟨ho, hu, hw⟩)]

/-! ### A role whose record changes (R17, R19) -/

/-- The record of a station is the only one that holds a role. -/
def Bus.onlyHolder (b : Bus) (n : StationNo) (r : Role) : Prop :=
  ∀ m, b.table[m].role = some r → m = n

theorem Bus.usable_iff {b : Bus} {r : Role} : b.usable r = true ↔
    ∃ m : StationNo, b.table[m].role = some r ∧ b.table[m].status = .adopted := by
  have all : ∀ m : StationNo, m ∈ stationNumbers := by decide
  simp only [Bus.usable, List.any_eq_true, Bool.and_eq_true, beq_iff_eq]
  exact ⟨fun ⟨m, _, h⟩ => ⟨m, h⟩, fun ⟨m, h⟩ => ⟨m, all m, h⟩⟩

/-- A role of which one record alone may be the holder is usable when that record holds it and is ADOPTED
(R19). -/
theorem Bus.usable_holder {b : Bus} {n : StationNo} {role : Role} (only : b.onlyHolder n role) :
    b.usable role = true ↔ b.table[n].role = some role ∧ b.table[n].status = .adopted := by
  rw [Bus.usable_iff]
  refine ⟨fun ⟨m, hr, hs⟩ => ?_, fun h => ⟨n, h⟩⟩
  obtain rfl := only m hr
  exact ⟨hr, hs⟩

@[simp] theorem State.setStation_same (s : State) (n : StationNo) (r : Station) :
    (s.setStation n r).bus.table[n] = r := by
  simp [State.setStation]

theorem State.setStation_other {s : State} {n m : StationNo} (r : Station) (h : m ≠ n) :
    (s.setStation n r).bus.table[m] = s.bus.table[m] := by
  have h' : ¬ n.val = m.val := fun e => h (Fin.ext e.symm)
  simp [State.setStation, h']

theorem State.onlyHolder_setStation {s : State} {n : StationNo} {r : Station} {role : Role}
    (only : s.bus.onlyHolder n role) : (s.setStation n r).bus.onlyHolder n role := by
  intro m hm
  by_contra h
  rw [State.setStation_other r h] at hm
  exact h (only m hm)

/-- The role of a record in the changed table, for a role the record holds neither before nor after. -/
theorem State.setStation_holds {s : State} {n : StationNo} {r : Station} {role : Role}
    (h : s.bus.table[n].role ≠ some role) (h' : r.role ≠ some role) (m : StationNo) :
    ((s.setStation n r).bus.table[m].role = some role ↔ s.bus.table[m].role = some role) ∧
      (s.bus.table[m].role = some role →
        (s.setStation n r).bus.table[m].status = s.bus.table[m].status) := by
  by_cases hm : m = n
  · subst hm
    rw [State.setStation_same]
    exact ⟨⟨fun k => absurd k h', fun k => absurd k h⟩, fun k => absurd k h⟩
  · rw [State.setStation_other r hm]
    exact ⟨Iff.rfl, fun _ => rfl⟩

/-- A record that holds a role neither before nor after makes that role no more and no less usable. -/
theorem State.usable_setStation_other {s : State} {n : StationNo} {r : Station} {role : Role}
    (h : s.bus.table[n].role ≠ some role) (h' : r.role ≠ some role) :
    (s.setStation n r).bus.usable role = s.bus.usable role := by
  have holds := State.setStation_holds h h'
  rw [Bool.eq_iff_iff, Bus.usable_iff, Bus.usable_iff]
  refine exists_congr fun m => ?_
  rw [(holds m).1]
  exact and_congr_right fun k => by rw [(holds m).2 k]

/-- A record that holds a role neither before nor after changes no holder of that role. -/
theorem State.holder_setStation_other {s : State} {n : StationNo} {r : Station} {role : Role}
    (h : s.bus.table[n].role ≠ some role) (h' : r.role ≠ some role) :
    (s.setStation n r).bus.holder role = s.bus.holder role := by
  unfold Bus.holder
  congr 1
  funext m
  rw [Bool.eq_iff_iff, beq_iff_eq, beq_iff_eq]
  exact (State.setStation_holds h h' m).1

/-- A record that a ROLL vacates is one that the role is not usable with (R17, R19). -/
theorem Vacates.lost {r r' : Station} {kind first second : Nat} (h : Vacates r kind first second r') :
    r'.status ≠ .adopted ∧ (r'.role = none ∨ r'.role = r.role) := by
  rcases h with ⟨-, rfl⟩ | ⟨k, -, -, rfl⟩
  · exact ⟨nofun, .inr rfl⟩
  · exact ⟨nofun, .inl rfl⟩

/-- The record that a ROLL vacates, in the table of R17. -/
theorem Vacates.afterWindow {r r' : Station} {kind first second : Nat}
    (h : Vacates r kind first second r') (hs : r.status = .adopted ∨ r.status = .lost) :
    r.afterWindow kind first second = r' := by
  rcases h with ⟨rfl, rfl⟩ | ⟨k, hk, hd, rfl⟩
  · rcases hs with hs | hs <;> simp only [Station.afterWindow, hs, stationKindOf]
  · rcases hs with hs | hs <;> simp only [Station.afterWindow, hs, hk] <;> exact if_neg hd

/-- A ROLL after the window has closed changes the record by the table of R17, and the units concerned are
told (R19). -/
theorem exec_roll_closed {s : State} {sender : StationNo} {kind first second : Nat} {r' : Station}
    (hr : s.stopped = false) (hc : s.bus.conflict = false) (hw : s.bus.window = .closed)
    (ho : sender ≠ s.bus.own) (hf : rollFieldsOk kind first second = true)
    (becomes : s.bus.table[sender].afterWindow kind first second = r') :
    exec (.roll sender kind first second) s =
      .next (((s.answerWith .absent).setStation sender r').tellUsability (s.answerWith .absent).bus) := by
  rw [exec_roll hr hc ho hf]
  have window : (s.answerWith .absent).bus.window = .closed := hw
  have record : (s.answerWith .absent).bus.table[sender].afterWindow kind first second = r' := becomes
  simp only [State.takeRoll, window, if_true, record]

end Sys2Proof.Machine

namespace Sys2Proof.Machine

/-! ### The keyboard leaves, changes or returns (R17, R19) -/

/-- The units that a ROLL of the keyboard's station concerns: only the usability of the role KEYBOARD can
change (R19). -/
theorem State.tellUsability_keyboard {s : State} {old : Bus}
    (others : ∀ role ≠ .keyboard, s.bus.usable role = old.usable role) : s.tellUsability old =
      if old.usable .keyboard = s.bus.usable .keyboard then s
      else if s.tellKeyboard.lapsesLost then s.tellKeyboard.lapseLost else s.tellKeyboard := by
  have source1 := others .source1 nofun
  have source2 := others .source2 nofun
  simp only [State.tellUsability, source1, source2, Bool.and_not_self, Bool.false_eq_true, if_false]

/-- The return of a view changes no line but for its strikes and words (R107). -/
theorem State.relocated_same {s : State} (hv : s.lines.viewDepth ≠ 0) :
    (s.relocated.lines.current.entries = [] ↔ s.lines.current.entries = []) ∧
      s.relocated.lines.nextLine = s.lines.nextLine ∧
      s.relocated.lines.ring.length = s.lines.ring.length := by
  have layout := State.relocated_layout hv
  have unit {α : Type} (f : LineStore → α) := congrArg f layout
  have entries : s.relocated.lines.current.entries.map Entry.shape =
    s.lines.current.entries.map Entry.shape := unit fun ls => ls.current.entries
  have ring : s.relocated.lines.ring.map Line.layout = s.lines.ring.map Line.layout :=
    unit LineStore.ring
  refine ⟨?_, unit LineStore.nextLine, by simpa using congrArg List.length ring⟩
  rw [← List.length_eq_zero_iff, ← List.length_eq_zero_iff]
  rw [show s.relocated.lines.current.entries.length = s.lines.current.entries.length by
    simpa using congrArg List.length entries]

/-- Settles O41: the two cases of R40 on the current line and in a view; a ROLL of the keyboard's station
changes the usability of that one role. -/
theorem keyboardLapses : Obligations.KeyboardLapses := by
  refine ⟨?_, ?_⟩
  · intro s hr work next empty
    refine ⟨keyboardLapse_claimed hr, fun ho hw he hv => ?_,
      fun ho hw he hv => ⟨fun h => ?_, fun hu hf => ?_⟩,
      fun ho hw hv => ?_⟩
    · exact ⟨_, keyboardLapse_empty hr ho hw he hv, State.releaseLine_lapses ho hw⟩
    · by_cases hu : s.bus.usable .keyboard = true
      · exact keyboardLapse_stays hr (fun e => he e.1) (by simp [hu])
      · rw [keyboardLapse_lost hr ho hw (by simpa using hu), State.lapseLost_current hv,
          if_neg (by simpa using he), if_pos (h.resolve_left hu)]
    · obtain ⟨owner, ownership, -, number, entries, commits, keys, actions⟩ :=
        State.commit_lapses ho hw
      refine ⟨_, ?_, owner, ownership, number, entries, commits, keys, actions⟩
      rw [keyboardLapse_lost hr ho hw hu, State.lapseLost_current hv, if_neg (by simpa using he),
        if_neg (by simp [hf])]
    · intro n feed returned
      have view : s.relocated = returned := State.relocated_view hv
      have intake : s.relocated.intake = s.intake := s.relocated_intake
      obtain ⟨empties, numbers, ring⟩ := State.relocated_same hv
      refine ⟨fun h => ?_, fun hu hroom => ⟨fun he => ?_, fun he hf => ?_⟩⟩
      · by_cases hu : s.bus.usable .keyboard = true
        · exact keyboardLapse_stays hr (fun e => hv e.2) (by simp [hu])
        · rw [keyboardLapse_lost hr ho hw (by simpa using hu), State.lapseLost_view hv,
            if_pos (h.resolve_left hu)]
      · rw [← view]
        refine ⟨_, ?_, State.releaseLine_lapses (intake ▸ ho) (intake ▸ hw) |>.1, ?_⟩
        · rw [keyboardLapse_lost hr ho hw hu, State.lapseLost_view hv, if_neg (by omega),
            if_pos (by simpa [empties] using he)]
        · have := (State.releaseLine_lapses (s := s.relocated) (intake ▸ ho) (intake ▸ hw)).2
          rwa [intake] at this
      · rw [← view] at hf ⊢
        obtain ⟨owner, ownership, depth, number, entries, commits, -, actions⟩ :=
          State.commit_lapses (s := s.relocated) (intake ▸ ho) (intake ▸ hw)
        rw [intake] at owner
        refine ⟨_, ?_, owner, ownership, depth, number.trans numbers, entries,
          fun hl => commits (ring.trans_le hl), actions⟩
        rw [keyboardLapse_lost hr ho hw hu, State.lapseLost_view hv, if_neg (by omega),
          if_neg (by simpa [empties] using he), if_neg (by simp [hf])]
  · intro s sender hr hc hw ho hrole only r told
    have after {kind first second : Nat} {r' : Station}
        (hf : rollFieldsOk kind first second = true)
        (becomes : r.afterWindow kind first second = r')
        (hr' : r'.role = none ∨ r'.role = some .keyboard) :
        let u := (s.answerWith .absent).setStation sender r'
        exec (.roll sender kind first second) s = .next
          (if s.bus.usable .keyboard = u.bus.usable .keyboard then u
            else if u.tellKeyboard.lapsesLost then u.tellKeyboard.lapseLost else u.tellKeyboard) := by
      intro u
      refine (exec_roll_closed hr hc hw ho hf becomes).trans (congrArg _ ?_)
      refine State.tellUsability_keyboard fun role hk => State.usable_setStation_other ?_ ?_
      · show s.bus.table[sender].role ≠ some role
        rw [hrole]
        exact fun e => hk (Option.some.inj e).symm
      · rcases hr' with h | h <;> rw [h]
        · nofun
        · exact fun e => hk (Option.some.inj e).symm
    have held : s.bus.usable .keyboard = true ↔ r.status = .adopted :=
      (Bus.usable_holder only).trans (and_iff_right hrole)
    have holds (r' : Station) :
        (((s.answerWith .absent).setStation sender r').bus.usable .keyboard = true ↔
          r'.role = some .keyboard ∧ r'.status = .adopted) := by
      have := Bus.usable_holder (State.onlyHolder_setStation (s := s.answerWith .absent) (r := r') only)
      rwa [State.setStation_same] at this
    refine ⟨?_, ?_⟩
    · intro kind first second r' hf vacates
      have role : r'.role = none ∨ r'.role = some .keyboard := vacates.lost.2.imp_right (·.trans hrole)
      have unusable : ((s.answerWith .absent).setStation sender r').bus.usable .keyboard = false :=
        Bool.eq_false_iff.2 fun k => vacates.lost.1 ((holds r').1 k).2
      refine ⟨fun hs => ?_, fun hs => ?_⟩
      · rw [after hf (vacates.afterWindow (.inl hs)) role, unusable, held.2 hs]
        have tells : ((s.answerWith .absent).setStation sender r').tellKeyboard = told r' true := by
          unfold State.tellKeyboard
          rw [unusable]
          rfl
        rw [tells, keyboardLapse_unusable (s := told r' true) hr unusable]
        rfl
      · have before : s.bus.usable .keyboard = false :=
          Bool.eq_false_iff.2 fun k => by simp [held.1 k] at hs
        rw [after hf (vacates.afterWindow (.inr hs)) role, unusable, before]
        rfl
    · intro kind hs hf hk hkind
      have returns : r.afterWindow kind r.ability1 r.ability2 =
          { r with status := .adopted, unanswered := 0 } := by
        simp only [Station.afterWindow, hs, hk, hkind, and_self, if_true]
      have before : s.bus.usable .keyboard = false :=
        Bool.eq_false_iff.2 fun k => by simp [held.1 k] at hs
      have usable := (holds { r with status := .adopted, unanswered := 0 }).2 ⟨hrole, rfl⟩
      rw [after hf returns (.inr hrole), usable, before, if_neg (by decide),
        if_neg (mt State.lapsesLost_iff.1 (by
          rintro ⟨-, k, -⟩
          exact absurd (usable.symm.trans k) nofun))]
      unfold State.tellKeyboard
      rw [usable]
      rfl

end Sys2Proof.Machine

namespace Sys2Proof.Machine

/-! ### The end of a source's ownership (R35, R37, R38, R41) -/

theorem State.releaseLine_intake (s : State) :
    s.releaseLine.intake = { s.intake with owner := s.releaseLine.intake.owner } := by
  have given : (s.setOwner .none).intake = { s.intake with owner := .none } := by rw [s.setOwner_spec]
  have granted : s.releaseLine.intake =
      { (s.setOwner .none).intake with owner := s.releaseLine.intake.owner } := by
    unfold State.releaseLine
    rw [State.arbitrate_spec]
  rw [granted, given]

@[simp] theorem State.releaseLine_src (s : State) (n : SourceNo) :
    s.releaseLine.intake.src n = s.intake.src n := by
  rw [s.releaseLine_intake]
  cases n <;> rfl

theorem ownerOf_ne_keyboard (n : SourceNo) : ownerOf n ≠ .keyboard := by cases n <;> nofun

/-- An ownership that does not come back to the owner who gave it up has changed, and nothing else. -/
theorem State.releaseLine_ownershipOnly_of_ne {s : State}
    (h : s.releaseLine.intake.owner ≠ s.intake.owner) : OwnershipOnly s s.releaseLine := by
  refine ⟨fun k => absurd k h, fun _ => ?_⟩
  unfold State.releaseLine
  obtain e | ⟨-, o, -, e, -⟩ := (s.setOwner .none).arbitrate_cases <;> rw [e]
  · exact .inl (by rw [State.setOwner_owner])
  · exact .inr (by rw [State.setOwner_owner])

/-- The arbiter does not grant a line without an owner to a source whose slot is empty (R39). -/
theorem State.arbitrate_ne_source {s : State} {n : SourceNo} (ho : s.intake.owner = .none)
    (hs : (s.intake.src n).slot = none) : s.arbitrate.intake.owner ≠ ownerOf n := by
  unfold State.arbitrate
  rw [if_neg (not_not.2 ho)]
  split
  · rw [State.setOwner_owner]
    exact (ownerOf_ne_keyboard n).symm
  · cases n with
    | source1 =>
      rw [if_neg (by simpa [Intake.src] using hs)]
      split
      · rw [State.setOwner_owner]
        nofun
      · rw [ho]
        nofun
    | source2 =>
      split
      · rw [State.setOwner_owner]
        nofun
      · rw [if_neg (by simpa [Intake.src] using hs), ho]
        nofun

/-- A source whose slot is empty gives the line up, and does not get it again (R41). -/
theorem State.releaseLine_source {s : State} {n : SourceNo} (ho : s.intake.owner = ownerOf n)
    (hs : (s.intake.src n).slot = none) :
    s.releaseLine.intake.owner ≠ ownerOf n ∧ OwnershipOnly s s.releaseLine := by
  have given : (s.setOwner .none).intake.src n = s.intake.src n := by
    rw [s.setOwner_spec]
    cases n <;> rfl
  have ended : s.releaseLine.intake.owner ≠ ownerOf n :=
    State.arbitrate_ne_source (s.setOwner_owner .none) (given ▸ hs)
  exact ⟨ended, State.releaseLine_ownershipOnly_of_ne (ho ▸ ended)⟩

/-! ### The close of a job (R35) -/

/-- A job of the source `n` has ended from `s` to `t`: the line has been committed if it has live entries,
the record of the source is `r`, and its ownership is at an end (R35, R41, R99). -/
structure JobEnds (s t : State) (n : SourceNo) (r : SourceIntake) : Prop where
  record : t.intake.src n = r
  owner : t.intake.owner ≠ ownerOf n
  keys : t.intake.keys = s.intake.keys
  ownership : ∃ u : State, u.intake.owner = ownerOf n ∧ OwnershipOnly u t
  kept : s.lines.current.live = [] → t.lines.current.entries = s.lines.current.entries
  opens : s.lines.current.live ≠ [] →
    t.lines.current.number = s.lines.nextLine ∧ t.lines.current.entries = []
  commits : s.lines.current.live ≠ [] → s.lines.ring.length ≤ 3 → CommitsLine s t
  actions : s.seq.queue <+: t.seq.queue
  corr : t.corr = s.corr

/-- The line is committed as it stands if it has live entries (R35, R38). -/
def State.commitLive (s : State) : State :=
  if s.lines.current.live.isEmpty then s else s.commit []

/-- A job that ends from `v`, in which the line is that of `s` (R35, R38, R41): what is told of its source
leaves the line committed, and then the ownership ends. -/
theorem jobEnds_releaseLine {s v w : State} {n : SourceNo} (alike : CommitsAlike s v)
    (keys : w.intake.keys = s.intake.keys) (ho : w.intake.owner = ownerOf n)
    (hs : (w.intake.src n).slot = none) (same : SameCommit v.commitLive w) (corr : w.corr = s.corr) :
    JobEnds s w.releaseLine n (w.intake.src n) := by
  obtain ⟨owner, ownership⟩ := State.releaseLine_source ho hs
  have lines := alike.words.lines
  have same := same.trans w.releaseLine_sameCommit
  have empty (he : s.lines.current.live = []) : v.commitLive = v := by
    rw [State.commitLive, lines, if_pos (by simpa using he)]
  have full (he : s.lines.current.live ≠ []) : v.commitLive = v.commit [] := by
    rw [State.commitLive, lines, if_neg (by simpa using he)]
  refine ⟨w.releaseLine_src n, owner, by simp [keys], ⟨w, ho, ownership⟩, fun he => ?_, fun he => ?_,
    fun he hl => ?_, ?_, by simp [corr]⟩
  · rw [same.entries, empty he, lines]
  · rw [same.number, same.entries, full he, State.commit_number, State.commit_entries, lines]
    exact ⟨rfl, rfl⟩
  · rw [full he] at same
    exact ((State.commit_commitsLine (lines ▸ hl)).of_same same).of_alike alike
  · rw [same.seq, ← alike.seq]
    by_cases he : s.lines.current.live = []
    · rw [empty he]
    · rw [full he]
      exact v.commit_actions

/-- The job of a source is closed (R35). -/
def State.jobClosed (s : State) (n : SourceNo) (id last : Nat) : State :=
  s.mapIntake fun i => i.mapSrc n fun r => { r with job := .idle, closedJob := some (id, last) }

theorem State.closeJob_closes {s : State} {n : SourceNo} {id last : Nat}
    (hj : (s.intake.src n).job = .ending id last) (ho : s.intake.owner = ownerOf n)
    (hc : s.lines.current.live = [] ∨ s.lineFeeding = false) :
    s.closeJob n = (s.commitLive.jobClosed n id last).releaseLine := by
  unfold State.closeJob State.commitLive
  rw [hj]
  simp only [ho, ne_eq, not_true_eq_false, if_false]
  split
  · rfl
  · next he => rw [if_neg (by simp [hc.resolve_left (by simpa using he)])]; rfl

theorem State.closeJob_waits {s : State} {n : SourceNo} (ho : s.intake.owner = ownerOf n)
    (he : s.lines.current.live ≠ []) (hf : s.lineFeeding = true) : s.closeJob n = s := by
  unfold State.closeJob
  split
  · simp [ho, hf, he]
  · rfl

theorem State.closeJob_other {s : State} {n : SourceNo}
    (h : ∀ id last, (s.intake.src n).job ≠ .ending id last) : s.closeJob n = s := by
  unfold State.closeJob
  split
  · next id last hj => exact absurd hj (h id last)
  · rfl

theorem State.commitLive_intake (s : State) : s.commitLive.intake = s.intake := by
  unfold State.commitLive
  split
  · rfl
  · exact s.commit_intake []

theorem State.commitLive_corr (s : State) : s.commitLive.corr = s.corr := by
  unfold State.commitLive
  split
  · rfl
  · exact s.commit_corr []

theorem CommitsAlike.refl (s : State) : CommitsAlike s s :=
  ⟨⟨rfl, rfl, rfl, rfl, fun _ => rfl, fun _ => rfl, rfl⟩, rfl, rfl, rfl, rfl, rfl, rfl, rfl⟩

/-- What Intake holds does not bear on a commit. -/
theorem CommitsAlike.mapIntake {s v : State} (h : CommitsAlike s v) (f : Intake → Intake) :
    CommitsAlike s (v.mapIntake f) :=
  ⟨⟨h.words.lines, h.words.spell, h.words.queue, h.words.conflict, h.words.usable, h.words.holder,
    h.words.suspended⟩, h.seq, h.wheel, h.corr, h.pins, h.supply, h.store, h.esc⟩

theorem CommitsAlike.lineFeeding {s v : State} (h : CommitsAlike s v) : v.lineFeeding = s.lineFeeding := by
  unfold State.lineFeeding
  rw [h.words.lines]

/-- An ENDING job of the owner closes (R35). -/
theorem closeJob_ends {s v : State} {n : SourceNo} {id last : Nat} (alike : CommitsAlike s v)
    (keys : v.intake.keys = s.intake.keys) (hj : (v.intake.src n).job = .ending id last)
    (ho : v.intake.owner = ownerOf n) (hs : (v.intake.src n).slot = none)
    (hc : s.lines.current.live = [] ∨ s.lineFeeding = false) :
    JobEnds s (v.closeJob n) n
      { v.intake.src n with job := .idle, closedJob := some (id, last) } := by
  let w := v.commitLive.jobClosed n id last
  have record : w.intake.src n =
      { v.intake.src n with job := .idle, closedJob := some (id, last) } := by
    rw [← v.commitLive_intake]
    exact Intake.src_mapSrc ..
  have owner : w.intake.owner = ownerOf n := by
    rw [← ho, ← v.commitLive_intake]
    cases n <;> rfl
  have rest : w.intake.keys = s.intake.keys := by
    rw [← keys, ← v.commitLive_intake]
    cases n <;> rfl
  rw [State.closeJob_closes hj ho (by rwa [alike.words.lines, alike.lineFeeding]), ← record]
  exact jobEnds_releaseLine alike rest owner (by rw [record]; exact hs) (State.mapIntake_sameCommit _ _)
    (v.commitLive_corr.trans alike.corr)

/-- The job of a source that owns the line ends, and closes (R35, R36, R37). -/
theorem endJob_ends {s v : State} {n : SourceNo} {id last : Nat} (alike : CommitsAlike s v)
    (keys : v.intake.keys = s.intake.keys) (ho : v.intake.owner = ownerOf n)
    (hs : (v.intake.src n).slot = none) (hc : s.lines.current.live = [] ∨ s.lineFeeding = false) :
    JobEnds s (v.endJob n id last) n
      { v.intake.src n with job := .idle, closedJob := some (id, last), idleRunning := false } := by
  let ended := v.mapIntake fun i =>
    i.mapSrc n fun r => { r with job := .ending id last, idleRunning := false }
  have record : ended.intake.src n =
      { v.intake.src n with job := .ending id last, idleRunning := false } :=
    Intake.src_mapSrc ..
  have ends := closeJob_ends (v := ended) (alike.mapIntake _) (by rw [← keys]; cases n <;> rfl)
    (by rw [record]) (by rw [← ho]; cases n <;> rfl) (by rw [record]; exact hs) hc
  rw [record] at ends
  exact ends

/-- The job of a source that owns the line is ENDING while its commit waits (R35, R36, R37). -/
theorem State.endJob_waits {s : State} {n : SourceNo} {id last : Nat} (ho : s.intake.owner = ownerOf n)
    (he : s.lines.current.live ≠ []) (hf : s.lineFeeding = true) : s.endJob n id last =
      s.mapIntake fun i => i.mapSrc n fun r => { r with job := .ending id last, idleRunning := false } :=
  State.closeJob_waits (by rw [← ho]; cases n <;> rfl) he hf

end Sys2Proof.Machine

namespace Sys2Proof.Machine

/-! ### JOB_IDLE_EXPIRY and JOB_CLOSE (R35, R36) -/

theorem exec_jobIdleExpiry {s : State} {n : SourceNo} {id last : Nat} (hr : s.stopped = false)
    (hi : (s.intake.src n).idleRunning = true) (hj : (s.intake.src n).job = .opened id last) :
    exec (.jobIdleExpiry n) s =
      .next (if s.supply.power = .powerWarn then s else s.endJob n id last) := by
  simp [exec, execJobIdleExpiry, State.whenRunning_eq hr, hi, hj]

/-- The close of one source's job leaves the record of the other source. -/
theorem State.closeJob_src_other (s : State) {m n : SourceNo} (h : m ≠ n) :
    (s.closeJob n).intake.src m = s.intake.src m := by
  have other (i : Intake) (f : SourceIntake → SourceIntake) : (i.mapSrc n f).src m = i.src m := by
    cases m <;> cases n
    · exact absurd rfl h
    · rfl
    · rfl
    · exact absurd rfl h
  unfold State.closeJob
  split
  · repeat' split
    all_goals simp [State.mapIntake, other]
  · rfl

/-- With no other job ENDING, JOB_CLOSE is the close of this one (R35). -/
theorem exec_jobClose {s : State} {n : SourceNo} (hr : s.stopped = false)
    (only : ∀ m a b, (s.intake.src m).job = .ending a b → m = n) :
    exec .jobClose s = .next (s.closeJob n) := by
  have other (m : SourceNo) (h : m ≠ n) (id last : Nat) : (s.intake.src m).job ≠ .ending id last :=
    fun k => h (only m id last k)
  simp only [exec, execJobClose, State.whenRunning_eq hr]
  cases n with
  | source1 =>
    rw [State.closeJob_other (s := s.closeJob .source1)]
    rw [s.closeJob_src_other (m := .source2) (n := .source1) nofun]
    exact other .source2 nofun
  | source2 => rw [State.closeJob_other (s := s) (other .source1 nofun)]

/-! ### A source leaves (R17, R19, R37) -/

/-- The role of a source. -/
def roleOf : SourceNo → Role
  | .source1 => .source1
  | .source2 => .source2

/-- The units that a ROLL of a source's station concerns, when it makes the role unusable (R19). -/
theorem State.tellUsability_source {s : State} {n : SourceNo} {old : Bus}
    (others : ∀ role ≠ roleOf n, s.bus.usable role = old.usable role)
    (before : old.usable (roleOf n) = true) (now : s.bus.usable (roleOf n) = false) :
    s.tellUsability old = s.sourceLost n := by
  have keyboard := others .keyboard (by cases n <;> nofun)
  cases n with
  | source1 =>
    have source2 := others .source2 nofun
    simp_all [State.tellUsability, roleOf]
  | source2 =>
    have source1 := others .source1 nofun
    simp_all [State.tellUsability, roleOf]

/-- The block of a source is discarded, and its idle expiry stops (R37). -/
def State.sourceGone (s : State) (n : SourceNo) : State :=
  s.mapIntake fun i => i.mapSrc n fun r => { r with slot := none, idleRunning := false }

theorem State.sourceGone_src (s : State) (n : SourceNo) : (s.sourceGone n).intake.src n =
    { s.intake.src n with slot := none, idleRunning := false } := Intake.src_mapSrc ..

/-- A source without an open job (R37). -/
theorem State.sourceLost_closed {s : State} {n : SourceNo}
    (h : ∀ id last, (s.intake.src n).job ≠ .opened id last) : s.sourceLost n = s.sourceGone n := by
  show (match ((s.sourceGone n).intake.src n).job with | .opened _ _ => _ | _ => _) = _
  rw [s.sourceGone_src]
  split
  · next id last hj => exact absurd hj (h id last)
  · rfl

/-- A source with an open job (R37). -/
theorem State.sourceLost_opened {s : State} {n : SourceNo} {id last : Nat}
    (h : (s.intake.src n).job = .opened id last) : s.sourceLost n =
      if s.intake.owner = ownerOf n then (s.sourceGone n).endJob n id last
      else (s.sourceGone n).mapIntake fun i => i.mapSrc n fun r => { r with job := .idle } := by
  have job : ((s.sourceGone n).intake.src n).job = .opened id last := by rw [s.sourceGone_src, ← h]
  have owner : (s.sourceGone n).intake.owner = s.intake.owner := by cases n <;> rfl
  rw [← owner]
  show (match ((s.sourceGone n).intake.src n).job with | .opened _ _ => _ | _ => _) = _
  rw [job]
  rfl

/-- Settles O40: every job that ends goes through `closeJob`, and a ROLL of a source's station changes the
usability of that one role. -/
theorem jobsClose : Obligations.JobsClose := by
  refine ⟨?_, ?_⟩
  · intro s n id last hr hs ho r empty closes
    have closed {i : Instr} {t : State} (e : exec i s = .next t)
        (ends : JobEnds s t n { r with
          job := .idle, closedJob := some (id, last)
          idleRunning := if i = .jobClose then r.idleRunning else false }) : closes i :=
      ⟨t, e, ends.record, ends.owner, ends.keys, ends.ownership, ends.kept, ends.opens, ends.commits,
        ends.actions, ends.corr⟩
    refine ⟨fun hi hj => ⟨fun hp => ?_, fun hp hc => ?_, fun hp he hf => ?_⟩,
      fun hj only => ⟨fun hc => ?_, fun he hf => ?_⟩⟩
    · rw [exec_jobIdleExpiry hr hi hj, if_pos hp]
    · exact closed ((exec_jobIdleExpiry hr hi hj).trans (congrArg _ (if_neg hp)))
        (endJob_ends (.refl s) rfl ho hs hc)
    · rw [exec_jobIdleExpiry hr hi hj, if_neg hp, State.endJob_waits ho he hf]
      rfl
    · exact closed (exec_jobClose hr only) (closeJob_ends (.refl s) rfl hj ho hs hc)
    · rw [exec_jobClose hr only, State.closeJob_waits ho he hf]
  · intro s n sender kind first second r' hr hc hw ho hf vacates role hs hrole only r gone empty u leaves
    have unusable := vacates.lost
    let v := (s.answerWith .absent).setStation sender r'
    have hrole : s.bus.table[sender].role = some (roleOf n) := by rw [hrole]; cases n <;> rfl
    have only : s.bus.onlyHolder sender (roleOf n) := by cases n <;> exact only
    have others (other : Role) (h : other ≠ roleOf n) : s.bus.table[sender].role ≠ some other ∧
        r'.role ≠ some other := by
      have : s.bus.table[sender].role ≠ some other := by
        rw [hrole]
        exact fun e => h (Option.some.inj e).symm
      refine ⟨this, ?_⟩
      rcases unusable.2 with e | e <;> rw [e]
      · nofun
      · exact this
    have lost : leaves (v.sourceLost n) := by
      refine (exec_roll_closed hr hc hw ho hf (vacates.afterWindow (.inl hs))).trans (congrArg _ ?_)
      refine State.tellUsability_source (fun other h =>
        State.usable_setStation_other (others other h).1 (others other h).2)
        (Bus.usable_iff.2 ⟨sender, hrole, hs⟩) (Bool.eq_false_iff.2 fun k => ?_)
      have now := (Bus.usable_holder (State.onlyHolder_setStation (s := s.answerWith .absent) only)).1 k
      rw [State.setStation_same] at now
      exact unusable.1 now.2
    have alike : CommitsAlike s v := by
      have dict (d : DictRole) : d.role ≠ roleOf n := by cases d <;> cases n <;> nofun
      exact ⟨⟨rfl, rfl, rfl, rfl, fun d =>
        State.usable_setStation_other (others _ (dict d)).1 (others _ (dict d)).2, fun d =>
        State.holder_setStation_other (others _ (dict d)).1 (others _ (dict d)).2, rfl⟩,
        rfl, rfl, rfl, rfl, rfl, rfl, rfl⟩
    have becomes (f : SourceIntake → SourceIntake) :
        (v.mapIntake fun i => i.mapSrc n f) = u (f r) :=
      congrArg (fun i => ({ v with intake := i } : State)) (Intake.mapSrc_congr rfl)
    have becomesBoth (f g : SourceIntake → SourceIntake) :
        ((v.mapIntake fun i => i.mapSrc n f).mapIntake fun i => i.mapSrc n g) = u (g (f r)) :=
      (congrArg (fun i => ({ v with intake := i } : State)) (Intake.mapSrc_mapSrc ..)).trans
        (becomes (g ∘ f))
    have left (h : ∀ id last, r.job ≠ .opened id last) : leaves (u gone) := by
      have lost := lost
      rw [State.sourceLost_closed (s := v) h] at lost
      exact lost.trans (congrArg _ (becomes _))
    have owner : (v.sourceGone n).intake.owner = s.intake.owner := by cases n <;> rfl
    refine ⟨fun hj => left (by simp [hj]), fun id last hj => left (by simp [hj]), fun id last hj =>
      ⟨fun hn => ?_, fun hn he hf => ?_, fun hn hf => ?_⟩⟩
    all_goals rw [State.sourceLost_opened (s := v) hj] at lost
    · rw [if_neg (show ¬ v.intake.owner = ownerOf n from hn)] at lost
      exact lost.trans (congrArg _ (becomesBoth _ _))
    · rw [if_pos (show v.intake.owner = ownerOf n from hn),
        State.endJob_waits (owner.trans hn) he hf] at lost
      exact lost.trans (congrArg _ (becomesBoth _ _))
    · rw [if_pos (show v.intake.owner = ownerOf n from hn)] at lost
      have record := v.sourceGone_src n
      have ends := endJob_ends (v := v.sourceGone n) (id := id) (last := last) (alike.mapIntake _)
        (by cases n <;> rfl) (owner.trans hn) (by rw [record]) hf
      refine ⟨_, lost, ends.record.trans ?_, ends.owner, ?_, ends.ownership, ends.kept, ends.commits⟩
      · rw [record]
        rfl
      · exact Bus.fixed_table (State.endJob_busFixed _ n id last)

end Sys2Proof.Machine

namespace Sys2Proof.Machine

/-! ### The REPORT that waits or is on the line (R22, R23) -/

/-- The REPORT that is queued is the frame on the line. -/
def Bus.reportSending (b : Bus) : Prop := ∃ p, queuedReport b.queue = some p ∧ b.sending = some p.1

/-- The frame on the line is one of those queued. -/
def Bus.Sends (b : Bus) : Prop := ∀ i, b.sending = some i → i < b.queue.length

/-- The frame on the line stays on the line, and it is a REPORT after if it was one before. -/
structure ReportsGoOn (b c : Bus) : Prop where
  conflict : c.conflict = b.conflict
  sends : b.Sends → c.Sends
  sending : b.Sends → (c.reportSending ↔ b.reportSending)

theorem ReportsGoOn.refl (b : Bus) : ReportsGoOn b b := ⟨rfl, id, fun _ => Iff.rfl⟩

theorem ReportsGoOn.trans {b c d : Bus} (h : ReportsGoOn b c) (k : ReportsGoOn c d) : ReportsGoOn b d :=
  ⟨k.conflict.trans h.conflict, fun hb => k.sends (h.sends hb),
    fun hb => (k.sending (h.sends hb)).trans (h.sending hb)⟩

/-- Frames that are no REPORTs, at the newest end, leave the queued REPORT in its place. -/
theorem queuedReport_ignores {q extra : List OutFrame} (h : ∀ f ∈ extra, f.isReport = false) :
    queuedReport (q ++ extra) = queuedReport q := by
  induction q with
  | nil => exact queuedReport_eq_none h
  | cons f q ih => cases f <;> simp [queuedReport, ih]

theorem queuedReport_set {q : List OutFrame} {i : Nat} {old new : Report}
    (h : queuedReport q = some (i, old)) : queuedReport (q.set i (.report new)) = some (i, new) := by
  obtain ⟨before, after, rfl, rfl, none⟩ := queuedReport_some h
  rw [List.set_append_right _ _ (le_refl _), Nat.sub_self, List.set_cons_zero, queuedReport_append none]

/-- A frame that joins does not become the frame on the line. -/
theorem Bus.Sends.ne_length {b : Bus} (h : b.Sends) : b.sending ≠ some b.queue.length :=
  fun k => Nat.lt_irrefl _ (h _ k)

/-- A REPORT trigger (R22). -/
theorem State.triggerReport_goesOn (s : State) (c : ReportCause) :
    ReportsGoOn s.bus (s.triggerReport c).bus := by
  unfold State.triggerReport
  split
  · exact .refl _
  · split
    · next i old hq =>
      split
      · exact ⟨rfl, id, fun _ => Iff.rfl⟩
      · refine ⟨rfl, fun h j hj => by simpa using h j hj, fun _ => ?_⟩
        simp only [Bus.reportSending, State.mapBus_bus, queuedReport_set hq, hq, Option.some.injEq,
          exists_eq_left']
    · next hq =>
      refine ⟨rfl, fun h j hj => ?_, fun h => ?_⟩
      · exact (h j hj).trans_le (by simp)
      · have none := queuedReport_none hq
        simp only [Bus.reportSending, State.mapBus_bus, queuedReport_append none, hq,
          Option.some.injEq, exists_eq_left', h.ne_length]
        simp

theorem State.reportIfChanged_goesOn (s : State) (m : MachineState) :
    ReportsGoOn s.bus (s.reportIfChanged m).bus := by
  unfold State.reportIfChanged
  split
  · exact .refl _
  · exact s.triggerReport_goesOn _

theorem State.setMech_goesOn (s : State) (m : MechState) (p : Option PauseCause)
    (n : Option WheelNeed) {b : Bus} (h : ReportsGoOn b s.bus) : ReportsGoOn b (s.setMech m p n).bus :=
  h.trans (State.reportIfChanged_goesOn ((s.mapSeq fun q => { q with mech := m }).mapDisp fun d =>
    { d with standing := { d.standing with pause := p, wheel := n } }) s.machine)

theorem State.examineHead_goesOn (s : State) : ReportsGoOn s.bus s.examineHead.bus := by
  unfold State.examineHead
  split
  · exact .refl _
  · repeat' split
    all_goals exact State.setMech_goesOn _ _ _ _ (.refl _)

theorem State.settle_goesOn (s : State) : ReportsGoOn s.bus s.settle.bus := by
  have pumped : s.pump.bus = s.bus := by rw [s.pump_feeding.rest]
  rw [← pumped]
  unfold State.settle
  split
  · exact .refl _
  · exact s.pump.examineHead_goesOn

/-- What the Spelling Unit enqueues is no REPORT (R167). -/
theorem SpellingOnly.goesOn {s t : State} (h : SpellingOnly s t) : ReportsGoOn s.bus t.bus := by
  obtain ⟨extra, hq⟩ := h.frames
  have none : ∀ f ∈ extra, f.isReport = false := by
    have count := h.queries
    rw [← hq, List.countP_append] at count
    intro f hf
    simpa using List.countP_eq_zero.1 (Nat.add_eq_left.1 count) f hf
  have queued : queuedReport t.bus.queue = queuedReport s.bus.queue := by
    rw [← hq, queuedReport_ignores none]
  have sending : t.bus.sending = s.bus.sending := by rw [h.rest]
  refine ⟨by rw [h.rest], fun hs i hi => ?_, fun _ => ?_⟩
  · rw [sending] at hi
    exact (hs i hi).trans_le (by simp [← hq])
  · simp only [Bus.reportSending, queued, sending]

theorem State.commit_goesOn (s : State) : ReportsGoOn s.bus (s.commit []).bus := by
  have turned : s.lineTurned.bus = s.lineEnded.bus := s.lineJoined.ringOverflow_bus
  have settled := s.lineTurned.settle_goesOn
  rw [turned] at settled
  exact s.lineEnded_only.goesOn.trans settled

end Sys2Proof.Machine

namespace Sys2Proof.Machine

/-! ### What the next REPORT carries (R22, R23) -/

/-- The next REPORT to be sent carries what `P` says: the one that waits, or, while a REPORT is on the line,
the triggers held for after it. -/
structure Bus.Tells (P : ReportCause → Prop) (b : Bus) : Prop where
  held : b.reportSending → ∃ c, b.heldReport = some c ∧ P c
  waits : ¬ b.reportSending → ∃ p, queuedReport b.queue = some p ∧ P p.2.cause

theorem ReportCause.plain_merge (c : ReportCause) : ReportCause.plain.merge c = c := by
  simp [ReportCause.merge, ReportCause.plain]

theorem ReportCause.merge_plain (c : ReportCause) : c.merge .plain = c := by
  simp [ReportCause.merge, ReportCause.plain]

theorem Bus.reportSending_iff {b : Bus} {i : Nat} {r : Report} (h : queuedReport b.queue = some (i, r)) :
    b.reportSending ↔ b.sending = some i := by
  simp [Bus.reportSending, h]

/-- What a trigger leaves told: the triggers before it, and its own (R23). -/
theorem State.triggerReport_tells {s : State} {P : ReportCause → Prop} {c : ReportCause}
    (hc : s.bus.conflict = false) (hs : s.bus.Sends)
    (held : s.bus.reportSending → P ((s.bus.heldReport.getD .plain).merge c))
    (waits : ∀ p, queuedReport s.bus.queue = some p → ¬ s.bus.reportSending → P (p.2.cause.merge c))
    (first : queuedReport s.bus.queue = none → P c) : (s.triggerReport c).bus.Tells P := by
  unfold State.triggerReport
  rw [hc]
  split
  · next h => cases h
  · split
    · next i old hq =>
      have sending := Bus.reportSending_iff hq
      split
      · next hi =>
        have still : (s.mapBus fun b => { b with
            heldReport := some ((b.heldReport.getD .plain).merge c) }).bus.reportSending := sending.2 hi
        exact ⟨fun _ => ⟨_, rfl, held (sending.2 hi)⟩, fun k => absurd still k⟩
      · next hi =>
        have set := queuedReport_set (new := s.buildReport (old.cause.merge c) old.start) hq
        exact ⟨fun k => absurd ((Bus.reportSending_iff set).1 k) hi,
          fun _ => ⟨_, set, waits _ hq (mt sending.1 hi)⟩⟩
    · next hq =>
      have joins := queuedReport_append (after := []) (old := s.buildReport c none) (queuedReport_none hq)
      exact ⟨fun k => absurd ((Bus.reportSending_iff joins).1 k) hs.ne_length,
        fun _ => ⟨_, joins, first hq⟩⟩

/-- A trigger that carries something is told, whatever else is (R23). -/
theorem State.triggerReport_tells_new {s : State} {P : ReportCause → Prop} {c : ReportCause}
    (hc : s.bus.conflict = false) (hs : s.bus.Sends) (carries : ∀ e : ReportCause, P (e.merge c)) :
    (s.triggerReport c).bus.Tells P :=
  State.triggerReport_tells hc hs (fun _ => carries _) (fun _ _ _ => carries _)
    fun _ => c.plain_merge ▸ carries .plain

/-- A trigger that carries nothing leaves what is told (R23). -/
theorem State.triggerReport_tells_still {s : State} {P : ReportCause → Prop}
    (hc : s.bus.conflict = false) (hs : s.bus.Sends) (told : s.bus.Tells P) :
    (s.triggerReport .plain).bus.Tells P := by
  refine State.triggerReport_tells hc hs (fun k => ?_) (fun p hp k => ?_) fun hq => ?_
  · obtain ⟨c, held, hP⟩ := told.held k
    rw [held, ReportCause.merge_plain]
    exact hP
  · obtain ⟨q, hq, hP⟩ := told.waits k
    obtain rfl := Option.some.inj (hp.symm.trans hq)
    rw [ReportCause.merge_plain]
    exact hP
  · obtain ⟨q, hq', -⟩ := told.waits fun ⟨p, hp, _⟩ => by simp [hq] at hp
    simp [hq] at hq'

/-- The queue is lawful as far as the REPORTs need: no CONFLICT, and the frame on the line is queued; and
the next REPORT tells `P`. -/
structure Bus.Telling (P : ReportCause → Prop) (b : Bus) : Prop where
  conflict : b.conflict = false
  sends : b.Sends
  tells : b.Tells P

theorem State.setOwner_goesOn (s : State) (o : Owner) : ReportsGoOn s.bus (s.setOwner o).bus :=
  State.triggerReport_goesOn ((s.mapIntake fun i => { i with owner := o }).mapCurrent fun l => { l with
    owner := o
    mode := match o with
      | .source1 => .hold
      | .source2 => .hold
      | .none => s.lines.keyboardMode
      | .keyboard => l.mode }) .plain

theorem State.releaseLine_goesOn (s : State) : ReportsGoOn s.bus s.releaseLine.bus := by
  unfold State.releaseLine
  obtain e | ⟨-, o, -, e, -⟩ := (s.setOwner .none).arbitrate_cases <;> rw [e]
  · exact s.setOwner_goesOn _
  · exact (s.setOwner_goesOn _).trans (State.setOwner_goesOn _ _)

theorem State.setOwner_telling {s : State} {P : ReportCause → Prop} (h : s.bus.Telling P) (o : Owner) :
    (s.setOwner o).bus.Telling P := by
  obtain ⟨hc, hs, ht⟩ := h
  let v : State := (s.mapIntake fun i => { i with owner := o }).mapCurrent fun l => { l with
    owner := o
    mode := match o with
      | .source1 => .hold
      | .source2 => .hold
      | .none => s.lines.keyboardMode
      | .keyboard => l.mode }
  have goes := s.setOwner_goesOn o
  exact ⟨goes.conflict.trans hc, goes.sends hs, State.triggerReport_tells_still (s := v) hc hs ht⟩

theorem State.releaseLine_telling {s : State} {P : ReportCause → Prop} (h : s.bus.Telling P) :
    s.releaseLine.bus.Telling P := by
  unfold State.releaseLine
  obtain e | ⟨-, o, -, e, -⟩ := (s.setOwner .none).arbitrate_cases <;> rw [e]
  · exact State.setOwner_telling h _
  · exact State.setOwner_telling (State.setOwner_telling h _) _

/-- With one REPORT queued at most, it is the frame on the line when that frame is a REPORT. -/
theorem Bus.reportSending_of_one {b : Bus} (one : b.queue.countP OutFrame.isReport ≤ 1) :
    b.reportSending ↔ ∃ i old, b.sending = some i ∧ b.queue[i]? = some (.report old) := by
  constructor
  · rintro ⟨⟨i, r⟩, hq, hi⟩
    obtain ⟨before, after, h, rfl, -⟩ := queuedReport_some hq
    exact ⟨_, r, hi, by simp [h]⟩
  · rintro ⟨i, old, hi, hold⟩
    cases hq : queuedReport b.queue with
    | none => exact absurd (queuedReport_none hq _ (List.mem_of_getElem? hold)) nofun
    | some p =>
      obtain ⟨before, after, h, hp, none⟩ := queuedReport_some hq
      have after_none : ∀ f ∈ after, f.isReport = false := by
        rw [h, List.countP_append, List.countP_cons] at one
        simp only [OutFrame.isReport, if_true] at one
        intro f hf
        simpa using List.countP_eq_zero.1 (show after.countP OutFrame.isReport = 0 by omega) f hf
      refine ⟨p, hq, hi.trans (congrArg some ?_)⟩
      rw [hp]
      rw [h] at hold
      rcases Nat.lt_trichotomy i before.length with hlt | heq | hgt
      · rw [List.getElem?_append_left hlt] at hold
        exact absurd (none _ (List.mem_of_getElem? hold)) nofun
      · exact heq
      · obtain ⟨j, rfl⟩ := Nat.exists_eq_add_of_lt hgt
        rw [Nat.add_assoc, List.getElem?_append_right (by omega), Nat.add_sub_cancel_left,
          List.getElem?_cons_succ] at hold
        exact absurd (after_none _ (List.mem_of_getElem? hold)) nofun

end Sys2Proof.Machine

namespace Sys2Proof.Machine

/-! ### STOP JOB (R38) -/

/-- After a key the arbiter has nothing more to do when an ownership has just ended: what it granted has a
use (R39, R40). -/
theorem State.afterKey_releaseLine (s : State) : s.releaseLine.afterKey false = s.releaseLine := by
  unfold State.releaseLine
  obtain e | ⟨-, o, ho, e, claims⟩ := (s.setOwner .none).arbitrate_cases
  · rw [e, State.afterKey_unowned (s.setOwner_owner .none), e]
  · have work (h : o = .keyboard) : (s.setOwner .none).intake.lineWork := by
      by_contra hw
      have := claims h
      rw [Intake.keyboardClaims_of_hasLineWork (Intake.hasLineWork_of_not hw)] at this
      cases this
    rw [e]
    have keys : ((s.setOwner .none).setOwner o).intake.keys = (s.setOwner .none).intake.keys := by simp
    have owner := (s.setOwner .none).setOwner_owner o
    have used : ((s.setOwner .none).setOwner o).intake.owner = .keyboard →
        ((s.setOwner .none).setOwner o).intake.lineWork := by
      rw [owner]
      unfold Intake.lineWork
      rw [keys]
      exact work
    simp only [State.afterKey, Bool.false_and, Bool.false_eq_true, if_false]
    rw [if_neg (mt State.lapsesEmpty_iff.1 (by tauto)), if_neg (mt State.lapsesLost_iff.1 (by tauto)),
      State.arbitrate_owned (by rw [owner]; exact ho)]

/-- After a key a source keeps the line (R40). -/
theorem State.afterKey_source {s : State} {n : SourceNo} (h : s.intake.owner = ownerOf n) :
    s.afterKey false = s := by
  cases n <;> simp [State.afterKey, State.lapsesEmpty, State.lapsesLost, State.arbitrate, h, ownerOf]

/-- STOP JOB at the head is decided by its own rule, whoever owns the line (R31). -/
theorem exec_stopJob {s : State} {k : Keystroke} {rest : List Keystroke} (h : s.HeadKey k rest)
    (hm : s.machine ≠ .halted) (hk : k.code = 29) :
    exec .stopJob s = .next (s.carryKey k (actStopJob k (s.withoutKey rest))) := by
  have unclaimed : s.claimLine k = s := if_neg (by rw [hk]; decide)
  have allowed : allowedUnderSource k.code = true := by rw [hk]; decide
  simp only [exec, execStopJob, State.examineKey, h.keys, h.running, h.consuming, unclaimed, allowed,
    State.popKey_eq h.keys]
  simp [hm, hk, stopJobCode]

theorem ownerOf_source (n : SourceNo) : (ownerOf n).source = some n := by cases n <;> rfl

/-- The trigger of a job stopped on a source says which one (R23). -/
def stops (n : SourceNo) (id : Nat) (c : ReportCause) : Prop :=
  (n = .source1 → c.stopped1 = some id) ∧ (n = .source2 → c.stopped2 = some id)

theorem stops_merge (n : SourceNo) (id : Nat) (e : ReportCause) :
    stops n id (e.merge (stoppedCause n id)) := by
  cases n <;> simp [stops, stoppedCause, ReportCause.merge]

/-- The record of a source whose job is stopped (R38 steps 3 and 4). -/
def SourceIntake.stop (r : SourceIntake) (id : Nat) : SourceIntake :=
  { r with slot := none, idleRunning := false, stoppedJob := id, job := .idle }

/-- A job that is stopped, before its source's ownership ends (R38 steps 1 to 4). -/
def State.jobStopped (s : State) (n : SourceNo) (id : Nat) : State :=
  (s.commitLive.mapIntake fun i => i.mapSrc n fun r => r.stop id).triggerReport (stoppedCause n id)

theorem State.stopJob_eq (s : State) (n : SourceNo) (id : Nat) :
    s.stopJob n id = (s.jobStopped n id).releaseLine := rfl

theorem State.jobStopped_intake (s : State) (n : SourceNo) (id : Nat) :
    (s.jobStopped n id).intake = s.intake.mapSrc n fun r => r.stop id := by
  unfold State.jobStopped
  rw [State.triggerReport_intake]
  exact congrArg (fun i => i.mapSrc n fun r => r.stop id) s.commitLive_intake

/-- The job is stopped: it ends with its line committed (R38). -/
theorem stopJob_ends {s : State} {n : SourceNo} {id : Nat} (ho : s.intake.owner = ownerOf n) :
    JobEnds s (s.stopJob n id) n ((s.intake.src n).stop id) := by
  have record : (s.jobStopped n id).intake.src n = (s.intake.src n).stop id := by
    rw [s.jobStopped_intake]
    exact Intake.src_mapSrc ..
  rw [s.stopJob_eq, ← record]
  refine jobEnds_releaseLine (.refl s) ?_ ?_ (by rw [record]; rfl) ?_ ?_
  · rw [s.jobStopped_intake]
    cases n <;> rfl
  · rw [s.jobStopped_intake, ← ho]
    cases n <;> rfl
  · exact (State.mapIntake_sameCommit _ _).trans (State.triggerReport_sameCommit _ _)
  · exact (State.triggerReport_corr _ _).trans s.commitLive_corr

/-- The next REPORT carries the stopped job id (R22, R23). -/
theorem stopJob_telling {s : State} {n : SourceNo} {id : Nat} (hc : s.bus.conflict = false)
    (hs : s.bus.Sends) : (s.stopJob n id).bus.Telling (stops n id) ∧
      ((s.stopJob n id).bus.reportSending ↔ s.bus.reportSending) := by
  have committed : ReportsGoOn s.bus s.commitLive.bus := by
    unfold State.commitLive
    split
    · exact .refl _
    · exact s.commit_goesOn
  have triggered : ReportsGoOn s.commitLive.bus (s.jobStopped n id).bus :=
    State.triggerReport_goesOn (s.commitLive.mapIntake fun i => i.mapSrc n fun r => r.stop id) _
  have stopped := committed.trans triggered
  have tells : (s.jobStopped n id).bus.Tells (stops n id) :=
    State.triggerReport_tells_new (committed.conflict.trans hc) (committed.sends hs)
      (stops_merge n id)
  rw [s.stopJob_eq]
  exact ⟨State.releaseLine_telling ⟨stopped.conflict.trans hc, stopped.sends hs, tells⟩,
    (stopped.trans (State.releaseLine_goesOn _)).sending hs⟩

theorem State.commitLive_marginRelease (s : State) :
    s.commitLive.esc.marginRelease = s.esc.marginRelease := by
  unfold State.commitLive
  split
  · rfl
  · simp [State.commit]

/-- Settles O38: the stopped job ends as any job does, but for its record and the id that the next REPORT
carries. -/
theorem stopJobKey : Obligations.StopJobKey := by
  intro s k rest h hm hk
  have refused : exec .stopJob s = .next ((s.refusedAs k rest none).afterKey false) →
      ∃ t, exec .stopJob s = .next t ∧ KeyLeaves (s.refusedAs k rest none) t := fun e =>
    ⟨_, e, State.afterKey_leaves (by rw [s.refusedAs_spec]; exact h.running)⟩
  have act := exec_stopJob h hm hk
  refine ⟨fun ho => refused ?_, fun n ho => ?_⟩
  · have outcome : actStopJob k (s.withoutKey rest) = .refuse none := by
      simp [actStopJob, State.withoutKey, ho]
    rw [act, outcome]
    exact congrArg _ (State.refuseKey_eq h.keys none)
  · intro r empty
    have source : (s.withoutKey rest).intake.owner.source = some n := by
      rw [← ownerOf_source n, ← ho]
      rfl
    have alike : CommitsAlike s (s.withoutKey rest) :=
      ⟨⟨rfl, rfl, rfl, rfl, fun _ => rfl, fun _ => rfl, rfl⟩, rfl, rfl, rfl, rfl, rfl, rfl, rfl⟩
    have carried {o : KeyOutcome} (e : actStopJob k (s.withoutKey rest) = o) :
        exec .stopJob s = .next (s.carryKey k o) := e ▸ act
    refine ⟨fun id last hj => ?_, fun id last hj he hf => ?_, fun id last hj hc => ?_⟩
    · refine (carried (o := .refuse none) ?_).trans (congrArg _ ?_)
      · simp only [actStopJob, source, show ((s.withoutKey rest).intake.src n).job = _ from hj]
      · refine (State.refuseKey_eq h.keys none).trans (State.afterKey_source (n := n) ?_)
        rw [s.refusedAs_spec]
        exact ho
    · refine carried (o := .wait) ?_
      simp only [actStopJob, source, show ((s.withoutKey rest).intake.src n).job = _ from hj]
      exact if_pos ⟨he, hf⟩
    · intro reports onLine
      have ends := stopJob_ends (s := s.withoutKey rest) (id := id) ho
      refine ⟨(s.withoutKey rest).stopJob n id, ?_, ends.keys, ends.record, ends.owner, ends.kept,
        fun he => ends.opens he, fun he hl => (ends.commits he hl).of_alike alike,
        fun conflict one sends => ?_, ends.actions, ends.corr, ?_⟩
      · refine (carried (o := .take ((s.withoutKey rest).stopJob n id) false) ?_).trans
          (congrArg _ (State.afterKey_releaseLine _))
        simp only [actStopJob, source, show ((s.withoutKey rest).intake.src n).job = _ from hj]
        exact if_neg fun ⟨he, hf⟩ => by
          rcases hc with hc | hc
          · exact he hc
          · exact absurd (hf.symm.trans hc) nofun
      · obtain ⟨⟨-, -, tells⟩, sending⟩ :=
          stopJob_telling (s := s.withoutKey rest) (n := n) (id := id) conflict sends
        have line := sending.trans (Bus.reportSending_of_one (b := s.bus) one)
        refine ⟨fun no => ?_, fun yes => tells.held (line.2 yes)⟩
        obtain ⟨p, hp, hstops⟩ := tells.waits (mt line.1 no)
        obtain ⟨before, after, hq, -, -⟩ := queuedReport_some hp
        exact ⟨p.2, by simp [hq], hstops⟩
      · rw [State.stopJob_eq, State.releaseLine_esc, State.jobStopped, State.triggerReport_esc]
        exact State.commitLive_marginRelease _

end Sys2Proof.Machine

namespace Sys2Proof.Machine

/-! ### The queue of commands (log 1) -/

/-- Settles O1: by the two cases of the queue. -/
theorem stepRunsFrontCommand : Obligations.StepRunsFrontCommand :=
  ⟨fun c s rest h => by simp [step, h], fun s h => by simp [step, h]⟩

/-- The queue of commands stands as in `s` in the state that a key is taken with, if it is taken. -/
def KeyOutcome.KeepsQueue (s : State) : KeyOutcome → Prop
  | .wait => True
  | .refuse _ => True
  | .take t _ => t.pending = s.pending

@[simp] theorem KeyOutcome.keepsQueue_wait (s : State) : KeyOutcome.wait.KeepsQueue s := trivial
@[simp] theorem KeyOutcome.keepsQueue_refuse (s : State) (m : Option Message) :
    (KeyOutcome.refuse m).KeepsQueue s := trivial
@[simp] theorem KeyOutcome.keepsQueue_take (s t : State) (b : Bool) :
    (KeyOutcome.take t b).KeepsQueue s ↔ t.pending = s.pending := Iff.rfl

theorem State.carryKey_pending {s : State} (k : Keystroke) {o : KeyOutcome} (ho : o.KeepsQueue s.popKey) :
    (s.carryKey k o).pending = s.pending := by
  cases o with
  | wait => rfl
  | refuse m => exact s.refuseKey_pending k m
  | take t b => exact (t.afterKey_pending b).trans ho

theorem State.examineKey_pending (s : State) (ours : Nat → Bool) {act : Keystroke → State → KeyOutcome}
    (ha : ∀ k t, (act k t).KeepsQueue t) : (s.examineKey ours act).pending = s.pending := by
  unfold State.examineKey
  split
  · rfl
  · next k _ _ =>
    repeat' split
    · rfl
    · simp
    · simp
    · exact (State.carryKey_pending k (ha k _)).trans (s.claimLine_pending k)

/-! The effects of the keys -/

@[simp] theorem State.appendComposed_pending (s : State) (k : EntryKind) (a : Nat) (u : Bool) :
    (s.appendComposed k a u).pending = s.pending := by simp [State.appendComposed, State.cursorToEnd]

@[simp] theorem State.wrapCommit_pending (s : State) (r c : List Entry) :
    (s.wrapCommit r c).pending = s.pending := by simp [State.wrapCommit]

@[simp] theorem State.wrapWith_pending (s : State) (k : EntryKind) (a : Nat) (u : Bool) :
    (s.wrapWith k a u).pending = s.pending := by simp [State.wrapWith]

@[simp] theorem State.wrapEmpty_pending (s : State) : s.wrapEmpty.pending = s.pending := by
  simp [State.wrapEmpty]

@[simp] theorem State.breakWith_pending (s : State) (k : EntryKind) (a : Nat) (u : Bool) :
    (s.breakWith k a u).pending = s.pending := by simp [State.breakWith, State.breakCommit]

@[simp] theorem State.appendPrinted_pending (s : State) (e : Entry) :
    (s.appendPrinted e).pending = s.pending := by
  simp only [State.appendPrinted, State.markRest]
  split <;> simp [State.cursorToEnd]

@[simp] theorem State.returnCommit_pending (s : State) : s.returnCommit.pending = s.pending := by
  simp [State.returnCommit]

@[simp] theorem appendDirect_keepsQueue (k : EntryKind) (a : Nat) (s : State) :
    (appendDirect k a s).KeepsQueue s := by
  simp only [appendDirect]
  repeat' split
  all_goals simp

@[simp] theorem appendHold_keepsQueue (k : EntryKind) (a : Nat) (s : State) :
    (appendHold k a s).KeepsQueue s := by
  unfold appendHold
  repeat' split
  all_goals simp

@[simp] theorem insertInHold_keepsQueue (k : EntryKind) (a : Nat) (s : State) :
    (insertInHold k a s).KeepsQueue s := by
  simp only [insertInHold]
  repeat' split
  all_goals simp

@[simp] theorem fillAtCursor_keepsQueue (k : EntryKind) (a : Nat) (s : State) :
    (fillAtCursor k a s).KeepsQueue s := by
  simp only [fillAtCursor]
  repeat' split
  all_goals simp

@[simp] theorem placeKey_keepsQueue (k : EntryKind) (a : Nat) (s : State) :
    (placeKey k a s).KeepsQueue s := by
  unfold placeKey
  repeat' split
  all_goals simp

theorem placeTab_keepsQueue (s : State) : (placeTab s).KeepsQueue s := by
  unfold placeTab
  repeat' split
  all_goals simp

@[simp] theorem State.moveCursor_keepsQueue (s : State) (c : Nat) : (s.moveCursor c).KeepsQueue s := by
  unfold State.moveCursor
  repeat' split
  all_goals simp

@[simp] theorem actRelocate_keepsQueue (k : Keystroke) (s : State) : (actRelocate k s).KeepsQueue s := by
  unfold actRelocate
  split <;> simp

theorem actPaper_keepsQueue (d : Int) (k : Keystroke) (s : State) : (actPaper d k s).KeepsQueue s := by
  unfold actPaper
  repeat' split
  all_goals simp [State.movePaper]

theorem actStopJob_keepsQueue (k : Keystroke) (s : State) : (actStopJob k s).KeepsQueue s := by
  unfold actStopJob
  repeat' split
  all_goals simp [State.stopJob, apply_ite State.pending]

@[simp] theorem State.cleanLine_pending (s : State) (d : List Action) (n : Word) :
    (s.cleanLine d n).pending = s.pending := by
  unfold State.cleanLine
  repeat' split
  all_goals simp

@[simp] theorem State.recover_pending (s : State) : s.recover.pending = s.pending := by
  have cleaned (numbers : List Word) (t : State) :
      (numbers.foldl (fun t n => t.cleanLine s.seq.queue n) t).pending = t.pending :=
    foldl_keeps State.pending (fun t n => t.cleanLine_pending _ n) numbers t
  simp only [State.recover, State.restart]
  split <;> simp [cleaned, State.discardQueue]

@[simp] theorem State.addForm_pending (s : State) (form : List Nat) :
    (s.addForm form).pending = s.pending := by
  have accepted (t : State) (l : Line) : (t.acceptEqual form l).pending = t.pending :=
    foldl_keeps State.pending (fun t serial => by simp) _ t
  simp [State.addForm, State.markUserDirty, foldl_keeps State.pending accepted]

@[simp] theorem State.correct_pending (s : State) (reopen : Bool) (l : Line) (es : List Entry) :
    (s.correct reopen l es).pending = s.pending := by
  simp only [State.correct, State.withdrawn, State.reopened]
  repeat' split
  all_goals simp

theorem actCorrection_keepsQueue (choice : State → Choice) (s : State) :
    (actCorrection choice s).KeepsQueue s := by
  unfold actCorrection
  repeat' split
  all_goals simp

/-! The other commands -/

theorem State.whenRunning_pending {s : State} {f : State → State} (hf : (f s).pending = s.pending) :
    (s.whenRunning f).pending = s.pending := by
  unfold State.whenRunning
  split
  · rfl
  · exact hf

theorem State.receive_pending {s : State} {f : State → State} (hf : (f s).pending = s.pending) :
    (s.receive f).pending = s.pending := by
  refine State.whenRunning_pending ?_
  split
  · simp
  · exact hf

theorem State.received_pending (s : State) (bytes : List Byte) (c : Instr) (a : AnswerCode) :
    (s.received bytes c a).pending = s.pending :=
  State.receive_pending (by split <;> simp)

@[simp] theorem State.enterConflict_pending (s : State) : s.enterConflict.pending = s.pending := by
  simp [State.enterConflict]

theorem State.afterSent_pending (s : State) (a : AnswerCode) (f : OutFrame) :
    (s.afterSent a f).pending = s.pending := by
  unfold State.afterSent
  repeat' split
  all_goals simp

@[simp] theorem State.startWake_pending (s : State) : s.startWake.pending = s.pending := by
  rw [s.startWake_spec]

theorem State.offerKey_pending (s : State) (n : StationNo) (c r : Nat) :
    (s.offerKey n c r).2.pending = s.pending := by
  unfold State.offerKey State.takeKeystroke
  repeat' split
  all_goals simp

theorem State.offerText_pending (s : State) (n : StationNo) (b : TextBlock) :
    (s.offerText n b).2.pending = s.pending := by
  simp only [State.offerText, State.offerBlock, State.holdBlock, State.jobAt]
  repeat' split
  all_goals simp

theorem State.offerAnswer_pending (s : State) (n : StationNo) (tag : Fin 4) (v : Nat) :
    (s.offerAnswer n tag v).2.pending = s.pending := by
  unfold State.offerAnswer
  repeat' split
  all_goals simp

theorem State.sourceLost_pending (s : State) (n : SourceNo) : (s.sourceLost n).pending = s.pending := by
  simp only [State.sourceLost]
  repeat' split
  all_goals simp

theorem State.takeRoll_pending (s : State) (n : StationNo) (k a b : Nat) :
    (s.takeRoll n k a b).pending = s.pending := by
  simp only [State.takeRoll, State.tellUsability]
  repeat' split
  all_goals simp [State.sourceLost_pending]

@[simp] theorem State.leaveStarting_pending (s : State) : s.leaveStarting.pending = s.pending := by
  rw [s.leaveStarting_spec]

theorem State.consumeText_pending (s : State) (ours : Nat → Bool)
    {act : SourceIntake → Nat → State → Option State}
    (ha : ∀ r c t, act r c s = some t → t.pending = s.pending) :
    (s.consumeText ours act).pending = s.pending := by
  have consumed (t : State) (n : SourceNo) (h : HeldBlock) : (t.textConsumed n h).pending = t.pending := by
    simp only [State.textConsumed]
    repeat' split
    all_goals simp
  unfold State.consumeText
  repeat' split
  all_goals first
    | rfl
    | next ht => exact (consumed _ _ _).trans (ha _ _ _ ht)

theorem State.composeText_pending {s t : State} {k : EntryKind} {a : Nat} {u : Bool}
    (ht : s.composeText k a u = some t) : t.pending = s.pending := by
  unfold State.composeText at ht
  repeat' split at ht
  all_goals
    cases ht
    try simp

theorem textCharacter_pending {s t : State} {r : SourceIntake} {c : Nat}
    (ht : textCharacter r c s = some t) : t.pending = s.pending := by
  unfold textCharacter at ht
  split at ht
  · cases ht
  · split at ht
    · cases ht; rfl
    · split at ht <;> exact State.composeText_pending ht

theorem State.countLift_pending (s : State) (b : Blow) : (s.countLift b).pending = s.pending := by
  simp only [State.countLift, State.deleteLifted]
  repeat' split
  all_goals simp

@[simp] theorem State.endWake_pending (s : State) : s.endWake.pending = s.pending := by
  unfold State.endWake
  split <;> simp

theorem State.homed_pending (s : State) (w : HomingWhy) : (s.homed w).pending = s.pending := by
  cases w with
  | start | recovery | clear => simp [State.homed]
  | wake =>
    simp only [State.homed, State.wakeMove, State.endWake_pending]
    split <;> simp

theorem State.homingHalted_pending (s : State) (w : HomingWhy) :
    (s.homingHalted w).pending = s.pending := by
  cases w <;> simp [State.homingHalted]

@[simp] theorem State.halt_pending (s : State) (c : HaltCause) : (s.halt c).pending = s.pending := by
  simp [State.halt]

theorem State.secondExpiry_pending (s : State) (w : Work) (p : Unsettled) :
    (s.secondExpiry w p).pending = s.pending := by
  simp only [State.secondExpiry]
  split <;> simp [State.homingHalted_pending]

@[simp] theorem State.load_pending (s : State) : s.load.pending = s.pending := rfl

@[simp] theorem State.beginStart_pending (s : State) : s.beginStart.pending = s.pending := by
  simp only [State.beginStart, State.beginRollCall, State.startHoming_pending]
  split <;> simp

theorem State.start_pending (s : State) (c : StartCause) (t : Straps) :
    (s.start c t).pending = s.pending := by
  simp only [State.start]
  split <;> simp [State.fresh]

@[simp] theorem State.release_pending (s : State) : s.release.pending = s.pending := rfl

@[simp] theorem State.resume_pending (s : State) : s.resume.pending = s.pending := by
  unfold State.resume
  repeat' split
  all_goals simp

/-- Settles O2: row by row, every command answers a state with the queue as it was. -/
theorem commandsKeepTheQueue : Obligations.CommandsKeepTheQueue := by
  intro c s
  have key {ours : Nat → Bool} {act : Keystroke → State → KeyOutcome}
      (ha : ∀ k t, (act k t).KeepsQueue t) :
      ∃ t, (.next (s.examineKey ours act) : Host.Outcome State Fault Refusal) = .next t ∧
        t.pending = s.pending := ⟨_, rfl, s.examineKey_pending ours ha⟩
  have running {f : State → State} (hf : (f s).pending = s.pending) :
      ∃ t, (.next (s.whenRunning f) : Host.Outcome State Fault Refusal) = .next t ∧
        t.pending = s.pending := ⟨_, rfl, State.whenRunning_pending hf⟩
  have text {ours : Nat → Bool} {act : SourceIntake → Nat → State → Option State}
      (ha : ∀ r c t, act r c s = some t → t.pending = s.pending) :
      ∃ t, (.next (s.consumeText ours act) : Host.Outcome State Fault Refusal) = .next t ∧
        t.pending = s.pending := ⟨_, rfl, s.consumeText_pending ours ha⟩
  cases c with
  | frameSendStart position => exact running (by (repeat' split) <;> simp)
  | frameSent outcome => exact running (by (repeat' split) <;> simp [State.afterSent_pending])
  | sendMismatch => exact running (by split <;> simp)
  | frameCheckFailed | refusedFrame | discardedBroadcast | queryLeftToDictionary =>
    exact ⟨_, rfl, s.received_pending _ _ _⟩
  | key n c r => exact ⟨_, rfl, State.receive_pending (s.offerKey_pending n c r)⟩
  | text n b => exact ⟨_, rfl, State.receive_pending (s.offerText_pending n b)⟩
  | answer n tag v =>
    refine ⟨_, rfl, State.receive_pending ?_⟩
    simp only [answered, State.answerWith_pending]
    split <;> simp [State.offerAnswer_pending]
  | roll n k a b =>
    refine ⟨_, rfl, State.receive_pending ?_⟩
    dsimp only
    (repeat' split) <;> simp [State.takeRoll_pending]
  | rollWindowClose => exact running (by split <;> simp [State.closeRollCall])
  | answerExpiry tag => exact running (by split <;> simp)
  | returnKey => exact key fun k t => by unfold actReturn; (repeat' split) <;> simp
  | tab => exact key fun _ t => placeTab_keepsQueue t
  | backspace => exact key fun k t => by unfold actBackspace; split <;> simp
  | cursorRight => exact key fun k t => by unfold actCursorRight; split <;> simp
  | lineUp => exact key fun k t => by unfold actLineUp; (repeat' split) <;> simp [State.viewTo]
  | lineDown => exact key fun k t => by unfold actLineDown; (repeat' split) <;> simp [State.viewTo]
  | relocate => exact key actRelocate_keepsQueue
  | halfSpace => exact key fun k t => by unfold actHalfSpace; split <;> simp
  | space => exact key fun k t => by unfold actSpace; split <;> simp
  | printingCharacter => exact key fun k t => by unfold actCharacter; split <;> simp
  | correct | wordCorrect | spellCorrect => exact key fun _ t => actCorrection_keepsQueue _ t
  | marginRelease | clearAllTabs | justify | bold | underline | impression | lineSpacing | spell =>
    exact key fun _ _ => rfl
  | setLeftMargin => exact key fun k t => by simp only [actSetLeftMargin]; split <;> simp
  | setRightMargin => exact key fun k t => by simp only [actSetRightMargin]; split <;> simp
  | setTab => exact key fun k t => by simp only [actSetTab]; (repeat' split) <;> simp
  | clearTab => exact key fun k t => by simp only [actClearTab]; split <;> simp
  | hold => exact key fun k t => by unfold actHold; split <;> simp [State.toggleHold]
  | addWord => exact key fun k t => by unfold actAddWord; (repeat' split) <;> simp
  | storeSettings => exact key fun k t => by simp [takeAlways]
  | paperUp | paperDown => exact key (actPaper_keepsQueue _)
  | stopJob => exact key actStopJob_keepsQueue
  | clear => exact key fun k t => by unfold actClear; split <;> simp
  | tone => exact key fun k t => by simp [takeAlways, State.toggleSilence]
  | textCharacter => exact text fun _ _ _ => textCharacter_pending
  | textReturn =>
    refine text fun r c t ht => ?_
    split at ht <;> cases ht
    simp
  | textTab | textHalfSpace =>
    refine text fun r c t ht => ?_
    split at ht
    · cases ht
    · exact State.composeText_pending ht
  | textBold | textUnderline =>
    refine text fun r c t ht => ?_
    cases ht
    unfold State.mapOwnerSource
    split <;> simp
  | jobIdleExpiry n => exact running (by dsimp only; (repeat' split) <;> simp)
  | jobClose => exact running (by simp)
  | keyboardLapse => exact running (by (repeat' split) <;> simp)
  | strikeComplete => exact running (by split <;> simp [State.headDone, State.countStrike])
  | liftComplete => exact running (by split <;> simp [State.headDone, State.countLift_pending])
  | moveComplete | feedComplete => exact running (by split <;> simp [State.headDone])
  | homingComplete code =>
    exact running (by split <;> simp [State.wheelRead, State.homed_pending])
  | wheelReadComplete code => exact running (by split <;> simp [State.wheelRead])
  | actionLimitExpiry parts =>
    exact running (by (repeat' split) <;> simp [State.secondExpiry_pending, State.firstExpiry])
  | coverOpen => exact ⟨_, rfl, by split <;> simp [State.coverOpened]⟩
  | coverClose =>
    refine ⟨_, rfl, ?_⟩
    split
    · simp only [State.coverClosed]
      split <;> simp
    · simp
  | ribbonKindChange kind => exact ⟨_, rfl, by split <;> simp⟩
  | tapeNew => exact ⟨_, rfl, by (repeat' split) <;> simp⟩
  | messageTimeExpiry | blink | tonePatternEnd => exact running rfl
  | storeWriteComplete =>
    refine ⟨_, rfl, ?_⟩
    split
    · dsimp only
      (repeat' split) <;> simp
    · exact State.whenRunning_pending (by split <;> simp)
  | supplyWarning => exact running (by split <;> simp)
  | supplyRecovery => exact running (by split <;> simp)
  | supplyReset | resetAsserted => exact ⟨_, rfl, rfl⟩
  | coldStart straps | lineStart straps =>
    refine ⟨_, rfl, ?_⟩
    split
    · rfl
    · exact (State.start_pending _ _ _).trans rfl
  | standbyIdleExpiry => exact ⟨_, rfl, by split <;> simp [State.enterStandby]⟩

/-! ### The laws right after a start -/

/-- Settles O57: every field of the laws is a closed fact about `State.reset`. -/
theorem resetIsLawful : Obligations.ResetIsLawful := by
  have noStop {P : Nat → Prop} : ∀ t ∈ State.reset.esc.tabs, P t := nofun
  have line : State.reset.lines.current.Sized := ⟨by decide, by decide, nofun, .nil⟩
  refine ⟨?_, by decide, .of_counts nofun (by decide) (by decide) (by decide) (by decide),
    ⟨by decide, nofun, nofun⟩⟩
  exact {
    keys := by decide, actions := by decide, ring := by decide, items := by decide
    words := by decide, tape := by decide, platen := by decide, margins := by decide
    stops := by decide, rising := .nil, between := noStop, spacing := by decide
    impression := by decide, current := line, ringLines := nofun, window := by decide
    petal := ⟨by decide, nofun⟩, reserved := by decide, loadWaits := nofun }

/-! ### SPELL CORRECT with a FLAGGED word that no entry belongs to (R142, R150) -/

/-- A READY machine with the keyboard's SPELL CORRECT at the head, in a DIRECT line of a HALF SPACE and a GAP,
whose only word record is FLAGGED although no entry carries its serial. `State.Bounded` does not speak of
word records. -/
def wordWithoutEntries : State := { State.reset with
  bus := { State.reset.bus with
    table := State.reset.bus.table.set 0 ⟨some .keyboard, 1, 0, .adopted, some .keyboard, 0⟩
    queue := [], window := .closed }
  intake := { State.reset.intake with keys := [⟨11, false⟩], owner := .keyboard }
  wheel := ⟨some .f4, .fabric⟩
  lines := { State.reset.lines with current := { State.reset.lines.current with
    owner := .keyboard
    entries := [newEntry 0 .halfSpace 120 4 false, newEntry 1 .gap 124 4 false]
    words := [⟨7, 0, 2, 2, none, .flagged, none⟩]
    nextId := 2 } }
  seq := { State.reset.seq with mech := .idle, work := none }
  supply := { State.reset.supply with power := .run, rollCallDone := true, homingDone := true }
  pending := [.spellCorrect] }

theorem wordWithoutEntries_bounded : wordWithoutEntries.Bounded := by
  have noStop {P : Nat → Prop} : ∀ t ∈ wordWithoutEntries.esc.tabs, P t := nofun
  have line : wordWithoutEntries.lines.current.Sized :=
    ⟨by decide, by decide, by decide, by decide⟩
  exact {
    keys := by decide, actions := by decide, ring := by decide, items := by decide
    words := by decide, tape := by decide, platen := by decide, margins := by decide
    stops := by decide, rising := .nil, between := noStop, spacing := by decide
    impression := by decide, current := line, ringLines := nofun, window := by decide
    petal := ⟨by decide, nofun⟩, reserved := by decide, loadWaits := nofun }

/-- With no targets the new GAP goes before entry 0, while `gapBefore` looks at the end of the line, finds a
GAP there, and so takes the new GAP for merged: its id 2 stays in the line as the next id. -/
theorem wordWithoutEntries_step : (match step wordWithoutEntries with
    | .next t => decide (t.lines.current.nextId = 2 ∧ t.lines.current.entries.map (·.id) = [2, 0])
    | _ => false) = true := by
  decide +kernel

/-- Refutes O58: SPELL CORRECT for a word without entries leaves an entry whose id is not below the line's
next id. -/
theorem not_stepKeepsBounds : ¬ Obligations.StepKeepsBounds := by
  intro ⟨keeps, _⟩
  have ids := wordWithoutEntries_step
  cases h : step wordWithoutEntries with
  | fault r => cases r
  | refused r => simp [h] at ids
  | next t =>
    simp only [h, decide_eq_true_eq] at ids
    obtain ⟨next, entries⟩ := ids
    have below := (keeps _ t wordWithoutEntries_bounded h).current.below
    have two : 2 ∈ t.lines.current.entries.map (·.id) := by simp [entries]
    obtain ⟨e, he, hid⟩ := List.mem_map.1 two
    have := below e he
    omega

end Sys2Proof.Machine

namespace Sys2Proof.Machine

/-! ### A head key taken or refused by its chapter (R28 to R32) -/

/-- A key that R31 allows is decided by its own rule, whoever owns the line. -/
theorem State.examineKey_allowed {s : State} {k : Keystroke} {rest : List Keystroke}
    (h : s.HeadKey k rest) (hm : s.machine ≠ .halted) {ours : Nat → Bool} (hc : ours k.code = true)
    (act : Keystroke → State → KeyOutcome) (allowed : allowedUnderSource k.code = true)
    (owned : s.intake.owner ≠ .none) :
    s.examineKey ours act = s.carryKey k (act k (s.withoutKey rest)) := by
  have unclaimed : s.claimLine k = s := by
    unfold State.claimLine
    rw [State.arbitrate_owned owned, ite_self]
  simp only [State.examineKey, h.keys, h.running, h.consuming, hc, allowed, unclaimed,
    State.popKey_eq h.keys]
  simp [hm]

section

variable {s : State} {k : Keystroke} {rest : List Keystroke} {i : Instr} {o : KeyOutcome}

/-- A refused key leaves the state with the refusal shown, and the ownership examined. -/
theorem leaves_of_refused (h : s.HeadKey k rest) (run : exec i s = .next (s.carryKey k o))
    {m : Option Message} (ho : o = .refuse m) :
    ∃ t, exec i s = .next t ∧ KeyLeaves (s.refusedAs k rest m) t := by
  subst ho
  refine ⟨_, run.trans (congrArg _ (State.refuseKey_eq h.keys m)), State.afterKey_leaves ?_⟩
  rw [s.refusedAs_spec]
  exact h.running

/-- A key taken without a commit leaves its effect, and the ownership examined. -/
theorem leaves_of_taken (h : s.HeadKey k rest) (run : exec i s = .next (s.carryKey k o)) {u : State}
    (ho : o = .take u false) (supply : u.supply = s.supply) :
    ∃ t, exec i s = .next t ∧ KeyLeaves u t := by
  subst ho
  refine ⟨_, run, State.afterKey_leaves ?_⟩
  rw [State.stopped, supply]
  exact h.running

end

/-- Settles O22: HOLD and the paper keys have one condition, an empty current line that is displayed. -/
theorem holdAndPaperKeys : Obligations.HoldAndPaperKeys := by
  refine ⟨fun s k rest h ho hk => ?_, fun s k rest h hm ho => ?_⟩
  · intro takes
    have run : exec .hold s = .next (s.carryKey k (actHold k (s.withoutKey rest))) :=
      congrArg _ (State.examineKey_due h (by simp [hk]) actHold fun _ => by simp [ho])
    refine ⟨fun he hv => ?_, fun full => ?_⟩
    · exact leaves_of_taken h.toHeadKey run (if_pos ⟨he, hv⟩) rfl
    · refine leaves_of_refused h.toHeadKey run (if_neg ?_)
      rintro ⟨he, hv⟩
      exact full.elim (· he) (· hv)
  · intro moves
    have paper {i : Instr} {one : Word} {d : Int} (hd : BitVec.ofInt 16 d = one)
        (run : exec i s = .next (s.carryKey k (actPaper d k (s.withoutKey rest)))) : moves i one d := by
      subst hd
      refine ⟨fun full => leaves_of_refused h run (if_pos full), fun he hv => ?_⟩
      have clear : ¬ ((s.withoutKey rest).lines.current.entries ≠ [] ∨
          (s.withoutKey rest).lines.viewDepth ≠ 0) := by
        rintro (k | k)
        · exact k he
        · exact k hv
      have room : (s.withoutKey rest).hasRoom 1 = decide (1 ≤ s.room) := rfl
      have moving : actPaper d k (s.withoutKey rest) =
          if 1 ≤ s.room then .take ((s.withoutKey rest).movePaper d) false else .wait := by
        simp only [actPaper, if_neg clear, room, decide_eq_true_eq]
      refine ⟨fun hr => ?_, fun hr => leaves_of_taken h run (moving.trans (if_pos hr)) ?_⟩
      · rw [run, moving, if_neg (by omega)]
        rfl
      · exact State.settle_supply _
    have run {ours : Nat → Bool} (act : Keystroke → State → KeyOutcome) (hc : ours k.code = true)
        (allowed : allowedUnderSource k.code = true) :=
      congrArg (Host.Outcome.next (φ := Fault) (ρ := Refusal))
        (State.examineKey_allowed h hm hc act allowed ho)
    exact ⟨fun hk => paper rfl (run (actPaper 1) (by simp [hk]) (by simp [hk, allowedUnderSource])),
      fun hk => paper rfl (run (actPaper (-1)) (by simp [hk]) (by simp [hk, allowedUnderSource]))⟩

/-- Settles O23: both keys are one move of the cursor, away from the ends of the line. -/
theorem cursorKeys : Obligations.CursorKeys := by
  intro s k rest h ho printed moved movesTo refused
  have run {ours : Nat → Bool} (act : Keystroke → State → KeyOutcome) (hc : ours k.code = true) :=
    congrArg (Host.Outcome.next (φ := Fault) (ρ := Refusal))
      (State.examineKey_due h hc act fun _ => by simp [ho])
  have room : (s.withoutKey rest).hasRoom 1 = decide (1 ≤ s.room) := rfl
  have moves {i : Instr} {o : KeyOutcome} {c : Nat} (run : exec i s = .next (s.carryKey k o))
      (away : o = (s.withoutKey rest).moveCursor c) : movesTo i c := by
    have printing (hp : printed) : o = if 1 ≤ s.room then
        .take ((moved c).enqueue [.move (s.lines.displayed.point c)]).settle false else .wait := by
      refine away.trans ((if_pos hp).trans ?_)
      simp only [room, decide_eq_true_eq]
      rfl
    refine ⟨fun hp => leaves_of_taken h.toHeadKey run (away.trans (if_neg hp)) rfl,
      fun hp hr => leaves_of_taken h.toHeadKey run ((printing hp).trans (if_pos hr))
        (State.settle_supply _), fun hp hr => ?_⟩
    rw [run, printing hp, if_neg (by omega)]
    rfl
  refine ⟨fun hk => ?_, fun hk => ?_⟩
  · have run : exec .backspace s = _ := run actBackspace (by simp [hk])
    refine ⟨fun hc => leaves_of_refused h.toHeadKey run (if_pos hc), fun c hc => moves run ?_⟩
    have cursor : (s.withoutKey rest).lines.cursor = c + 1 := hc
    rw [actBackspace, cursor]
    rfl
  · have run : exec .cursorRight s = _ := run actCursorRight (by simp [hk])
    exact ⟨fun hc => leaves_of_refused h.toHeadKey run (if_pos hc),
      fun hc => moves run (if_neg (Nat.not_le.2 hc))⟩

end Sys2Proof.Machine

namespace Sys2Proof.Machine

/-! ### What a commit leaves alone (R99) -/

/-- What a commit changes: the lines, words and QUERYs, the print queue and the mechanism at its head, the
paper offset and the bell mark, the window and REPORTs. -/
theorem State.commit_rest (s : State) (carried : List Entry) : s.commit carried = { s with
    bus := { s.bus with
      queue := (s.commit carried).bus.queue, heldReport := (s.commit carried).bus.heldReport }
    lines := (s.commit carried).lines
    seq := { s.seq with
      queue := (s.commit carried).seq.queue, mech := (s.commit carried).seq.mech
      work := (s.commit carried).seq.work, headStarted := (s.commit carried).seq.headStarted }
    spell := { s.spell with
      pending := (s.commit carried).spell.pending, slots := (s.commit carried).spell.slots }
    esc := { s.esc with
      paperOffset := s.lines.current.offset + BitVec.ofNat 16 s.esc.spacing, bellRung := false }
    disp := { s.disp with
      window := windowFor 0 (s.openedLine s.lines.current carried).live.length
      standing := { s.disp.standing with
        pause := (s.commit carried).disp.standing.pause
        wheel := (s.commit carried).disp.standing.wheel } } } := by
  obtain ⟨u, work, -, unsettled, -⟩ := s.commit_work carried
  rw [work.rest, unsettled]

/-- The lines after a commit, but for words, strikes and the mark. -/
theorem State.commit_lines (s : State) (carried : List Entry) :
    (s.commit carried).lines.layout = (s.committedLines carried).layout := by
  obtain ⟨u, work, lines, -⟩ := s.commit_work carried
  exact work.lines.trans lines

/-- What the end of an ownership changes: the owner, the owner and the mode of the current line, and
REPORTs (R41). -/
theorem State.releaseLine_spec (s : State) : s.releaseLine = { s with
    intake := { s.intake with owner := s.releaseLine.intake.owner }
    lines := { s.lines with current := { s.lines.current with
      owner := s.releaseLine.lines.current.owner, mode := s.releaseLine.lines.current.mode } }
    bus := { s.bus with
      queue := s.releaseLine.bus.queue, heldReport := s.releaseLine.bus.heldReport } } := by
  unfold State.releaseLine
  rw [State.arbitrate_spec, State.setOwner_spec]

/-! ### The final FEED of a committed line (R101, R102) -/

theorem State.pump_full {s : State} (h : s.freePlaces = 0) : s.pump = s := by
  show s.pumpUpTo (95 + 1) = s
  unfold State.pumpUpTo
  split
  · rfl
  · rw [if_pos h]

/-- The final FEED that the mark names is enqueued into a free place, and nothing is left to feed. -/
theorem State.pump_finalFeed {s : State} {n : Word} {d : Int} {x : Nat} (h : s.freePlaces ≠ 0)
    (hm : s.lines.mark = some ⟨n, .finalFeed, some (d, x)⟩) :
    s.pump = (s.enqueue [.feed d x]).setMark none := by
  show s.pumpUpTo (94 + 1 + 1) = _
  have fed : s.feedOne ⟨n, .finalFeed, some (d, x)⟩ = (s.enqueue [.feed d x]).setMark none := rfl
  unfold State.pumpUpTo
  simp only [hm, if_neg h, fed]
  rfl

theorem State.settle_queue (s : State) :
    s.settle.seq.queue = s.pump.seq.queue ∧ s.settle.lines = s.pump.lines := by
  rw [s.settle_feeding]
  exact ⟨rfl, rfl⟩

/-- A commit of a line with nothing left to print feeds its final FEED, if there is a place for it. -/
theorem FeedsCommitted.finalFeed {s t : State} {entries : List Entry} {n : Word}
    (h : FeedsCommitted s t entries)
    (number : s.lines.current.number = n) (mark : s.lines.mark = none)
    (done : ∀ e ∈ entries, e.strike ≠ some .held) :
    (s.seq.queue.length < 48 → t.lines.mark = none ∧
      t.seq.queue = s.seq.queue ++ [.feed (Int.ofNat s.esc.spacing) s.esc.left]) ∧
    (48 ≤ s.seq.queue.length → t.seq.queue = s.seq.queue ∧
      t.lines.mark = some ⟨n, .finalFeed, some (Int.ofNat s.esc.spacing, s.esc.left)⟩) := by
  obtain ⟨u, l, place, seq, -, -, -, -, -, -, -, hn, -, -, marked, -, first, fed, left, -⟩ := h
  obtain rfl : place = .finalFeed := (first (by simp [mark])).2 done
  obtain ⟨queue, lines⟩ := u.settle_queue
  have places : u.freePlaces = 48 - s.seq.queue.length := by rw [State.freePlaces, seq]; rfl
  rw [left, fed, queue, lines]
  refine ⟨fun free => ?_, fun full => ?_⟩
  · rw [State.pump_finalFeed (by omega) marked, ← seq]
    exact ⟨rfl, rfl⟩
  · rw [State.pump_full (by omega), marked, seq, hn, number]
    exact ⟨rfl, rfl⟩

/-! ### RETURN (R100) -/

/-- After a key that has committed its line and left no entries, a keyboard that has a use for the new line
keeps it, and without one gives it up (R40). -/
theorem State.afterKey_committed {s : State} (ho : s.intake.owner = .keyboard)
    (he : s.lines.current.entries = []) :
    ((∃ x ∈ s.intake.keys, 32 ≤ x.code ∧ x.code ≤ 159) → s.afterKey true = s) ∧
      ((∀ x ∈ s.intake.keys, x.code < 32 ∨ 159 < x.code) → s.afterKey true = s.releaseLine) := by
  have printing : s.intake.hasPrintingKey = true ↔
      ∃ x ∈ s.intake.keys, 32 ≤ x.code ∧ x.code ≤ 159 := by
    simp [Intake.hasPrintingKey, isPrintingKey]
  refine ⟨fun waits => ?_, fun none => ?_⟩
  · have work : s.intake.hasLineWork = true := by
      obtain ⟨x, hx, hc⟩ := waits
      exact Intake.hasLineWork_eq.2 ⟨x, hx, by simp [claimsLine, isPrintingKey, hc]⟩
    simp [State.afterKey, State.lapsesCommitted, State.lapsesEmpty, State.lapsesLost, printing.2 waits,
      work, State.arbitrate_owned, ho]
  · have idle : s.intake.hasPrintingKey = false := by
      refine Bool.eq_false_iff.2 fun k => ?_
      obtain ⟨x, hx, hc⟩ := printing.1 k
      have := none x hx
      omega
    simp [State.afterKey, State.lapsesCommitted, idle, ho, he]

/-- Settles O27: RETURN is a commit of the whole line, which the end of the ownership leaves as it is. -/
theorem returnCommits : Obligations.ReturnCommits := by
  intro s k rest h ho hk
  have run : exec .returnKey s = .next (s.carryKey k (actReturn k (s.withoutKey rest))) :=
    congrArg _ (State.examineKey_due h (by simp [hk]) actReturn fun _ => by simp [ho])
  refine ⟨fun hv => leaves_of_refused h.toHeadKey run (if_pos hv), fun hv hf => ?_,
    fun hv hf hl => ?_⟩
  · have waits : actReturn k (s.withoutKey rest) = .wait :=
      (if_neg (not_not.2 hv)).trans (if_pos hf)
    rw [run, waits]
    rfl
  · intro old offset
    let v := s.withoutKey rest
    let u := v.returnCommit
    have taken : actReturn k v = .take u true :=
      (if_neg (not_not.2 hv)).trans (if_neg (by simp [show v.lineFeeding = s.lineFeeding from rfl, hf]))
    have alike : CommitsAlike s v :=
      ⟨⟨rfl, rfl, rfl, rfl, fun _ => rfl, fun _ => rfl, rfl⟩, rfl, rfl, rfl, rfl, rfl, rfl, rfl⟩
    have intake : u.intake = { s.intake with keys := rest } := v.commit_intake []
    have owner : u.intake.owner = .keyboard := by rw [intake]; exact ho
    obtain ⟨keeps, lapses⟩ := State.afterKey_committed owner (v.commit_entries)
    rw [intake] at keeps lapses
    have ends : u.afterKey true = u ∨ u.afterKey true = u.releaseLine := by
      by_cases waits : ∃ x ∈ rest, 32 ≤ x.code ∧ x.code ≤ 159
      · exact .inl (keeps waits)
      · refine .inr (lapses fun x hx => ?_)
        by_contra no
        exact waits ⟨x, hx, by omega⟩
    generalize ht : u.afterKey true = t at keeps lapses ends
    have same : SameCommit (v.commit []) t := by
      have turned : SameCommit (v.commit []) u := ⟨rfl, rfl, rfl, rfl, rfl, rfl⟩
      rcases ends with e | e <;> rw [e]
      · exact turned
      · exact turned.trans u.releaseLine_sameCommit
    have kept : t = { v.commit [] with
        esc := { (v.commit []).esc with marginRelease := false }
        intake := { (v.commit []).intake with owner := t.intake.owner }
        lines := { (v.commit []).lines with current := { (v.commit []).lines.current with
          owner := t.lines.current.owner, mode := t.lines.current.mode } }
        bus := { (v.commit []).bus with queue := t.bus.queue, heldReport := t.bus.heldReport } } := by
      rcases ends with e | e <;> rw [e]
      · rfl
      · rw [u.releaseLine_spec]
        rfl
    have unit {α : Type} (f : State → α) := congrArg f kept
    have rest' {α : Type} (f : State → α) := congrArg f (v.commit_rest [])
    have lines {α : Type} (f : LineStore → α) := congrArg f (v.commit_lines [])
    have opened {α : Type} (f : Line → α) := lines fun ls => f ls.current
    have commits : CommitsLine s t := ((State.commit_commitsLine (s := v) hl).of_same same).of_alike alike
    have words : t.lines.current.words = [] := by
      have view := congrArg (fun w => w.1.head?.map fun p => p.2.1) commits.words
      rw [State.lineClosed_wordView] at view
      simpa [State.wordView] using view
    obtain ⟨line, last, state, start, off, shapes⟩ := commits.newest
    refine ⟨t, ?_, (unit fun t => t.intake.keys).trans (rest' fun t => t.intake.keys),
      commits.number, commits.empty, words,
      (unit fun t => t.lines.current.nextId).trans (opened Line.nextId),
      (unit fun t => t.lines.current.start).trans (opened Line.start),
      (unit fun t => t.lines.current.offset).trans (opened Line.offset),
      (unit fun t => t.lines.current.state).trans (opened Line.state),
      (unit fun t => t.lines.nextLine).trans (lines LineStore.nextLine),
      (unit fun t => t.lines.viewDepth).trans (lines LineStore.viewDepth),
      (unit fun t => t.lines.cursor).trans (lines LineStore.cursor),
      (unit fun t => t.lines.hold).trans (lines LineStore.hold), commits.ring,
      ⟨line, last, state, start, off, ?_, ?_⟩, commits.feeds, commits.words,
      (unit fun t => t.spell.isOn).trans (rest' fun t => t.spell.isOn),
      (unit fun t => t.alert.silence).trans (rest' fun t => t.alert.silence),
      ⟨u, owner, keeps, lapses⟩, fun mark done => commits.feeds.finalFeed rfl mark done,
      (unit fun t => t.disp.window).trans (rest' fun t => t.disp.window),
      (unit State.esc).trans ?_, (unit State.corr).trans (rest' State.corr), ?_,
      (unit fun t => t.seq.bold).trans (rest' fun t => t.seq.bold),
      (unit fun t => t.seq.underline).trans (rest' fun t => t.seq.underline),
      (unit fun t => t.seq.impression).trans (rest' fun t => t.seq.impression),
      (unit State.wheel).trans (rest' State.wheel),
      (unit fun t => t.bus.table).trans (rest' fun t => t.bus.table)⟩
    · rw [run, taken, ← ht]
      rfl
    · simpa [Function.comp_def, Entry.shape] using congrArg (List.map Entry.id) shapes
    · simpa [Function.comp_def, Entry.shape] using congrArg (List.map Entry.start) shapes
    · exact congrArg (fun e : Escapement => { e with marginRelease := false }) (rest' State.esc)
    · rw [same.seq]
      exact v.commit_actions

end Sys2Proof.Machine

namespace Sys2Proof.Machine

/-! ### What the words of a line are read from (R108 to R110) -/

/-- An entry but for the state of its strikes, of which only that it is live is read when its line is
segmented and laid out (R88, R108). -/
def Entry.worded (e : Entry) : Entry :=
  { e with strike := if e.live then none else some .lifting, total := 0, done := 0, underscore := none }

@[simp] theorem Entry.worded_id (e : Entry) : e.worded.id = e.id := rfl
@[simp] theorem Entry.worded_serial (e : Entry) : e.worded.serial = e.serial := rfl
@[simp] theorem Entry.worded_isLetter (e : Entry) : e.worded.isLetter = e.isLetter := rfl
@[simp] theorem Entry.worded_isApostrophe (e : Entry) : e.worded.isApostrophe = e.isApostrophe := rfl
@[simp] theorem Entry.worded_code? (e : Entry) : e.worded.code? = e.code? := rfl
@[simp] theorem Entry.worded_live (e : Entry) : e.worded.live = e.live := by
  unfold Entry.worded
  cases h : e.live <;> rfl

/-- A line as the segmentation and the Spelling Unit read it. -/
def Line.worded (l : Line) : Line :=
  { l with start := 0, offset := 0, mode := .direct, entries := l.entries.map Entry.worded, nextId := 0 }

theorem Line.worded_live (l : Line) : l.worded.live = l.live.map Entry.worded := by
  simp [Line.live, Line.worded, List.filter_map, Function.comp_def]

theorem Line.worded_foldedForm (l : Line) (serial : Word) :
    l.worded.foldedForm serial = l.foldedForm serial := by
  simp [Line.foldedForm, Line.worded_live, List.filter_map, Function.comp_def]

theorem Line.worded_wordCodes (l : Line) (serial : Word) :
    l.worded.wordCodes serial = l.wordCodes serial := by
  simp [Line.wordCodes, Line.worded_live, List.filter_map, Function.comp_def]

/-- A run with its entries as the segmentation reads them. -/
def WordRun.worded (r : WordRun) : WordRun := ⟨r.entries.map Entry.worded, r.after.map Entry.worded⟩

theorem markWords_worded (b : Bool) (es : List Entry) : markWords b (es.map Entry.worded) =
    (markWords b es).map (Prod.map Entry.worded id) := by
  induction es generalizing b with
  | nil => rfl
  | cons e es ih =>
    have next : (es.map Entry.worded).head?.map Entry.isLetter = es.head?.map Entry.isLetter := by
      cases es <;> rfl
    simp only [List.map_cons, markWords, next, ih, Entry.worded_isLetter, Entry.worded_isApostrophe,
      Prod.map_apply, id_eq]

theorem wordRuns_worded (cur : List Entry) (xs : List (Entry × Bool)) :
    wordRuns (cur.map Entry.worded) (xs.map (Prod.map Entry.worded id)) =
      (wordRuns cur xs).map WordRun.worded := by
  induction xs generalizing cur with
  | nil => cases cur <;> simp [wordRuns, WordRun.worded]
  | cons x xs ih =>
    obtain ⟨e, b⟩ := x
    have empty := ih []
    have longer := ih (e :: cur)
    simp only [List.map_nil, List.map_cons] at empty longer
    cases b with
    | true => cases cur <;> exact longer
    | false =>
      cases cur with
      | nil => exact empty
      | cons c cs =>
        simp [wordRuns, WordRun.worded, empty, Function.comp_def]

theorem Line.worded_runs (l : Line) : l.worded.runs = l.runs.map WordRun.worded := by
  simpa [Line.runs, Line.worded_live, markWords_worded] using
    wordRuns_worded [] (markWords false l.live)

theorem letterCount_worded (es : List Entry) : letterCount (es.map Entry.worded) = letterCount es := by
  simp [letterCount, List.countP_map, Function.comp_def]

theorem keptWord_worded (words : List WordRec) (run : List Entry) :
    keptWord words (run.map Entry.worded) = keptWord words run := by
  cases run with
  | nil => rfl
  | cons e es =>
    have first (f : Entry → Bool) (n : Nat) : ((e :: es).map Entry.worded |>.take n).all f =
        ((e :: es).take n).all (f ∘ Entry.worded) := by rw [← List.map_take, List.all_map]
    have rest (f : Entry → Bool) (n : Nat) : ((e :: es).map Entry.worded |>.drop n).all f =
        ((e :: es).drop n).all (f ∘ Entry.worded) := by rw [← List.map_drop, List.all_map]
    have count := letterCount_worded (e :: es)
    simp only [List.map_cons] at first rest count
    simp only [keptWord, List.map_cons, Entry.worded_serial, Entry.worded_id, first, rest, count,
      Function.comp_def, List.length_cons, List.length_map, List.all_cons, List.all_map]

theorem newWord_worded (serial : Word) (run : List Entry) :
    newWord serial (run.map Entry.worded) = newWord serial run := by
  have head : (run.map Entry.worded).head?.map (·.id) = run.head?.map (·.id) := by cases run <;> rfl
  simp only [newWord, letterCount_worded, head, List.length_map]

theorem assignWords_worded (words : List WordRec) (counter : Word) (runs : List WordRun) :
    assignWords words counter (runs.map WordRun.worded) =
      ((assignWords words counter runs).1.map (Prod.map id WordRun.worded),
        (assignWords words counter runs).2) := by
  induction runs generalizing counter with
  | nil => rfl
  | cons r rs ih =>
    have kept : keptWord words r.worded.entries = keptWord words r.entries :=
      keptWord_worded words r.entries
    have new : newWord counter r.worded.entries = newWord counter r.entries :=
      newWord_worded counter r.entries
    simp only [List.map_cons, assignWords, kept]
    split <;> simp [ih, new]

theorem keptSerials_worded (words : List WordRec) (runs : List WordRun) :
    keptSerials words (runs.map WordRun.worded) = keptSerials words runs := by
  have kept (r : WordRun) : keptWord words r.worded.entries = keptWord words r.entries :=
    keptWord_worded words r.entries
  simp only [keptSerials, List.filterMap_map]
  exact List.filterMap_congr fun r _ => congrArg (Option.map _) (kept r)

theorem WordRun.worded_closed (r : WordRun) (committed : Bool) :
    r.worded.closed committed = r.closed committed := by
  obtain ⟨entries, after⟩ := r
  rcases after with _ | ⟨a, _ | ⟨b, rest⟩⟩ <;> rfl

theorem serialFor_worded (ws : List (WordRec × WordRun)) (e : Entry) :
    serialFor (ws.map (Prod.map id WordRun.worded)) e.worded = serialFor ws e := by
  simp [serialFor, WordRun.worded, List.find?_map, Function.comp_def, Option.map_map]

/-- Lines that are read alike are segmented alike (R108 to R110). -/
theorem Line.worded_segment (l : Line) (counter : Word) : l.worded.segment counter =
    { l.segment counter with line := (l.segment counter).line.worded } := by
  have assigned : assignWords l.worded.words counter l.worded.runs =
      ((assignWords l.words counter l.runs).1.map (Prod.map id WordRun.worded),
        (assignWords l.words counter l.runs).2) := by
    rw [l.worded_runs]
    exact assignWords_worded _ _ _
  have kept : keptSerials l.worded.words l.worded.runs = keptSerials l.words l.runs := by
    rw [l.worded_runs]
    exact keptSerials_worded _ _
  have closed : (fun p : WordRec × WordRun => p.1.state == .opened && p.2.closed
      (l.worded.state == .committed)) ∘ Prod.map id WordRun.worded =
        fun p => p.1.state == .opened && p.2.closed (l.state == .committed) :=
    funext fun p => congrArg _ (p.2.worded_closed _)
  have entries : l.worded.entries.map (fun e => { e with
      serial := serialFor ((assignWords l.words counter l.runs).1.map (Prod.map id WordRun.worded)) e }) =
        (l.entries.map fun e => { e with
          serial := serialFor (assignWords l.words counter l.runs).1 e }).map Entry.worded := by
    simp only [Line.worded, List.map_map]
    exact List.map_congr_left fun e _ => congrArg
      (fun serial => ({ e.worded with serial := serial } : Entry)) (serialFor_worded _ e)
  simp only [Line.segment, assigned, kept, entries, List.filter_map, List.map_map, closed]
  simp only [Line.worded, List.map_map]
  rfl

/-! ### The Line Store as the Spelling Unit reads it -/

/-- The Line Store as the segmentation and the Spelling Unit read it. -/
def LineStore.worded (ls : LineStore) : LineStore where
  current := ls.current.worded
  ring := ls.ring.map Line.worded
  viewDepth := 0
  cursor := 0
  hold := false
  mark := none
  nextLine := 0
  serialCounter := ls.serialCounter

theorem LineStore.find_worded (ls : LineStore) (n : Word) :
    ls.worded.find n = (ls.find n).map Line.worded := by
  unfold LineStore.find LineStore.worded
  split <;> rename_i h
  · simp [show ls.current.number = n from h]
  · have h' : ¬ ls.current.number = n := h
    simp [h', List.find?_map, Function.comp_def, Line.worded]

theorem updateFirst_worded {f g : Line → Line} (h : ∀ l, (f l).worded = g l.worded) (n : Word)
    (ls : List Line) :
    (updateFirst n f ls).map Line.worded = updateFirst n g (ls.map Line.worded) := by
  induction ls with
  | nil => rfl
  | cons l ls ih =>
    by_cases hn : l.number = n
    · simp [updateFirst, hn, show l.worded.number = n from hn, h]
    · simp [updateFirst, hn, show ¬ l.worded.number = n from hn, ih]

theorem LineStore.updateLine_worded {f g : Line → Line} (h : ∀ l, (f l).worded = g l.worded)
    (ls : LineStore) (n : Word) : (ls.updateLine n f).worded = ls.worded.updateLine n g := by
  by_cases hn : ls.current.number = n
  · simp [LineStore.updateLine, LineStore.worded, hn, show ls.current.worded.number = n from hn, h]
  · simp [LineStore.updateLine, LineStore.worded, hn, show ¬ ls.current.worded.number = n from hn,
      updateFirst_worded h]

/-! ### States whose lines are read alike -/

/-- What the Spelling Unit and the Line Store read of a state when a line is segmented is the same in both,
but for what a segmentation does not read of a line (R108 to R110, R159, R164 to R167, R178). -/
structure ReadAlike (s t : State) : Prop where
  lines : t.lines.worded = s.lines.worded
  spell : t.spell = s.spell
  queries : t.bus.queue.filter OutFrame.isQuery = s.bus.queue.filter OutFrame.isQuery
  conflict : t.bus.conflict = s.bus.conflict
  usable : ∀ r : DictRole, t.bus.usable r.role = s.bus.usable r.role
  holder : ∀ r : DictRole, t.bus.holder r.role = s.bus.holder r.role
  suspended : t.handingSuspended = s.handingSuspended

theorem Line.worded_wordPart (l : Line) : l.worded.wordPart = l.wordPart := by
  simp [Line.wordPart, Line.worded, Function.comp_def]

theorem LineStore.worded_wordParts (ls : LineStore) : ls.worded.wordParts = ls.wordParts := by
  simp [LineStore.wordParts, LineStore.worded, Function.comp_def, Line.worded_wordPart]

namespace ReadAlike

variable {s t : State}

theorem counter (h : ReadAlike s t) : t.lines.serialCounter = s.lines.serialCounter := by
  have same := congrArg LineStore.serialCounter h.lines
  exact same

theorem wordView (h : ReadAlike s t) : t.wordView = s.wordView := by
  have parts : t.lines.wordParts = s.lines.wordParts := by
    rw [← t.lines.worded_wordParts, h.lines, s.lines.worded_wordParts]
  rw [State.wordView_eq, State.wordView_eq, parts, h.counter, h.spell, h.queries]

/-- The line of a number is read alike in both. -/
theorem find (h : ReadAlike s t) (n : Word) :
    (t.lines.find n).map Line.worded = (s.lines.find n).map Line.worded := by
  rw [← LineStore.find_worded, h.lines, LineStore.find_worded]

theorem find_none (h : ReadAlike s t) {n : Word} (hn : s.lines.find n = none) :
    t.lines.find n = none := by
  have := h.find n
  rwa [hn, Option.map_none, Option.map_eq_none_iff] at this

theorem find_some (h : ReadAlike s t) {n : Word} {l : Line} (hn : s.lines.find n = some l) :
    ∃ l', t.lines.find n = some l' ∧ l'.worded = l.worded := by
  have := h.find n
  rwa [hn, Option.map_some, Option.map_eq_some_iff] at this

theorem mapLines (h : ReadAlike s t) {f g : LineStore → LineStore}
    (hf : (g t.lines).worded = (f s.lines).worded) : ReadAlike (s.mapLines f) (t.mapLines g) :=
  ⟨hf, h.spell, h.queries, h.conflict, h.usable, h.holder, h.suspended⟩

theorem updateLine (h : ReadAlike s t) (n : Word) {f g k : Line → Line}
    (hf : ∀ l, (f l).worded = k l.worded) (hg : ∀ l, (g l).worded = k l.worded) :
    ReadAlike (s.updateLine n f) (t.updateLine n g) :=
  h.mapLines (f := fun ls => ls.updateLine n f) (g := fun ls => ls.updateLine n g) <| by
    rw [LineStore.updateLine_worded hf, LineStore.updateLine_worded hg, h.lines]

theorem updateLine_same (h : ReadAlike s t) (n : Word) {f : Line → Line}
    (hf : ∀ l, (f l).worded = f l.worded) : ReadAlike (s.updateLine n f) (t.updateLine n f) :=
  h.updateLine n hf hf

theorem mapSpell (h : ReadAlike s t) (f : Spelling → Spelling) :
    ReadAlike (s.mapSpell f) (t.mapSpell f) :=
  ⟨h.lines, congrArg f h.spell, h.queries, h.conflict, h.usable, h.holder, h.suspended⟩

theorem enqueueFrame (h : ReadAlike s t) (f : OutFrame) :
    ReadAlike (s.enqueueFrame f) (t.enqueueFrame f) := by
  unfold State.enqueueFrame
  rw [h.conflict]
  split
  · exact h
  · refine ⟨h.lines, h.spell, ?_, h.conflict, h.usable, h.holder, h.suspended⟩
    simp only [State.mapBus, List.filter_append, h.queries]

theorem setWord (h : ReadAlike s t) (line serial : Word) (st : WordState) (tag : Option (Fin 4)) :
    ReadAlike (s.setWord line serial st tag) (t.setWord line serial st tag) :=
  h.updateLine_same line fun _ => rfl

theorem foldedForm (h : ReadAlike s t) (line serial : Word) :
    t.foldedForm line serial = s.foldedForm line serial := by
  have read (ls : LineStore) : (ls.find line).map (fun l => l.foldedForm serial) =
      ((ls.find line).map Line.worded).map fun l => l.foldedForm serial := by
    simp only [Option.map_map, Function.comp_def, Line.worded_foldedForm]
  simp only [State.foldedForm, read t.lines, h.find, ← read s.lines]

theorem slotTakes (h : ReadAlike s t) (tag : Fin 4) (line serial : Word) (r : DictRole)
    (already : Option DictRole) :
    ReadAlike (s.slotTakes tag line serial r already) (t.slotTakes tag line serial r already) := by
  simp only [State.slotTakes, h.holder, h.foldedForm]
  exact ((h.mapSpell _).setWord _ _ _ _).enqueueFrame _

theorem candidate (h : ReadAlike s t) (a b : Option DictRole) : t.candidate a b = s.candidate a b := by
  simp only [State.candidate, h.usable]

theorem takeItemsUpTo (n : Nat) : ∀ {s t : State}, ReadAlike s t →
    ReadAlike (s.takeItemsUpTo n) (t.takeItemsUpTo n) := by
  induction n with
  | zero => exact id
  | succ n ih =>
    intro s t h
    simp only [State.takeItemsUpTo, h.conflict, h.spell, h.candidate]
    split
    · exact h
    · split
      · split
        · exact ih ((h.mapSpell _).slotTakes _ _ _ _ _)
        · exact ih ((h.mapSpell _).setWord _ _ _ _)
      · exact h

theorem takeItems (h : ReadAlike s t) : ReadAlike s.takeItems t.takeItems := by
  unfold State.takeItems
  rw [h.spell]
  exact h.takeItemsUpTo _

theorem appendPending (h : ReadAlike s t) (i : PendingItem) :
    ReadAlike (s.appendPending i) (t.appendPending i) := by
  simp only [State.appendPending, h.spell]
  split
  · split
    · exact (h.setWord _ _ _ _).mapSpell _
    · exact h.mapSpell _
  · exact h.mapSpell _

theorem handWord (h : ReadAlike s t) (line serial : Word) :
    ReadAlike (s.handWord line serial) (t.handWord line serial) := by
  cases hl : s.lines.find line with
  | none => simpa only [State.handWord, hl, h.find_none hl] using h
  | some l =>
    obtain ⟨l', hl', same⟩ := h.find_some hl
    have unit {α : Type} (f : Line → α) : f l'.worded = f l.worded := congrArg f same
    have words : l'.words = l.words := unit Line.words
    have owner : l'.owner = l.owner := unit Line.owner
    have folded : l'.foldedForm serial = l.foldedForm serial := by
      rw [← l'.worded_foldedForm, same, l.worded_foldedForm]
    have primary := h.usable .primary
    have secondary := h.usable .secondary
    simp only [DictRole.role] at primary secondary
    have named : ReadAlike _ _ := h.updateLine_same line
      (f := fun l => { l with words := l.words.map fun w =>
        if w.serial = serial then { w with capital := some (capitalOf (l.wordCodes serial)) } else w })
      fun l => by rw [l.worded_wordCodes]; rfl
    have handed := ((named.setWord line serial .pending none).appendPending
      ⟨line, serial, none⟩).takeItems
    simp only [State.handWord, hl, hl', words, owner, folded, h.suspended, h.spell, primary, secondary]
    split
    · exact h
    · split
      · exact h
      · iterate 6
          split
          · exact named.setWord _ _ _ _
        exact handed

theorem foldl {α : Type} {f : State → α → State}
    (hf : ∀ {s t : State} (a : α), ReadAlike s t → ReadAlike (f s a) (f t a)) (as : List α) :
    ∀ {s t : State}, ReadAlike s t → ReadAlike (as.foldl f s) (as.foldl f t) := by
  induction as with
  | nil => exact id
  | cons a as ih => exact fun h => ih (hf a h)

theorem resegment (h : ReadAlike s t) (number : Word) :
    ReadAlike (s.resegment number) (t.resegment number) := by
  cases hl : s.lines.find number with
  | none => simpa only [State.resegment, hl, h.find_none hl] using h
  | some l =>
    obtain ⟨l', hl', same⟩ := h.find_some hl
    have segmented : l'.worded.segment t.lines.serialCounter = l.worded.segment s.lines.serialCounter := by
      rw [same, h.counter]
    rw [Line.worded_segment, Line.worded_segment] at segmented
    obtain ⟨line, counted, removed, ready⟩ := Segmented.mk.inj segmented
    simp only [State.resegment, hl, hl', counted, removed, ready]
    refine foldl (fun serial h => h.handWord number serial) _
      (foldl (f := fun s serial => s.dropWord number serial) (fun serial h => h.mapSpell _) _ ?_)
    have updated := h.updateLine number (f := fun _ => (l.segment s.lines.serialCounter).line)
      (g := fun _ => (l'.segment t.lines.serialCounter).line)
      (k := fun _ => (l.segment s.lines.serialCounter).line.worded) (fun _ => rfl) fun _ => line
    exact updated.mapLines (congrArg (fun ls : LineStore =>
      { ls with serialCounter := (l.segment s.lines.serialCounter).counter }) updated.lines)

end ReadAlike

end Sys2Proof.Machine

namespace Sys2Proof.Machine

/-! ### The feeding keeps what is read of a line (R102) -/

theorem LineStore.updateLine_worded_same {f : Line → Line} (h : ∀ l, (f l).worded = l.worded)
    (ls : LineStore) (n : Word) : (ls.updateLine n f).worded = ls.worded := by
  unfold LineStore.updateLine LineStore.worded
  split
  · simp [h]
  · simp [updateFirst_map fun l _ => h l]

/-- A HELD entry whose first action is enqueued stays live (R90). -/
theorem State.beginEntry_worded (s : State) (n : Word) {e : Entry} (h : e.strike = some .held) :
    (s.beginEntry n e).worded = e.worded := by
  simp [State.beginEntry, h, Entry.begin, Entry.worded, Entry.live]

theorem State.feedOne_worded (s : State) (m : FeedMark) :
    (s.feedOne m).lines.worded = s.lines.worded := by
  have up (l : Line) (id : Nat) : (s.lines.updateLine l.number fun l' =>
      { l' with entries := l'.entries.map fun x =>
        if x.id = id ∧ x.strike = some .held then s.beginEntry l.number x else x }).worded =
      s.lines.worded := by
    refine LineStore.updateLine_worded_same (fun l' => ?_) _ _
    simp only [Line.worded, List.map_map]
    congr 1
    refine List.map_congr_left fun e _ => ?_
    simp only [Function.comp_apply]
    split
    · next he => exact s.beginEntry_worded _ he.2
    · rfl
  unfold State.feedOne
  split
  · split <;> rfl
  · split
    · rfl
    · split
      · rfl
      · next l hl _ e he =>
        dsimp only
        split
        · exact up l _
        · exact up l _

theorem State.pumpUpTo_worded (n : Nat) (s : State) :
    (s.pumpUpTo n).lines.worded = s.lines.worded := by
  induction n generalizing s with
  | zero => rfl
  | succ n ih =>
    unfold State.pumpUpTo
    split
    · rfl
    · split
      · rfl
      · exact (ih _).trans (s.feedOne_worded _)

@[simp] theorem State.settle_worded (s : State) : s.settle.lines.worded = s.lines.worded := by
  rw [s.settle_queue.2]
  exact s.pumpUpTo_worded _

/-- Whether words are handed depends on the power state and on CONFLICT alone (R178). -/
theorem State.handingSuspended_congr {s t : State} (conflict : t.bus.conflict = s.bus.conflict)
    (supply : t.supply = s.supply) : t.handingSuspended = s.handingSuspended := by
  have standby : (t.machine == .standby) = (s.machine == .standby) := by
    rw [Bool.eq_iff_iff, beq_iff_eq, beq_iff_eq, t.machine_eq_standby, s.machine_eq_standby, supply]
  have warn : (t.machine == .powerWarn) = (s.machine == .powerWarn) := by
    rw [Bool.eq_iff_iff, beq_iff_eq, beq_iff_eq, t.machine_eq_powerWarn, s.machine_eq_powerWarn, supply]
  simp only [State.handingSuspended, conflict, standby, warn]

/-- The settling changes nothing that is read of a line and no word (R102, R117). -/
theorem State.settle_readAlike (s : State) : ReadAlike s s.settle := by
  have spell : s.settle.spell = s.spell := by rw [State.settle_feeding]
  have supply : s.settle.supply = s.supply := by rw [State.settle_feeding]
  have table : s.settle.bus.table = s.bus.table := by rw [State.settle_feeding]
  have conflict : s.settle.bus.conflict = s.bus.conflict := by rw [State.settle_feeding]
  exact ⟨s.settle_worded, spell, s.settle_queries, conflict, fun r => by simp only [Bus.usable, table],
    fun r => by simp only [Bus.holder, table], State.handingSuspended_congr conflict supply⟩

theorem nextMark_line {m m' : FeedMark} {l : Line} (h : nextMark m l = some m') : m'.line = m.line := by
  unfold nextMark at h
  repeat' split at h
  all_goals cases h <;> rfl

/-- Feeding one action of another line leaves the current line as it is, and the mark in its line (R102). -/
theorem State.feedOne_other {s : State} {m : FeedMark} (h : m.line ≠ s.lines.current.number) :
    (s.feedOne m).lines.current = s.lines.current ∧
      ∀ m', (s.feedOne m).lines.mark = some m' → m'.line = m.line := by
  have away (l : Line) (hl : s.lines.find m.line = some l) (f : Line → Line) :
      (s.updateLine l.number f).lines.current = s.lines.current := by
    rw [LineStore.find_number hl]
    have ring : s.lines.updateLine m.line f = { s.lines with ring := updateFirst m.line f s.lines.ring } :=
      if_neg h.symm
    have kept := congrArg LineStore.current ring
    exact kept
  unfold State.feedOne
  split
  · split <;> exact ⟨rfl, nofun⟩
  · split
    · exact ⟨rfl, nofun⟩
    · next l hl =>
      split
      · exact ⟨rfl, fun _ => nextMark_line⟩
      · dsimp only
        split
        · exact ⟨away l hl _, fun _ => nextMark_line⟩
        · refine ⟨away l hl _, fun m' k => ?_⟩
          simp only [State.setMark, State.mapLines] at k
          obtain ⟨-, k⟩ | ⟨-, k⟩ := ite_eq_iff.1 k
          · cases k; rfl
          · exact nextMark_line k

/-- The feeding of another line leaves the current line as it is (R102). -/
theorem State.pumpUpTo_current (n : Nat) {s : State}
    (h : ∀ m, s.lines.mark = some m → m.line ≠ s.lines.current.number) :
    (s.pumpUpTo n).lines.current = s.lines.current := by
  induction n generalizing s with
  | zero => rfl
  | succ n ih =>
    unfold State.pumpUpTo
    split
    · rfl
    · next m hm =>
      split
      · rfl
      · obtain ⟨current, mark⟩ := State.feedOne_other (h m hm)
        rw [ih, current]
        intro m' hm'
        rw [current, mark m' hm']
        exact h m hm

end Sys2Proof.Machine

namespace Sys2Proof.Machine

/-! ### A commit with carried entries (R70, R99) -/

/-- What the oldest line takes with it does not depend on a part of the state that is neither the ring nor
words (R103). -/
theorem State.ringOverflow_comm {g : State → State} (ring : ∀ s, (g s).lines.ring = s.lines.ring)
    (leaves : ∀ (s : State) (r : List Line),
      (g s).mapLines (fun ls => { ls with ring := r }) = g (s.mapLines fun ls => { ls with ring := r }))
    (drops : ∀ (s : State) (n w : Word), (g s).dropWord n w = g (s.dropWord n w)) (s : State) :
    (g s).ringOverflow = g s.ringOverflow := by
  unfold State.ringOverflow
  rw [ring]
  cases s.lines.ring with
  | nil => rfl
  | cons oldest rest =>
    dsimp only
    split
    · rw [leaves]
      exact List.foldl_hom (g₁ := fun t (w : WordRec) => t.dropWord oldest.number w.serial) g
        fun t w => drops t _ _
    · rfl

theorem State.lineEnded_openedLine (s : State) (carried : List Entry) :
    s.lineEnded.openedLine s.lineEnded.lines.current carried = s.openedLine s.lines.current carried := by
  have unit {α : Type} (f : LineStore → α) := congrArg f s.lineEnded_only.lines
  have line {α : Type} (f : Line → α) := congrArg f s.lineEnded_current
  have esc : s.lineEnded.esc = s.esc := State.resegment_esc _ _
  have owner : s.lineEnded.lines.current.owner = s.lines.current.owner := line Line.owner
  have offset : s.lineEnded.lines.current.offset = s.lines.current.offset := line Line.offset
  have hold : s.lineEnded.lines.hold = s.lines.hold := unit LineStore.hold
  simp only [State.openedLine, LineStore.keyboardMode, esc, owner, offset, hold, s.lineEnded_nextLine]

/-- A commit before it is settled: the new line begins with the carried entries (R70, R99 steps 1 to 5). -/
def State.turnedWith (s : State) (carried : List Entry) : State :=
  (s.lineTurned.mapLines fun ls =>
    { ls with current := s.openedLine s.lines.current carried }).showFrom 0
      (s.openedLine s.lines.current carried).live.length

theorem State.commit_turnedWith (s : State) (carried : List Entry) :
    s.commit carried = (s.turnedWith carried).settle := by
  have shown (u : State) (l : Line) (a b : Nat) :
      ((u.showFrom 0 a).mapLines fun ls => { ls with current := l }).showFrom 0 b =
        (u.mapLines fun ls => { ls with current := l }).showFrom 0 b := rfl
  have overflow := State.ringOverflow_comm
    (g := fun t => t.mapLines fun ls => { ls with current := s.openedLine s.lines.current carried })
    (fun _ => rfl) (fun _ _ => rfl) (fun _ _ _ => rfl) s.lineJoined
  rw [State.turnedWith, State.lineTurned, shown, ← overflow, ← s.lineEnded_openedLine]
  rfl

/-- The committed line stands at the newest end of the ring (R99 step 4). -/
theorem State.lineTurned_newest (s : State) :
    s.lineTurned.lines.ring.getLast? = some s.lineEnded.lines.current := by
  have joined : s.lineJoined.lines.ring = s.lineEnded.lines.ring ++ [s.lineEnded.lines.current] := rfl
  have ring : s.lineTurned.lines.ring =
      if 3 < s.lineJoined.lines.ring.length then s.lineJoined.lines.ring.tail
      else s.lineJoined.lines.ring := by
    have overflow := congrArg (fun t : State => t.lines.ring) s.lineJoined.ringOverflow_spec
    exact overflow
  rw [ring]
  split
  · next h => rw [List.getLast?_tail, if_neg (by omega), joined, List.getLast?_concat]
  · rw [joined, List.getLast?_concat]

theorem State.turnedWith_lines (s : State) (carried : List Entry) :
    (s.turnedWith carried).lines = { s.lineTurned.lines with
      current := s.openedLine s.lines.current carried, viewDepth := 0
      cursor := (s.openedLine s.lines.current carried).live.length } := rfl

theorem State.turnedWith_units (s : State) (carried : List Entry) :
    (s.turnedWith carried).seq = s.seq ∧ (s.turnedWith carried).wheel = s.wheel ∧
      (s.turnedWith carried).corr = s.corr ∧ (s.turnedWith carried).pins = s.pins ∧
      (s.turnedWith carried).supply = s.supply ∧ (s.turnedWith carried).store = s.store := by
  simpa [State.turnedWith] using s.lineTurned_units

theorem State.turnedWith_newest (s : State) (carried : List Entry) :
    (s.turnedWith carried).lines.ring.getLast? = some s.lineEnded.lines.current :=
  s.lineTurned_newest

theorem State.turnedWith_mark (s : State) (carried : List Entry) : (s.turnedWith carried).lines.mark =
    some ⟨s.lines.current.number, commitPlace s.lines.mark s.lineEnded.lines.current,
      some (Int.ofNat s.esc.spacing, s.esc.left)⟩ := by
  have esc : s.lineEnded.esc = s.esc := State.resegment_esc _ _
  rw [s.turnedWith_lines, s.lineTurned_lines, ← s.lineEnded_mark, ← esc]
  rfl

/-- The place of the feeding mark at the commit of a line with these entries (R102). -/
theorem commitPlace_names {l : Line} {es : List Entry} (mark : Option FeedMark)
    (h : l.entries.map Entry.bare = es.map Entry.bare) :
    (∀ m, mark = some m → m.line = l.number → commitPlace mark l = m.place) ∧
    ((∀ m, mark = some m → m.line ≠ l.number) →
      (∀ before e after, es = before ++ e :: after → e.strike = some .held →
        (∀ x ∈ before, x.strike ≠ some .held) → commitPlace mark l = .action e.id 0) ∧
      ((∀ e ∈ es, e.strike ≠ some .held) → commitPlace mark l = .finalFeed)) := by
  refine ⟨fun m hm hn => by rw [hm, commitPlace_keeps hn], fun other => ?_⟩
  rw [commitPlace_first other, firstPlace_of_bare h]
  refine ⟨fun before e after hes he first => ?_, fun none => ?_⟩
  · have found : es.find? (fun x => x.strike == some .held) = some e := by
      rw [hes, List.find?_append, List.find?_eq_none.2 fun x hx => by simp [first x hx]]
      simp [he]
    rw [found]
    rfl
  · rw [List.find?_eq_none.2 fun x hx => by simp [none x hx]]
    rfl

/-- A commit feeds the line, whatever is carried over (R99 step 3, R101, R102). -/
theorem State.commit_feedsCarried (s : State) (carried : List Entry) :
    FeedsCommitted s (s.commit carried) s.lines.current.entries := by
  obtain ⟨seq, wheel, corr, pins, supply, store⟩ := s.turnedWith_units carried
  have lineOf {α : Type} (f : Line → α) := congrArg f s.lineEnded_current
  obtain ⟨keeps, names⟩ := commitPlace_names s.lines.mark s.lineEnded_entries
  rw [s.commit_turnedWith]
  exact ⟨s.turnedWith carried, s.lineEnded.lines.current,
    commitPlace s.lines.mark s.lineEnded.lines.current, seq, wheel, corr, pins, supply, store, rfl,
    s.turnedWith_newest carried, s.lineEnded_number, lineOf Line.state, s.lineEnded_entries,
    by rw [s.turnedWith_mark, s.lineEnded_number], keeps, names,
    rfl, rfl, rfl⟩

/-- What is read of the new line (R70, R99 step 5). -/
theorem State.commit_worded (s : State) (carried : List Entry) :
    (s.commit carried).lines.current.worded = (s.openedLine s.lines.current carried).worded := by
  have read := (s.turnedWith carried).settle_worded
  rw [← s.commit_turnedWith] at read
  have current := congrArg LineStore.current read
  exact current

/-- The new line begins with the carried entries as they are, unless the feeding of the committed line
reaches it for want of another number (R70 step 4). -/
theorem State.commit_begins {s : State} (h : s.lines.nextLine ≠ s.lines.current.number)
    (carried : List Entry) :
    (s.commit carried).lines.current = s.openedLine s.lines.current carried := by
  rw [s.commit_turnedWith, State.settle_queue _ |>.2]
  refine (State.pumpUpTo_current _ fun m hm => ?_)
  rw [s.turnedWith_mark] at hm
  cases hm
  exact h.symm

theorem ReadAlike.trans {s t u : State} (h : ReadAlike s t) (k : ReadAlike t u) : ReadAlike s u :=
  ⟨k.lines.trans h.lines, k.spell.trans h.spell, k.queries.trans h.queries,
    k.conflict.trans h.conflict, fun r => (k.usable r).trans (h.usable r),
    fun r => (k.holder r).trans (h.holder r), k.suspended.trans h.suspended⟩

theorem State.lineClosed_units (s : State) (begins : List Entry) :
    (s.lineClosed s.lines.current.entries begins).bus = s.lineEnded.bus ∧
      (s.lineClosed s.lines.current.entries begins).supply = s.supply ∧
      (s.lineClosed s.lines.current.entries begins).lines = { s.lineEnded.lines with
        ring := (if s.lines.ring.length = 3 then s.lineEnded.lines.ring.tail else s.lineEnded.lines.ring) ++
          [s.lineEnded.lines.current]
        current := { s.lineEnded.lines.current with
          number := s.lines.nextLine, state := .opened, entries := begins, words := [] } } :=
  ⟨rfl, State.resegment_supply _ _, rfl⟩

theorem State.turnedWith_bus (s : State) (carried : List Entry) :
    (s.turnedWith carried).bus = s.lineEnded.bus := by
  simp [State.turnedWith, State.lineTurned, State.lineJoined]

theorem State.turnedWith_spell (s : State) (carried : List Entry) :
    (s.turnedWith carried).spell = s.lineTurned.spell := by
  simp [State.turnedWith]

/-- What a commit leaves to be read is what the closed line and a new line without words leave (R99, R103,
R110, R174). -/
theorem State.commit_readAlike {s : State} (hl : s.lines.ring.length ≤ 3) (carried : List Entry) :
    ReadAlike (s.lineClosed s.lines.current.entries (shiftFrom s.esc.left carried)) (s.commit carried) := by
  obtain ⟨ring, spell⟩ := State.lineTurned_spec hl
  obtain ⟨bus, supply, lines⟩ := s.lineClosed_units (shiftFrom s.esc.left carried)
  obtain ⟨-, -, -, -, turnedSupply, -⟩ := s.turnedWith_units carried
  have closed : (s.lineClosed s.lines.current.entries (shiftFrom s.esc.left carried)).spell =
      s.lineEnded.spell.without (leavesRing s.lines.ringSerials) := by
    have view := s.lineClosed_wordView (shiftFrom s.esc.left carried)
    exact congrArg (fun v => v.2.2.1) view
  rw [s.commit_turnedWith]
  refine ReadAlike.trans ⟨?_, ?_, by rw [bus, s.turnedWith_bus], by rw [bus, s.turnedWith_bus],
    fun r => by rw [bus, s.turnedWith_bus], fun r => by rw [bus, s.turnedWith_bus],
    State.handingSuspended_congr (by rw [bus, s.turnedWith_bus]) (turnedSupply.trans supply.symm)⟩
    (s.turnedWith carried).settle_readAlike
  · have counter : s.lineTurned.lines.serialCounter = s.lineEnded.lines.serialCounter := by
      rw [s.lineTurned_lines]
      rfl
    have owner : s.lineEnded.lines.current.owner = s.lines.current.owner := by
      have unit {α : Type} (f : Line → α) := congrArg f s.lineEnded_current
      exact unit Line.owner
    rw [lines, s.turnedWith_lines]
    simp only [LineStore.worded, ring, keptRing, s.lineEnded_ringLength, counter, Line.worded, owner,
      State.openedLine]
  · rw [s.turnedWith_spell, spell, closed]

end Sys2Proof.Machine

namespace Sys2Proof.Machine

/-! ### An entry appended to a composed line (R65, R69, R108) -/

theorem newEntry_live (id : Nat) (kind : EntryKind) (start advance : Nat) (underline : Bool) :
    (newEntry id kind start advance underline).live = true := by
  unfold newEntry Entry.live
  dsimp only
  split <;> rfl

/-- The bell check of the current line, from its typing point (R65). -/
theorem State.bellCheck_eq (s : State) : s.bellCheck = s.rungAt s.typingPoint := by
  unfold State.bellCheck State.rungAt
  simp only [show Config.bellZone = 60 from rfl]
  split
  · exact State.requestAlert_congr (s := s) (t := s.mapEsc fun e => { e with bellRung := true })
      rfl rfl .bell
  · rfl

theorem State.requestAlert_silence (s : State) (a : Alert) :
    (s.requestAlert a).alert.silence = s.alert.silence := by
  unfold State.requestAlert
  repeat' split
  all_goals rfl

/-- The bell check changes the bell mark and what sounds (R65). -/
theorem State.bellCheck_spec (s : State) : s.bellCheck = { s with
    esc := { s.esc with bellRung := s.bellCheck.esc.bellRung }, alert := s.bellCheck.alert } ∧
      s.bellCheck.alert.silence = s.alert.silence := by
  rw [s.bellCheck_eq, State.rungAt]
  split
  · exact ⟨rfl, s.requestAlert_silence .bell⟩
  · exact ⟨rfl, rfl⟩

/-- The current line with one more entry and the cursor at its end. -/
def State.appended (s : State) (e : Entry) : State :=
  (s.mapCurrent fun l => { l with entries := l.entries ++ [e], nextId := l.nextId + 1 }).cursorToEnd

/-- The entry that is made at the end of the current line (R87, R90). -/
def State.entryMade (s : State) (kind : EntryKind) (advance : Nat) (underline : Bool) : Entry :=
  newEntry s.lines.current.nextId kind s.lines.current.endPoint advance underline

theorem State.entryMade_live (s : State) (kind : EntryKind) (advance : Nat) (underline : Bool) :
    (s.entryMade kind advance underline).live = true := newEntry_live _ _ _ _ _

theorem State.appendComposed_eq (s : State) (kind : EntryKind) (advance : Nat) (underline : Bool) :
    s.appendComposed kind advance underline =
      (s.appended (s.entryMade kind advance underline)).bellCheck.resegment s.lines.current.number := rfl

theorem Line.live_append_live (l : Line) {e : Entry} (he : e.live = true) :
    (l.entries ++ [e]).filter Entry.live = l.live ++ [e] := by
  simp [Line.live, List.filter_append, he]

theorem State.appended_eq (s : State) {e : Entry} (he : e.live = true) : s.appended e = { s with
    lines := { s.lines with
      current := { s.lines.current with
        entries := s.lines.current.entries ++ [e], nextId := s.lines.current.nextId + 1 }
      cursor := s.lines.current.live.length + 1 }
    disp := { s.disp with window := windowFor s.disp.window (s.lines.current.live.length + 1) } } := by
  have count : ((s.mapCurrent fun l =>
      { l with entries := l.entries ++ [e], nextId := l.nextId + 1 }).lines.current.live).length =
        s.lines.current.live.length + 1 :=
    (congrArg List.length (s.lines.current.live_append_live he)).trans (by simp)
  rw [State.appended, State.cursorToEnd, count]
  rfl

/-- What an append changes (R65, R69, R108). -/
theorem State.appendComposed_spec (s : State) (kind : EntryKind) (advance : Nat) (underline : Bool) :
    let t := s.appendComposed kind advance underline
    let e := s.entryMade kind advance underline
    t.lines.wordless = (s.appended e).lines.wordless ∧
      t.alert.silence = s.alert.silence ∧
      t = { s with
        bus := { s.bus with queue := t.bus.queue }
        lines := t.lines
        spell := { s.spell with pending := t.spell.pending, slots := t.spell.slots }
        esc := { s.esc with bellRung := t.esc.bellRung }
        alert := t.alert
        disp := { s.disp with window := windowFor s.disp.window (s.lines.current.live.length + 1) } } := by
  intro t e
  have live : e.live = true := s.entryMade_live kind advance underline
  have appended := s.appended_eq live
  obtain ⟨rung, silence⟩ := (s.appended e).bellCheck_spec
  obtain ⟨lines, rest, -, -, -⟩ :
      SpellingOnly (s.appended e).bellCheck t := State.resegment_only _ s.lines.current.number
  have esc : t.esc = (s.appended e).bellCheck.esc := State.resegment_esc _ _
  have alert : t.alert = (s.appended e).bellCheck.alert := State.resegment_alert _ _
  rw [State.bellCheck_lines] at lines
  clear_value t e
  refine ⟨lines, ?_, ?_⟩
  · rw [alert, silence, appended]
  · generalize (s.appended e).bellCheck = b at *
    refine rest.trans ?_
    rw [esc, alert, rung, appended]

end Sys2Proof.Machine

namespace Sys2Proof.Machine

/-! ### The layout of a new line (R63, R70) -/

theorem endOf_cons (p : Nat) (e : Entry) (es : List Entry) : endOf p (e :: es) = endOf e.endPos es := by
  cases es with
  | nil => rfl
  | cons a as =>
    simp only [endOf, List.getLast?_cons_cons, List.getLast?_eq_getLast_of_ne_nil (List.cons_ne_nil a as)]

theorem endOf_worded (p : Nat) (es : List Entry) : endOf p (es.map Entry.worded) = endOf p es := by
  simp only [endOf, List.getLast?_map]
  cases es.getLast? <;> rfl

theorem shiftFrom_cons {e : Entry} (he : e.live = true) (p : Nat) (es : List Entry) :
    shiftFrom p (e :: es) = { e with start := p } :: shiftFrom (p + e.advance) es := if_pos he

/-- Live entries laid out from a position end where their advances lead (R70 step 4). -/
theorem endOf_shiftFrom {es : List Entry} (h : ∀ e ∈ es, e.live = true) (p : Nat) :
    endOf p (shiftFrom p es) = p + totalAdvance es := by
  induction es generalizing p with
  | nil => rfl
  | cons e es ih =>
    rw [shiftFrom_cons (h e (by simp)), endOf_cons]
    refine (ih (fun x hx => h x (by simp [hx])) (p + e.advance)).trans ?_
    simp [totalAdvance, Nat.add_assoc]

theorem shiftFrom_live {es : List Entry} (h : ∀ e ∈ es, e.live = true) (p : Nat) :
    (shiftFrom p es).filter Entry.live = shiftFrom p es := by
  induction es generalizing p with
  | nil => rfl
  | cons e es ih =>
    have rest := ih (fun x hx => h x (by simp [hx])) (p + e.advance)
    rw [shiftFrom_cons (h e (by simp))]
    have live : ({ e with start := p } : Entry).live = true := h e (by simp)
    rw [List.filter_cons_of_pos live, rest]

theorem Line.endPoint_worded (l : Line) : endOf l.start l.worded.live = l.endPoint := by
  rw [Line.endPoint, Line.worded_live, endOf_worded]

/-- A new line ends where the entries carried to it end (R63, R70). -/
theorem State.commit_endPoint (s : State) {carried : List Entry} (h : ∀ e ∈ carried, e.live = true) :
    (s.commit carried).lines.current.endPoint = s.esc.left + totalAdvance carried := by
  have layout := congrArg LineStore.current (s.commit_lines carried)
  have line {α : Type} (f : Line → α) := congrArg f layout
  have start : (s.commit carried).lines.current.start = s.esc.left := line Line.start
  rw [← Line.endPoint_worded, s.commit_worded, start, Line.worded_live, endOf_worded]
  show endOf s.esc.left ((shiftFrom s.esc.left carried).filter Entry.live) = _
  rw [shiftFrom_live h, endOf_shiftFrom h]

theorem State.commit_liveLength (s : State) {carried : List Entry} (h : ∀ e ∈ carried, e.live = true) :
    (s.commit carried).lines.current.live.length = (shiftFrom s.esc.left carried).length := by
  have read := congrArg (fun l : Line => l.live.length) (s.commit_worded carried)
  simp only [Line.worded_live, List.length_map] at read
  rw [read]
  exact congrArg List.length (shiftFrom_live h _)

/-! ### A new line under the same owner (R69 to R71, R99) -/

/-- `t` is `s` with its current line committed as these entries, and a new line that begins with the given
ones: what a wrap or a break leaves (R69 to R71, R99, R101 to R103, R110). -/
structure Opens (s t : State) (committed begins : List Entry) (next : Nat) : Prop where
  intake : t.intake = s.intake
  number : t.lines.current.number = s.lines.nextLine
  owner : t.lines.current.owner = s.lines.current.owner
  start : t.lines.current.start = s.esc.left
  offset : t.lines.current.offset = s.lines.current.offset + BitVec.ofNat 16 s.esc.spacing
  shapes : t.lines.current.entries.map Entry.shape = begins.map Entry.shape
  entries : s.lines.nextLine ≠ s.lines.current.number →
    t.lines.current.entries.map Entry.bare = begins.map Entry.bare
  nextId : t.lines.current.nextId = next
  cursor : t.lines.cursor = begins.length
  window : t.disp.window = windowFor 0 begins.length
  feeds : FeedsCommitted s t committed
  newest : ∃ x, t.lines.ring.getLast? = some x ∧ x.number = s.lines.current.number ∧
    x.state = .committed ∧ x.entries.map Entry.shape = committed.map Entry.shape
  words : s.lines.ring.length ≤ 3 →
    t.wordView = ((s.lineClosed committed begins).resegment s.lines.nextLine).wordView
  isOn : t.spell.isOn = s.spell.isOn
  silence : t.alert.silence = s.alert.silence
  hold : t.lines.hold = s.lines.hold
  actions : s.seq.queue <+: t.seq.queue
  corr : t.corr = s.corr
  marginRelease : t.esc.marginRelease = s.esc.marginRelease
  tabs : t.esc.tabs = s.esc.tabs

/-- What commits a line with its entries replaced commits those entries. -/
theorem Opens.of_entries {s t : State} {es begins : List Entry} {next : Nat}
    (h : Opens (s.mapCurrent fun l => { l with entries := es }) t es begins next) :
    Opens s t es begins next := by
  exact { h with }

/-- The committed line at the newest end of the ring (R99 step 4). -/
theorem State.commit_newest {s t : State} (carried : List Entry)
    (same : t.lines.layout.ring = (s.commit carried).lines.layout.ring) :
    ∃ x, t.lines.ring.getLast? = some x ∧ x.number = s.lines.current.number ∧ x.state = .committed ∧
      x.entries.map Entry.shape = s.lines.current.entries.map Entry.shape := by
  have ring := same.trans (congrArg LineStore.ring (s.commit_lines carried))
  have last := congrArg List.getLast? ring
  have committed : (s.committedLines carried).ring.getLast? =
      some { s.lines.current with state := .committed } := by
    unfold State.committedLines
    dsimp only
    split
    · next h => rw [List.getLast?_tail, if_neg (by omega), List.getLast?_concat]
    · exact List.getLast?_concat
  simp only [LineStore.layout, List.getLast?_map, committed, Option.map_some,
    Option.map_eq_some_iff] at last
  obtain ⟨x, hx, layout⟩ := last
  have unit {α : Type} (f : Line → α) := congrArg f layout
  exact ⟨x, hx, unit Line.number, unit Line.state, unit Line.entries⟩

/-- A segmentation of a line without entries and words changes nothing. -/
theorem State.resegment_empty {s : State} (he : s.lines.current.entries = [])
    (hw : s.lines.current.words = []) : s.resegment s.lines.current.number = s := by
  have found : s.lines.find s.lines.current.number = some s.lines.current := if_pos rfl
  have segment : s.lines.current.segment s.lines.serialCounter =
      ⟨s.lines.current, s.lines.serialCounter, [], []⟩ := by
    generalize s.lines.current = l at he hw
    obtain ⟨number, owner, start, offset, mode, state, entries, words, nextId⟩ := l
    cases he
    cases hw
    rfl
  simp only [State.resegment, found, segment, List.foldl_nil]
  have kept : s.lines.updateLine s.lines.current.number (fun _ => s.lines.current) = s.lines :=
    (if_pos rfl).trans rfl
  simp only [State.updateLine, State.mapLines, kept]

/-- What holds of a new line whatever is carried to it (R70, R99). -/
theorem State.commit_line (s : State) (carried : List Entry) :
    let l := (s.commit carried).lines.current
    l.number = s.lines.nextLine ∧ l.owner = s.lines.current.owner ∧ l.start = s.esc.left ∧
      l.offset = s.lines.current.offset + BitVec.ofNat 16 s.esc.spacing ∧
      l.nextId = carriedNextId carried ∧
      l.entries.map Entry.worded = (shiftFrom s.esc.left carried).map Entry.worded := by
  have layout := congrArg LineStore.current (s.commit_lines carried)
  have line {α : Type} (f : Line → α) := congrArg f layout
  have read := congrArg Line.entries (s.commit_worded carried)
  exact ⟨line Line.number, line Line.owner, line Line.start, line Line.offset, line Line.nextId, read⟩

theorem shapes_of_worded {es fs : List Entry} (h : es.map Entry.worded = fs.map Entry.worded) :
    es.map Entry.shape = fs.map Entry.shape := by
  have shape (es : List Entry) : es.map Entry.shape = (es.map Entry.worded).map Entry.shape := by
    rw [List.map_map]
    rfl
  rw [shape, h, ← shape]

/-- A commit that carries nothing over opens an empty line (R69, R99). -/
theorem State.commit_opens (s : State) : Opens s (s.commit []) s.lines.current.entries [] 0 := by
  obtain ⟨number, owner, start, offset, nextId, -⟩ := s.commit_line []
  have rest {α : Type} (f : State → α) := congrArg f (s.commit_rest [])
  have lines {α : Type} (f : LineStore → α) := congrArg f (s.commit_lines [])
  refine ⟨rest State.intake, number, owner, start, offset, by rw [s.commit_entries],
    fun _ => by rw [s.commit_entries], nextId, lines LineStore.cursor, rest fun t => t.disp.window,
    s.commit_feedsCarried [], State.commit_newest [] rfl, fun hl => ?_, rest fun t => t.spell.isOn,
    rest fun t => t.alert.silence, lines LineStore.hold, s.commit_actions, rest State.corr,
    rest fun t => t.esc.marginRelease, rest fun t => t.esc.tabs⟩
  have empty : (s.lineClosed s.lines.current.entries []).resegment s.lines.nextLine =
      s.lineClosed s.lines.current.entries [] := State.resegment_empty rfl rfl
  rw [empty]
  exact (State.commit_readAlike hl []).wordView

end Sys2Proof.Machine

namespace Sys2Proof.Machine

/-! ### An entry appended to a new line (R70, R71) -/

/-- What is said of the feeding of a committed line depends on the print queue, the mark and the ring but
for its words. -/
theorem FeedsCommitted.of_ring {s t t' : State} {es : List Entry} (h : FeedsCommitted s t es)
    (seq : t'.seq = t.seq) (mark : t'.lines.mark = t.lines.mark)
    (ring : t'.lines.ring.map Line.wordless = t.lines.ring.map Line.wordless) : FeedsCommitted s t' es := by
  have read (ls : List Line) : ls.map (fun x => (x.number, x.entries.map Entry.bare)) =
      (ls.map Line.wordless).map fun x => (x.number, x.entries) := by
    rw [List.map_map]
    rfl
  unfold FeedsCommitted at h ⊢
  rwa [seq, mark, read t'.lines.ring, ring, ← read]

theorem live_length_bare (es : List Entry) :
    ((es.map Entry.bare).filter Entry.live).length = (es.filter Entry.live).length := by
  rw [List.filter_map, List.length_map]
  rfl

/-- What is read of two lines stays the same when an entry joins both. -/
theorem Line.append_worded {l l' : Line} (h : l'.worded = l.worded) (e : Entry) (a b : Nat) :
    ({ l' with entries := l'.entries ++ [e], nextId := a } : Line).worded =
      ({ l with entries := l.entries ++ [e], nextId := b } : Line).worded := by
  have entries : l'.entries.map Entry.worded = l.entries.map Entry.worded := congrArg Line.entries h
  have joined : ({ l'.worded with entries := l.entries.map Entry.worded ++ [e.worded] } : Line) =
    { l.worded with entries := l.entries.map Entry.worded ++ [e.worded] } := by rw [h]
  simpa only [Line.worded, List.map_append, entries, List.map_cons, List.map_nil] using joined

/-- An entry appended to lines that are read alike (R108). -/
theorem ReadAlike.appended {s v : State} (h : ReadAlike s v) {e : Entry} (he : e.live = true) :
    ReadAlike (s.mapCurrent fun l => { l with entries := l.entries ++ [e] }) (v.appended e).bellCheck := by
  have current : v.lines.current.worded = s.lines.current.worded := by
    have same := congrArg LineStore.current h.lines
    exact same
  have ring : v.lines.ring.map Line.worded = s.lines.ring.map Line.worded := by
    have same := congrArg LineStore.ring h.lines
    exact same
  have eq := v.appended_eq he
  refine ⟨?_, ?_, ?_, ?_, fun r => ?_, fun r => ?_, ?_⟩
  · rw [State.bellCheck_lines, eq]
    simp only [LineStore.worded, State.mapCurrent, State.mapLines, ring, h.counter]
    rw [Line.append_worded current e _ s.lines.current.nextId]
  · rw [State.bellCheck_spell, eq]; exact h.spell
  · rw [State.bellCheck_bus, eq]; exact h.queries
  · rw [State.bellCheck_bus, eq]; exact h.conflict
  · rw [State.bellCheck_bus, eq]; exact h.usable r
  · rw [State.bellCheck_bus, eq]; exact h.holder r
  · refine (State.handingSuspended_congr (s := v) ?_ ?_).trans h.suspended
    · rw [State.bellCheck_bus, eq]
    · rw [State.bellCheck_supply, eq]

/-- A commit withdraws no action (R99, R102). -/
theorem State.commit_carriedActions (s : State) (carried : List Entry) :
    s.seq.queue <+: (s.commit carried).seq.queue := by
  have actions := (s.turnedWith carried).settle_work.actions
  rwa [(s.turnedWith_units carried).1, ← s.commit_turnedWith] at actions

/-- An entry appended after the run that a commit has carried to the new line, and the cursor set once, after
both (R70, R71, R99 steps 5 and 6). -/
theorem State.commit_append_opens (s : State) {carried : List Entry} (live : ∀ e ∈ carried, e.live = true)
    (kind : EntryKind) (advance : Nat) (underline : Bool) {t : State}
    (ht : t = (s.commit carried).appendComposed kind advance underline) :
    Opens s (t.showFrom 0 t.lines.current.live.length) s.lines.current.entries
      (shiftFrom s.esc.left carried ++ [newEntry (carriedNextId carried) kind
        (s.esc.left + (carried.map (·.advance)).sum) advance underline]) (carriedNextId carried + 1) := by
  have rest {α : Type} (f : State → α) := congrArg f (s.commit_rest carried)
  have intake := rest State.intake
  have isOn := rest fun t => t.spell.isOn
  have alert := rest fun t => t.alert.silence
  have corr := rest State.corr
  have marginRelease := rest fun t => t.esc.marginRelease
  have tabs := rest fun t => t.esc.tabs
  clear rest
  obtain ⟨number, owner, start, offset, nextId, worded⟩ := s.commit_line carried
  have begins (h : s.lines.nextLine ≠ s.lines.current.number) :=
    congrArg Line.entries (State.commit_begins h carried)
  have hold := congrArg LineStore.hold (s.commit_lines carried)
  have endPoint := s.commit_endPoint live
  have feeds := s.commit_feedsCarried carried
  have newest {t : State} := State.commit_newest (s := s) (t := t) carried
  have count := s.commit_liveLength live
  have actions := s.commit_carriedActions carried
  have read (hl : s.lines.ring.length ≤ 3) := State.commit_readAlike hl carried
  generalize s.commit carried = v at *
  obtain ⟨e, he⟩ : ∃ e, e = newEntry (carriedNextId carried) kind
    (s.esc.left + (carried.map (·.advance)).sum) advance underline := ⟨_, rfl⟩
  have made : v.entryMade kind advance underline = e := by
    rw [State.entryMade, nextId, endPoint, he]
    rfl
  have eLive : e.live = true := he ▸ newEntry_live _ _ _ _ _
  have segmented := v.appendComposed_eq kind advance underline
  obtain ⟨wordless, silence, spec⟩ := v.appendComposed_spec kind advance underline
  rw [made] at wordless segmented
  rw [v.appended_eq eLive] at wordless
  rw [← ht] at wordless silence spec segmented
  have unit {α : Type} (f : State → α) := congrArg f spec
  have lines {α : Type} (f : LineStore → α) := congrArg f wordless
  have line {α : Type} (f : Line → α) := lines fun ls => f ls.current
  have bare : t.lines.current.entries.map Entry.bare = (v.lines.current.entries ++ [e]).map Entry.bare :=
    line Line.entries
  have count : t.lines.current.live.length = (shiftFrom s.esc.left carried ++ [e]).length := by
    rw [Line.live, ← live_length_bare, bare, live_length_bare, Line.live_append_live _ eLive,
      List.length_append, count, List.length_append]
  rw [← he, count]
  refine ⟨(unit State.intake).trans intake, (line Line.number).trans number,
    (line Line.owner).trans owner, (line Line.start).trans start, (line Line.offset).trans offset,
    ?_, fun h => ?_, (line Line.nextId).trans (congrArg (· + 1) nextId), rfl, rfl,
    feeds.of_ring (unit State.seq) (lines LineStore.mark) (lines LineStore.ring), newest ?_, fun hl => ?_,
    (unit fun t => t.spell.isOn).trans isOn, silence.trans alert, (lines LineStore.hold).trans hold, ?_,
    (unit State.corr).trans corr, (unit fun t => t.esc.marginRelease).trans marginRelease,
    (unit fun t => t.esc.tabs).trans tabs⟩
  · have shape (es : List Entry) : es.map Entry.shape = (es.map Entry.bare).map Entry.shape := by
      rw [List.map_map]
      rfl
    show t.lines.current.entries.map Entry.shape = _
    rw [shape, bare, ← shape, List.map_append, List.map_append, shapes_of_worded worded]
  · show t.lines.current.entries.map Entry.bare = _
    rw [bare, begins h]
    rfl
  · have ring : t.lines.ring.map Line.wordless = v.lines.ring.map Line.wordless := lines LineStore.ring
    have layout (ls : List Line) : ls.map Line.layout = (ls.map Line.wordless).map Line.layout := by
      rw [List.map_map]
      exact List.map_congr_left fun l _ => l.layout_wordless.symm
    show t.lines.ring.map Line.layout = v.lines.ring.map Line.layout
    rw [layout, ring, ← layout]
  · have joined := ((read hl).appended eLive).resegment s.lines.nextLine
    rw [← number, ← segmented] at joined
    rw [← number]
    exact joined.wordView
  · have queue : (t.showFrom 0 (shiftFrom s.esc.left carried ++ [e]).length).seq.queue = v.seq.queue :=
      unit fun t => t.seq.queue
    rwa [queue]

end Sys2Proof.Machine

namespace Sys2Proof.Machine

/-! ### Wraps and breaks (R69 to R71, R89) -/

/-- The entries of the current line as a wrap commits them: without the trailing SPACEs and GAPs, and
justified if it may be (R69, R70, R74, R75). -/
def State.justified (s : State) (remaining : List Entry) : List Entry :=
  (justifyLine s.esc.justify s.esc.right s.wheel.mounted
    { s.lines.current with entries := trimLine remaining }).entries

theorem justifyLine_eq (justify : Bool) (right : Nat) (mounted : Option Family) (l : Line) :
    justifyLine justify right mounted l =
      { l with entries := (justifyLine justify right mounted l).entries } := by
  unfold justifyLine
  dsimp only
  repeat' split
  all_goals rfl

theorem State.wrapCommit_eq (s : State) (remaining carried : List Entry) :
    s.wrapCommit remaining carried =
      (s.mapCurrent fun l => { l with entries := s.justified remaining }).commit carried := by
  have line : justifyLine s.esc.justify s.esc.right s.wheel.mounted
      { s.lines.current with entries := trimLine remaining } =
        { s.lines.current with entries := s.justified remaining } := justifyLine_eq _ _ _ _
  exact congrArg (fun l => (s.mapCurrent fun _ => l).commit carried) line

theorem State.wrapEmpty_opens (s : State) :
    Opens s s.wrapEmpty (s.justified s.lines.current.entries) [] 0 := by
  rw [State.wrapEmpty, State.wrapCommit_eq]
  exact (State.commit_opens _).of_entries

/-- The entries of a run that can be carried are HELD (R71). -/
theorem State.canCarry_live {s : State} {advance : Nat} (h : s.canCarry advance = true) :
    ∀ e ∈ s.lines.current.carriedRun.1, e.live = true := by
  intro e he
  simp only [State.canCarry, Bool.and_eq_true, List.all_eq_true, beq_iff_eq] at h
  simp [Entry.live, (h.1.2 e he).1]

theorem State.wrapWith_opens {s : State} {advance : Nat} (h : s.canCarry advance = true) (kind : EntryKind)
    (underline : Bool) :
    let run := s.lines.current.carriedRun
    Opens s (s.wrapWith kind advance underline) (s.justified run.2)
      (shiftFrom s.esc.left run.1 ++ [newEntry (carriedNextId run.1) kind
        (s.esc.left + (run.1.map (·.advance)).sum) advance underline]) (carriedNextId run.1 + 1) := by
  intro run
  have opened := State.commit_append_opens
    (s.mapCurrent fun l => { l with entries := s.justified run.2 }) (State.canCarry_live h)
    kind advance underline rfl
  rw [← State.wrapCommit_eq] at opened
  exact opened.of_entries

theorem State.showFrom_self {t : State} {c : Nat} (depth : t.lines.viewDepth = 0)
    (cursor : t.lines.cursor = c) (window : t.disp.window = windowFor 0 c) : t.showFrom 0 c = t := by
  have shown : t.showFrom 0 c = { t with
      lines := { t.lines with viewDepth := 0, cursor := c }
      disp := { t.disp with window := windowFor 0 c } } := rfl
  rw [shown, ← window, ← cursor, ← depth]

/-- After a break the cursor stands behind the one entry of the new line (R91, R184). -/
theorem State.commit_append_shown (s : State) (kind : EntryKind) (advance : Nat) (underline : Bool)
    {t : State} (ht : t = (s.commit []).appendComposed kind advance underline) :
    t.showFrom 0 t.lines.current.live.length = t := by
  have count : t.lines.current.live.length = 1 :=
    (s.commit_append_opens (carried := []) (by simp) kind advance underline ht).cursor
  have empty : (s.commit []).lines.current.live.length = 0 := s.commit_liveLength (by simp)
  have window : (s.commit []).disp.window = 0 := by
    have shown := congrArg (fun t : State => t.disp.window) (s.commit_rest [])
    exact shown
  obtain ⟨wordless, -, spec⟩ := (s.commit []).appendComposed_spec kind advance underline
  rw [State.appended_eq _ (State.entryMade_live ..), empty] at wordless
  rw [empty, window] at spec
  rw [← ht] at wordless spec
  have lines {α : Type} (f : LineStore → α) := congrArg f wordless
  rw [count]
  exact State.showFrom_self ((lines LineStore.viewDepth).trans s.commit_viewDepth)
    (lines LineStore.cursor) (congrArg (fun t : State => t.disp.window) spec)

theorem State.breakWith_opens (s : State) {kind : EntryKind} {advance first : Nat} (underline : Bool)
    (plain : kind ≠ .tab false → first = advance)
    (tab : kind = .tab false → holdTabAdvance s.esc.tabs s.wheel.mounted s.esc.left = some first) :
    Opens s (s.breakWith kind advance underline) (trimLine s.lines.current.entries)
      [newEntry 0 kind s.esc.left first underline] 1 := by
  let u := s.mapCurrent fun l => { l with entries := trimLine l.entries }
  have rest {α : Type} (f : State → α) := congrArg f (u.commit_rest [])
  have tabs : (u.commit []).esc.tabs = s.esc.tabs := rest fun t => t.esc.tabs
  have wheel : (u.commit []).wheel = s.wheel := rest State.wheel
  have point : (u.commit []).typingPoint = s.esc.left := u.commit_endPoint (by simp)
  have broken : s.breakWith kind advance underline = (u.commit []).appendComposed kind first underline := by
    have advanced : (if kind = .tab false then
        (holdTabAdvance (u.commit []).esc.tabs (u.commit []).wheel.mounted
          (u.commit []).typingPoint).getD advance
        else advance) = first := by
      rw [tabs, wheel, point]
      split
      · next h => rw [tab h]; rfl
      · next h => exact (plain h).symm
    exact congrArg (fun a => (u.commit []).appendComposed kind a underline) advanced
  have opened := u.commit_append_opens (carried := []) (by simp) kind first underline broken
  rw [u.commit_append_shown kind first underline broken] at opened
  exact opened.of_entries

end Sys2Proof.Machine

namespace Sys2Proof.Machine

/-! ### Operations that do not read the sources' slots

A change of Intake that keeps the owner commutes with everything that a text character does to the lines:
Intake is read there for the owner field of a REPORT alone (R22). -/

section

variable {g : Intake → Intake}

theorem State.mapIntake_triggerReport (hg : ∀ i, (g i).owner = i.owner) (s : State) (c : ReportCause) :
    (s.mapIntake g).triggerReport c = (s.triggerReport c).mapIntake g := by
  have report (start : Option StartCause) (c : ReportCause) :
      (s.mapIntake g).buildReport c start = s.buildReport c start := by
    unfold State.buildReport
    rw [show (s.mapIntake g).intake.owner = s.intake.owner from hg _]
    rfl
  simp only [State.triggerReport, report, State.mapIntake_bus]
  by_cases hc : s.bus.conflict = true
  · rw [if_pos hc, if_pos hc]
  · rw [if_neg hc, if_neg hc]
    cases queuedReport s.bus.queue with
    | none => rfl
    | some p =>
      by_cases hs : s.bus.sending = some p.1
      · simp only [if_pos hs]; rfl
      · simp only [if_neg hs]; rfl

theorem State.mapIntake_ite (p : Prop) [Decidable p] (a b : State) :
    (if p then a else b).mapIntake g = if p then a.mapIntake g else b.mapIntake g :=
  apply_ite (fun t : State => t.mapIntake g) p a b

theorem State.mapIntake_reportIfChanged (hg : ∀ i, (g i).owner = i.owner) (s : State) (m : MachineState) :
    (s.mapIntake g).reportIfChanged m = (s.reportIfChanged m).mapIntake g := by
  simp only [State.reportIfChanged, State.mapIntake_ite, s.mapIntake_triggerReport hg]
  rfl

theorem State.mapIntake_setMech (hg : ∀ i, (g i).owner = i.owner) (s : State) (m : MechState)
    (p : Option PauseCause) (n : Option WheelNeed) :
    (s.mapIntake g).setMech m p n = (s.setMech m p n).mapIntake g :=
  State.mapIntake_reportIfChanged hg ((s.mapSeq fun q => { q with mech := m }).mapDisp fun d =>
    { d with standing := { d.standing with pause := p, wheel := n } }) s.machine

theorem State.mapIntake_examineHead (hg : ∀ i, (g i).owner = i.owner) (s : State) :
    (s.mapIntake g).examineHead = s.examineHead.mapIntake g := by
  have mech (q : Sequencer → Sequencer) (m : MechState) (p : Option PauseCause) (n : Option WheelNeed) :
      ((s.mapIntake g).mapSeq q).setMech m p n = ((s.mapSeq q).setMech m p n).mapIntake g :=
    (s.mapSeq q).mapIntake_setMech hg m p n
  have head (a : Action) : (s.mapIntake g).headCase a = s.headCase a := rfl
  simp only [State.examineHead, State.mapIntake_setMech hg, mech, head, State.mapIntake_seq,
    State.mapIntake_pins, State.mapIntake_ite]
  cases s.seq.queue with
  | nil => rfl
  | cons a q => cases h : s.headCase a <;> simp only [h]

theorem State.mapIntake_feedOne (s : State) (m : FeedMark) :
    (s.mapIntake g).feedOne m = (s.feedOne m).mapIntake g := by
  obtain ⟨line, place, final⟩ := m
  cases place with
  | finalFeed => cases final <;> rfl
  | action id sub =>
    have begins : (s.mapIntake g).beginEntry = s.beginEntry := rfl
    simp only [State.feedOne, State.mapIntake_lines, begins]
    cases s.lines.find line with
    | none => rfl
    | some l =>
      dsimp only
      cases l.entry? id with
      | none => rfl
      | some e =>
        dsimp only
        generalize (Entry.blows _ l.number)[sub]? = blow
        cases blow <;> rfl

theorem State.mapIntake_pumpUpTo (n : Nat) (s : State) :
    (s.mapIntake g).pumpUpTo n = (s.pumpUpTo n).mapIntake g := by
  induction n generalizing s with
  | zero => rfl
  | succ n ih =>
    have places : (s.mapIntake g).freePlaces = s.freePlaces := rfl
    simp only [State.pumpUpTo, State.mapIntake_lines, places]
    cases s.lines.mark with
    | none => rfl
    | some m => simp only [s.mapIntake_feedOne, ih, State.mapIntake_ite]

theorem State.mapIntake_settle (hg : ∀ i, (g i).owner = i.owner) (s : State) :
    (s.mapIntake g).settle = s.settle.mapIntake g := by
  have pump : (s.mapIntake g).pump = s.pump.mapIntake g := s.mapIntake_pumpUpTo _
  simp only [State.settle, State.mapIntake_seq, pump, State.mapIntake_examineHead hg, State.mapIntake_ite]

theorem State.mapIntake_resegment (s : State) (n : Word) :
    (s.mapIntake g).resegment n = (s.resegment n).mapIntake g := by
  have alike : SameWords s (s.mapIntake g) :=
    ⟨rfl, rfl, rfl, rfl, fun _ => rfl, fun _ => rfl, rfl⟩
  have same := alike.resegment n
  rw [((s.mapIntake g).resegment_only n).rest, same.lines, same.spell, same.queue]
  have rest := congrArg (fun t : State => t.mapIntake g) (s.resegment_only n).rest
  exact rest.symm

theorem State.mapIntake_ringOverflow (s : State) :
    (s.mapIntake g).ringOverflow = s.ringOverflow.mapIntake g :=
  State.ringOverflow_comm (g := fun t => t.mapIntake g) (fun _ => rfl) (fun _ _ => rfl)
    (fun _ _ _ => rfl) s

theorem State.mapIntake_showFrom (s : State) (depth c : Nat) :
    (s.mapIntake g).showFrom depth c = (s.showFrom depth c).mapIntake g := rfl

theorem State.mapIntake_commit (hg : ∀ i, (g i).owner = i.owner) (s : State) (carried : List Entry) :
    (s.mapIntake g).commit carried = (s.commit carried).mapIntake g := by
  have ended : (s.mapIntake g).lineEnded = s.lineEnded.mapIntake g :=
    (s.mapCurrent fun l => { l with state := .committed }).mapIntake_resegment s.lines.current.number
  have joined : (s.mapIntake g).lineJoined = s.lineJoined.mapIntake g := by
    simp only [State.lineJoined, State.lineOpened, ended]
    rfl
  have turned : (s.mapIntake g).turnedWith carried = (s.turnedWith carried).mapIntake g := by
    have lines (u : State) (f : LineStore → LineStore) :
      (u.mapIntake g).mapLines f = (u.mapLines f).mapIntake g := rfl
    have opened : (s.mapIntake g).lineOpened = s.lineOpened := by
      simp only [State.lineOpened, ended]
      rfl
    have begun : (s.mapIntake g).openedLine (s.mapIntake g).lines.current carried =
      s.openedLine s.lines.current carried := rfl
    rw [State.turnedWith, State.lineTurned, joined, State.mapIntake_ringOverflow, opened, begun,
      State.mapIntake_showFrom, lines, State.mapIntake_showFrom]
    rfl
  rw [State.commit_turnedWith, turned, State.mapIntake_settle hg, ← State.commit_turnedWith]

theorem State.mapIntake_appendComposed (s : State) (kind : EntryKind) (advance : Nat) (underline : Bool) :
    (s.mapIntake g).appendComposed kind advance underline =
      (s.appendComposed kind advance underline).mapIntake g := by
  have rung (t : State) : (t.mapIntake g).bellCheck = t.bellCheck.mapIntake g := by
    have point : (t.mapIntake g).typingPoint = t.typingPoint := rfl
    have alert : ((t.mapIntake g).requestAlert .bell).alert = (t.requestAlert .bell).alert := by
      rw [State.requestAlert_congr (s := t) (t := t.mapIntake g) rfl rfl .bell]
    simp only [State.bellCheck_eq, point, State.rungAt, alert, State.mapIntake_ite]
    rfl
  have appended : (s.mapIntake g).appended ((s.mapIntake g).entryMade kind advance underline) =
    (s.appended (s.entryMade kind advance underline)).mapIntake g := rfl
  rw [State.appendComposed_eq, appended, rung, State.mapIntake_resegment]
  rfl

theorem State.mapIntake_wrapCommit (hg : ∀ i, (g i).owner = i.owner) (s : State)
    (remaining carried : List Entry) :
    (s.mapIntake g).wrapCommit remaining carried = (s.wrapCommit remaining carried).mapIntake g := by
  have justified : (s.mapIntake g).justified remaining = s.justified remaining := rfl
  rw [State.wrapCommit_eq, State.wrapCommit_eq, justified, ← State.mapIntake_commit hg]
  rfl

theorem State.mapIntake_wrapWith (hg : ∀ i, (g i).owner = i.owner) (s : State) (kind : EntryKind)
    (advance : Nat) (underline : Bool) : (s.mapIntake g).wrapWith kind advance underline =
      (s.wrapWith kind advance underline).mapIntake g := by
  unfold State.wrapWith
  simp only [State.mapIntake_lines, s.mapIntake_wrapCommit hg, State.mapIntake_appendComposed,
    State.mapIntake_showFrom]

theorem State.mapIntake_breakWith (hg : ∀ i, (g i).owner = i.owner) (s : State) (kind : EntryKind)
    (advance : Nat) (underline : Bool) : (s.mapIntake g).breakWith kind advance underline =
      (s.breakWith kind advance underline).mapIntake g := by
  have broken : (s.mapIntake g).breakCommit = s.breakCommit.mapIntake g :=
    (s.mapCurrent fun l => { l with entries := trimLine l.entries }).mapIntake_commit hg []
  unfold State.breakWith
  simp only [broken, State.mapIntake_appendComposed]
  rfl

/-- A text entry waits, is appended, wraps or breaks whatever stands in the sources' slots (R69, R71, R89). -/
theorem State.mapIntake_composeText (hg : ∀ i, (g i).owner = i.owner)
    (hk : ∀ i, (g i).keys = i.keys) (s : State) (kind : EntryKind) (advance : Nat) (underline : Bool) :
    (s.mapIntake g).composeText kind advance underline =
      (s.composeText kind advance underline).map fun t => t.mapIntake g := by
  have waits : (s.mapIntake g).textCommitWaits = s.textCommitWaits := by
    have keys : (s.mapIntake g).intake.keys = s.intake.keys := hk _
    simp only [State.textCommitWaits, State.stopJobFirst, keys]
    rfl
  have passes : (s.mapIntake g).passesEnd advance = s.passesEnd advance := rfl
  have carry : (s.mapIntake g).canCarry advance = s.canCarry advance := rfl
  have empty : (s.mapIntake g).wrapEmpty = s.wrapEmpty.mapIntake g := s.mapIntake_wrapCommit hg _ _
  simp only [State.composeText, passes, waits, carry, empty, State.mapIntake_lines, s.mapIntake_wrapWith hg,
    s.mapIntake_breakWith hg, s.mapIntake_appendComposed]
  cases kind <;> simp only [apply_ite (Option.map fun t : State => t.mapIntake g), Option.map_some,
    Option.map_none]

theorem State.mapIntake_returnCommit (hg : ∀ i, (g i).owner = i.owner) (s : State) :
    (s.mapIntake g).returnCommit = s.returnCommit.mapIntake g := by
  unfold State.returnCommit
  rw [s.mapIntake_commit hg]
  rfl

end

end Sys2Proof.Machine

namespace Sys2Proof.Machine

/-! ### The consumption of a text character (R42, R43) -/

/-- The record of a source with this in its slot (R33). -/
def State.withSlot (s : State) (n : SourceNo) (x : Option HeldBlock) : State :=
  s.mapIntake fun i => i.mapSrc n fun r => { r with slot := x }

theorem Intake.mapSrc_owner (i : Intake) (n : SourceNo) (f : SourceIntake → SourceIntake) :
    (i.mapSrc n f).owner = i.owner := by cases n <;> rfl

theorem Intake.mapSrc_keys (i : Intake) (n : SourceNo) (f : SourceIntake → SourceIntake) :
    (i.mapSrc n f).keys = i.keys := by cases n <;> rfl

theorem Intake.src_mapSrc_other (i : Intake) {m n : SourceNo} (h : m ≠ n)
    (f : SourceIntake → SourceIntake) : (i.mapSrc n f).src m = i.src m := by
  cases m <;> cases n
  · exact absurd rfl h
  · rfl
  · rfl
  · exact absurd rfl h

theorem State.withSlot_src (s : State) (n : SourceNo) (x : Option HeldBlock) :
    (s.withSlot n x).intake.src n = { s.intake.src n with slot := x } := Intake.src_mapSrc ..

theorem State.withSlot_withSlot (s : State) (n : SourceNo) (x y : Option HeldBlock) :
    (s.withSlot n x).withSlot n y = s.withSlot n y := by
  cases n <;> rfl

/-- A due character of its own row is consumed unless it waits; any other character stays (R42). -/
theorem State.TextDue.consume {s : State} {n : SourceNo} {h : HeldBlock} {code : Nat}
    (due : s.TextDue n h code) (ours : Nat → Bool) (act : SourceIntake → Nat → State → Option State) :
    s.consumeText ours act =
      if ours code = true then ((act (s.intake.src n) code s).map fun t => t.textConsumed n h).getD s
      else s := by
  obtain ⟨running, consuming, owns, held, next⟩ := due
  have nextText : s.nextText = some (n, h, code) := by
    simp only [State.nextText, owns, ownerOf_source, held, next, Option.map_some]
  simp only [State.consumeText, running, consuming, nextText, Bool.or_self, Bool.false_eq_true, if_false]
  cases ours code with
  | false => rfl
  | true => cases act (s.intake.src n) code s <;> rfl

/-- With further characters behind it a consumed character leaves the block at the next one (R42). -/
theorem State.textConsumed_more {h : HeldBlock} (more : h.next + 1 < h.block.codes.length) (t : State)
    (n : SourceNo) : t.textConsumed n h = t.withSlot n (some { h with next := h.next + 1 }) := if_pos more

/-- The last character empties the slot, and the job goes on by R35. -/
theorem State.textConsumed_last {h : HeldBlock} (last : h.next + 1 = h.block.codes.length) {t : State}
    {n : SourceNo} {id k : Nat} (hj : (t.intake.src n).job = .opened id k) : t.textConsumed n h =
      if h.block.last = true then (t.withSlot n none).endJob n id k
      else (t.withSlot n none).mapIntake fun i => i.mapSrc n fun r => { r with idleRunning := true } := by
  have job : ((t.withSlot n none).intake.src n).job = .opened id k := by rw [State.withSlot_src]; exact hj
  refine (if_neg (by omega)).trans ?_
  show (match ((t.withSlot n none).intake.src n).job with
    | .opened id last => _
    | _ => _) = _
  rw [job]
  rfl

/-- What a text character does to the lines does not depend on the block in the slot, and keeps the jobs and
the supply (R43, R44). -/
structure SlotBlind (act : SourceIntake → Nat → State → Option State) : Prop where
  slot : ∀ (s : State) (n : SourceNo) (code : Nat) (x : Option HeldBlock), s.intake.owner = ownerOf n →
    act ((s.withSlot n x).intake.src n) code (s.withSlot n x) =
      (act (s.intake.src n) code s).map fun t => t.withSlot n x
  keeps : ∀ (r : SourceIntake) (code : Nat) (s t : State), act r code s = some t →
    (∀ m, (t.intake.src m).job = (s.intake.src m).job) ∧ t.supply = s.supply

/-- A text entry is appended, or the line wraps or breaks (R69, R71, R89). -/
theorem State.composeText_cases {s t : State} {kind : EntryKind} {advance : Nat} {underline : Bool}
    (h : s.composeText kind advance underline = some t) :
    t = s.appendComposed kind advance underline ∨ t = s.wrapWith kind advance underline ∨
      t = s.breakWith kind advance underline ∨ t = s.wrapEmpty := by
  unfold State.composeText at h
  repeat' split at h
  all_goals cases h <;> simp

@[simp] theorem State.appendComposed_intake (s : State) (k : EntryKind) (a : Nat) (u : Bool) :
    (s.appendComposed k a u).intake = s.intake := by simp [State.appendComposed, State.cursorToEnd]

@[simp] theorem State.appendComposed_supply (s : State) (k : EntryKind) (a : Nat) (u : Bool) :
    (s.appendComposed k a u).supply = s.supply := by simp [State.appendComposed, State.cursorToEnd]

@[simp] theorem State.wrapCommit_intake (s : State) (r c : List Entry) :
    (s.wrapCommit r c).intake = s.intake := by simp [State.wrapCommit]

@[simp] theorem State.wrapCommit_supply (s : State) (r c : List Entry) :
    (s.wrapCommit r c).supply = s.supply := by simp [State.wrapCommit]

/-- A text entry changes neither Intake nor the supply. -/
theorem State.composeText_keeps {s t : State} {kind : EntryKind} {advance : Nat} {underline : Bool}
    (h : s.composeText kind advance underline = some t) : t.intake = s.intake ∧ t.supply = s.supply := by
  obtain rfl | rfl | rfl | rfl := State.composeText_cases h
  · simp
  · simp [State.wrapWith]
  · simp [State.breakWith, State.breakCommit]
  · simp [State.wrapEmpty]

theorem State.withSlot_composeText (s : State) (n : SourceNo) (x : Option HeldBlock) (kind : EntryKind)
    (advance : Nat) (underline : Bool) : (s.withSlot n x).composeText kind advance underline =
      (s.composeText kind advance underline).map fun t => t.withSlot n x :=
  State.mapIntake_composeText (fun i => i.mapSrc_owner n _) (fun i => i.mapSrc_keys n _) s kind advance
    underline

theorem SlotBlind.character : SlotBlind textCharacter where
  slot s n code x _ := by
    have wheel : (s.withSlot n x).wheel = s.wheel := rfl
    simp only [s.withSlot_src, textCharacter, wheel]
    cases s.wheel.mounted with
    | none => rfl
    | some f =>
      by_cases skipped : code < 32 ∨ 159 < code
      · simp only [if_pos skipped, Option.map_some]
      · simp only [if_neg skipped]
        cases f.width code <;> exact s.withSlot_composeText n x ..
  keeps r code s t h := by
    have same : t.intake = s.intake ∧ t.supply = s.supply := by
      unfold textCharacter at h
      split at h
      · cases h
      · split at h
        · cases h; exact ⟨rfl, rfl⟩
        · split at h <;> exact State.composeText_keeps h
    exact ⟨fun m => by rw [same.1], same.2⟩

/-- The effect of TEXT_RETURN (R43). -/
def textReturn (_ : SourceIntake) (_ : Nat) (s : State) : Option State :=
  if s.textCommitWaits then none else some s.returnCommit

theorem SlotBlind.return : SlotBlind textReturn where
  slot s n code x _ := by
    have keys : (s.withSlot n x).intake.keys = s.intake.keys := Intake.mapSrc_keys ..
    have waits : (s.withSlot n x).textCommitWaits = s.textCommitWaits := by
      simp only [State.textCommitWaits, State.stopJobFirst, keys]
      rfl
    have commits : (s.withSlot n x).returnCommit = s.returnCommit.withSlot n x :=
      State.mapIntake_returnCommit (fun i => i.mapSrc_owner n _) s
    simp only [textReturn, waits, commits]
    cases s.textCommitWaits <;> rfl
  keeps r code s t h := by
    unfold textReturn at h
    split at h
    · cases h
    · cases h
      simp [State.returnCommit]

/-- The effect of TEXT_TAB (R43, R73). -/
def textTab (r : SourceIntake) (_ : Nat) (s : State) : Option State :=
  match holdTabAdvance s.esc.tabs s.wheel.mounted s.typingPoint with
  | none => none
  | some d => s.composeText (.tab false) d r.underline

theorem SlotBlind.tab : SlotBlind textTab where
  slot s n code x _ := by
    have distance : holdTabAdvance (s.withSlot n x).esc.tabs (s.withSlot n x).wheel.mounted
      (s.withSlot n x).typingPoint = holdTabAdvance s.esc.tabs s.wheel.mounted s.typingPoint := rfl
    simp only [s.withSlot_src, textTab, distance]
    cases holdTabAdvance s.esc.tabs s.wheel.mounted s.typingPoint with
    | none => rfl
    | some d => exact s.withSlot_composeText n x ..
  keeps r code s t h := by
    unfold textTab at h
    split at h
    · cases h
    · obtain ⟨intake, supply⟩ := State.composeText_keeps h
      exact ⟨fun m => by rw [intake], supply⟩

/-- The effect of TEXT_HALF_SPACE (R43). -/
def textHalfSpace (r : SourceIntake) (_ : Nat) (s : State) : Option State :=
  match s.wheel.mounted with
  | none => none
  | some f => s.composeText .halfSpace f.halfSpaceWidth r.underline

theorem SlotBlind.halfSpace : SlotBlind textHalfSpace where
  slot s n code x _ := by
    have wheel : (s.withSlot n x).wheel = s.wheel := rfl
    simp only [s.withSlot_src, textHalfSpace, wheel]
    cases s.wheel.mounted with
    | none => rfl
    | some f => exact s.withSlot_composeText n x ..
  keeps r code s t h := by
    unfold textHalfSpace at h
    split at h
    · cases h
    · obtain ⟨intake, supply⟩ := State.composeText_keeps h
      exact ⟨fun m => by rw [intake], supply⟩

/-- The effect of a text function that turns BOLD or UNDERLINE of the job over (R43, R44). -/
def textToggle (f : SourceIntake → SourceIntake) (_ : SourceIntake) (_ : Nat) (s : State) :
    Option State :=
  some (s.mapOwnerSource f)

theorem State.mapOwnerSource_owned {s : State} {n : SourceNo} (ho : s.intake.owner = ownerOf n)
    (f : SourceIntake → SourceIntake) : s.mapOwnerSource f = s.mapIntake fun i => i.mapSrc n f := by
  simp only [State.mapOwnerSource, ho, ownerOf_source]

theorem SlotBlind.toggle {f : SourceIntake → SourceIntake}
    (hs : ∀ r x, f { r with slot := x } = { f r with slot := x }) (hj : ∀ r, (f r).job = r.job) :
    SlotBlind (textToggle f) where
  slot s n code x ho := by
    have owner : (s.withSlot n x).intake.owner = ownerOf n := (Intake.mapSrc_owner ..).trans ho
    show some ((s.withSlot n x).mapOwnerSource f) = some ((s.mapOwnerSource f).withSlot n x)
    rw [State.mapOwnerSource_owned owner, State.mapOwnerSource_owned ho]
    simp only [State.withSlot, State.mapIntake, Intake.mapSrc_mapSrc]
    exact congrArg (fun g => some (s.mapIntake fun i => i.mapSrc n g)) (funext fun r => hs r x)
  keeps r code s t h := by
    cases h
    unfold State.mapOwnerSource
    split
    · exact ⟨fun _ => rfl, rfl⟩
    · next n _ =>
      refine ⟨fun m => ?_, rfl⟩
      by_cases h : m = n
      · subst h
        exact (congrArg SourceIntake.job (Intake.src_mapSrc ..)).trans (hj _)
      · exact congrArg SourceIntake.job (Intake.src_mapSrc_other _ h _)

/-- Each row of text consumes the characters of its codes by an effect that the slot is no part of (R43). -/
theorem exec_text {i : Instr} (hi : i ∈ [Instr.textCharacter, .textReturn, .textTab, .textHalfSpace,
    .textBold, .textUnderline]) : ∃ ours act, SlotBlind act ∧
      ∀ s, exec i s = .next (s.consumeText ours act) := by
  simp only [List.mem_cons, List.not_mem_nil, or_false] at hi
  obtain rfl | rfl | rfl | rfl | rfl | rfl := hi
  · exact ⟨_, _, .character, fun _ => rfl⟩
  · exact ⟨_, _, .return, fun _ => rfl⟩
  · exact ⟨_, _, .tab, fun _ => rfl⟩
  · exact ⟨_, _, .halfSpace, fun _ => rfl⟩
  · exact ⟨_, _, .toggle (f := fun r => { r with bold := !r.bold }) (fun _ _ => rfl) fun _ => rfl,
      fun _ => rfl⟩
  · exact ⟨_, _, .toggle (f := fun r => { r with underline := !r.underline }) (fun _ _ => rfl)
      fun _ => rfl, fun _ => rfl⟩

/-! ### The last character of a block (R35) -/

/-- A block with one more character behind it. -/
def HeldBlock.longer (h : HeldBlock) : HeldBlock :=
  { h with block := { h.block with codes := h.block.codes ++ [0] } }

theorem HeldBlock.longer_ne (h : HeldBlock) : some h.longer ≠ some { h.longer with next := h.next + 1 } :=
  fun e => by simpa [HeldBlock.longer] using congrArg HeldBlock.next (Option.some.inj e)

theorem State.TextDue.longer {s : State} {n : SourceNo} {h : HeldBlock} {code : Nat}
    (due : s.TextDue n h code) : (s.withSlot n (some h.longer)).TextDue n h.longer code where
  running := due.running
  consuming := due.consuming
  owns := (Intake.mapSrc_owner ..).trans due.owns
  held := by rw [State.withSlot_src]
  next := by
    obtain ⟨inside, -⟩ := List.getElem?_eq_some_iff.1 due.next
    exact (List.getElem?_append_left inside).trans due.next

/-- What the last character of a block leaves, against what it would leave with one more character behind it
(R35). -/
theorem State.TextDue.last {s t : State} {n : SourceNo} {h : HeldBlock} {code : Nat} {i : Instr}
    (due : s.TextDue n h code) (last : h.next + 1 = h.block.codes.length)
    (hi : i ∈ [Instr.textCharacter, .textReturn, .textTab, .textHalfSpace, .textBold, .textUnderline])
    (run : exec i (s.withSlot n (some h.longer)) = .next t) :
    (t = s.withSlot n (some h.longer) ∧ exec i s = .next s) ∨
    ∃ u : State, t = u.withSlot n (some { h.longer with next := h.next + 1 }) ∧
      exec i s = .next (u.textConsumed n h) ∧
      (∀ m, (u.intake.src m).job = (s.intake.src m).job) ∧ u.supply = s.supply := by
  obtain ⟨ours, act, blind, rows⟩ := exec_text hi
  rw [rows, due.longer.consume, blind.slot s n code _ due.owns] at run
  rw [rows, due.consume]
  have left := (Host.Outcome.next.inj run).symm
  cases row : ours code with
  | false => exact .inl ⟨by rwa [row] at left, rfl⟩
  | true =>
    rw [row] at left
    cases effect : act (s.intake.src n) code s with
    | none => exact .inl ⟨by rwa [effect] at left, rfl⟩
    | some u =>
      refine .inr ⟨u, ?_, rfl, blind.keeps _ _ _ _ effect⟩
      have inside : h.longer.next + 1 < h.longer.block.codes.length := by
        show h.next + 1 < (h.block.codes ++ [0]).length
        simp [← last]
      simp only [effect, if_true, Option.map_some, Option.getD_some, State.textConsumed_more inside,
        State.withSlot_withSlot] at left
      exact left

end Sys2Proof.Machine

namespace Sys2Proof.Machine

/-- While text is consumed a wheel is mounted (R42). -/
theorem State.TextDue.mounted {s : State} {n : SourceNo} {h : HeldBlock} {code : Nat}
    (due : s.TextDue n h code) : ∃ f, s.wheel.mounted = some f := by
  have consuming := due.consuming
  simp only [State.textSuspended, Bool.or_eq_false_iff] at consuming
  obtain ⟨-, mounted⟩ := consuming
  cases wheel : s.wheel.mounted with
  | none => simp [wheel] at mounted
  | some f => exact ⟨f, rfl⟩

/-- A code that the rows of text skip changes nothing but the block's place (R43). -/
theorem State.TextDue.skips {s : State} {n : SourceNo} {h : HeldBlock} {code : Nat}
    (due : s.TextDue n h code) (row : isTextFunction code = false) (skipped : code < 32 ∨ 159 < code) :
    exec .textCharacter s = .next (s.textConsumed n h) := by
  obtain ⟨f, wheel⟩ := due.mounted
  have effect : textCharacter (s.intake.src n) code s = some s := by
    simp only [textCharacter, wheel, if_pos skipped]
  refine congrArg Host.Outcome.next ((due.consume _ _).trans ?_)
  simp only [row, effect, Bool.not_false, if_true, Option.map_some, Option.getD_some]

/-- The end of a block without LAST empties the slot and leaves the job OPEN (R35, R36). -/
theorem State.textConsumed_open {t : State} {n : SourceNo} {h : HeldBlock} {id k : Nat}
    (last : h.next + 1 = h.block.codes.length) (hj : (t.intake.src n).job = .opened id k)
    (hl : h.block.last = false) : t.textConsumed n h =
      t.mapIntake fun i => i.mapSrc n fun r => { r with slot := none, idleRunning := true } := by
  rw [State.textConsumed_last last hj, hl]
  cases n <;> rfl

/-- The end of a block with LAST empties the slot and ends the job (R35). -/
theorem State.textConsumed_ends {t : State} {n : SourceNo} {h : HeldBlock} {id k : Nat}
    (last : h.next + 1 = h.block.codes.length) (hj : (t.intake.src n).job = .opened id k)
    (hl : h.block.last = true) : t.textConsumed n h = (t.withSlot n none).endJob n id k := by
  rw [State.textConsumed_last last hj, hl]
  rfl

/-- The job of a source as ENDING (R35). -/
def State.jobEnding (s : State) (n : SourceNo) (id last : Nat) : State :=
  s.mapIntake fun i => i.mapSrc n fun r => { r with job := .ending id last, idleRunning := false }

theorem State.endJob_eq (s : State) (n : SourceNo) (id last : Nat) :
    s.endJob n id last = (s.jobEnding n id last).closeJob n := rfl

theorem State.jobEnding_job (s : State) (n : SourceNo) (id last : Nat) :
    ((s.jobEnding n id last).intake.src n).job = .ending id last :=
  congrArg SourceIntake.job (Intake.src_mapSrc ..)

theorem State.jobEnding_job_other (s : State) {m n : SourceNo} (h : m ≠ n) (id last : Nat) :
    (s.jobEnding n id last).intake.src m = s.intake.src m := Intake.src_mapSrc_other _ h _

/-- An ended job closes as by JOB_CLOSE (R35). -/
theorem State.endJob_eq_jobClose {s : State} {n : SourceNo} (hr : s.stopped = false)
    (only : ∀ m a b, (s.intake.src m).job ≠ .ending a b) (id last : Nat) :
    exec .jobClose (s.jobEnding n id last) = .next (s.endJob n id last) := by
  rw [s.endJob_eq]
  refine exec_jobClose hr fun m a b hm => ?_
  by_contra other
  rw [s.jobEnding_job_other other] at hm
  exact only m a b hm

/-- A job that ends with an empty line leaves the print queue as it is (R35). -/
theorem State.endJob_seq {s : State} {n : SourceNo} (ho : s.intake.owner = ownerOf n)
    (he : s.lines.current.live = []) (id last : Nat) : (s.endJob n id last).seq = s.seq := by
  have owner : (s.jobEnding n id last).intake.owner = ownerOf n := (Intake.mapSrc_owner ..).trans ho
  have empty : (s.jobEnding n id last).commitLive = s.jobEnding n id last := if_pos (List.isEmpty_iff.2 he)
  rw [s.endJob_eq, State.closeJob_closes (s.jobEnding_job n id last) owner (.inl he),
    (State.releaseLine_sameCommit _).seq, empty]
  rfl

end Sys2Proof.Machine

namespace Sys2Proof.Machine

/-! ### A text entry by the right limit and the places of the line (R69, R71, R89) -/

/-- The current line has a place and an id for one more entry (R89). -/
def State.possible (s : State) : Prop :=
  s.lines.current.entries.length < 160 ∧ s.lines.current.nextId ≤ 255

/-- Nothing makes a text character that commits the line wait (R38, R42). -/
def State.textCommits (s : State) : Prop :=
  s.lineFeeding = false ∧ ¬ s.intake.keys.head?.map (·.code) = some 29

theorem State.canMake_iff (s : State) : s.lines.current.canMake = true ↔ s.possible := by
  simp only [Line.canMake, Bool.and_eq_true, decide_eq_true_eq]
  rfl

theorem State.textCommitWaits_iff (s : State) : s.textCommitWaits = true ↔ ¬ s.textCommits := by
  simp only [State.textCommitWaits, State.stopJobFirst, stopJobCode, State.textCommits, Bool.or_eq_true,
    beq_iff_eq]
  cases s.lineFeeding <;> simp

theorem State.rightLimit_eq (s : State) : s.rightLimit s.lines.current.owner =
    if s.lines.current.owner = .keyboard ∧ s.esc.marginRelease = true then s.esc.platen
    else s.esc.right := by
  simp [State.rightLimit]

/-- The right limit of the current line (R62). -/
def State.textLimit (s : State) : Nat :=
  if s.lines.current.owner = .keyboard ∧ s.esc.marginRelease = true then s.esc.platen else s.esc.right

theorem State.passesEnd_iff (s : State) (advance : Nat) :
    s.passesEnd advance = true ↔ s.textLimit < s.typingPoint + advance := by
  simp [State.passesEnd, s.rightLimit_eq, State.textLimit]

/-- The run of the current line can be carried over with a CHAR of this width behind it (R71). -/
def State.carriesRun (s : State) (w : Nat) : Prop :=
  s.lines.current.carriedRun.1.length < s.lines.current.live.length ∧
    (∀ e ∈ s.lines.current.carriedRun.1, e.strike = some .held ∧ e.id < 255) ∧
    s.esc.left + (s.lines.current.carriedRun.1.map (·.advance)).sum + w ≤ s.textLimit

theorem State.canCarry_iff (s : State) (w : Nat) : s.canCarry w = true ↔ s.carriesRun w := by
  simp [State.canCarry, State.carriesRun, s.rightLimit_eq, State.textLimit, totalAdvance, and_assoc]

section

variable {s : State} {kind : EntryKind} {advance : Nat} {underline : Bool}

theorem State.composeText_fits (fits : s.typingPoint + advance ≤ s.textLimit) (room : s.possible) :
    s.composeText kind advance underline = some (s.appendComposed kind advance underline) := by
  have passes : ¬ s.passesEnd advance = true := mt (s.passesEnd_iff _).1 (by omega)
  exact (if_neg passes).trans (if_pos (s.canMake_iff.2 room))

theorem State.composeText_waits (full : s.textLimit < s.typingPoint + advance ∨ ¬ s.possible)
    (waits : ¬ s.textCommits) : s.composeText kind advance underline = none := by
  by_cases passes : s.passesEnd advance = true
  · exact (if_pos passes).trans (if_pos (s.textCommitWaits_iff.2 waits))
  · have room : ¬ s.possible := full.resolve_left (mt (s.passesEnd_iff _).2 passes)
    exact (if_neg passes).trans ((if_neg (mt s.canMake_iff.1 room)).trans
      (if_pos (s.textCommitWaits_iff.2 waits)))

theorem State.composeText_noPlace (commits : s.textCommits) (fits : s.typingPoint + advance ≤ s.textLimit)
    (full : ¬ s.possible) :
    s.composeText kind advance underline = some (s.breakWith kind advance underline) := by
  have passes : ¬ s.passesEnd advance = true := mt (s.passesEnd_iff _).1 (by omega)
  have goes : ¬ s.textCommitWaits = true := fun h => s.textCommitWaits_iff.1 h commits
  exact (if_neg passes).trans ((if_neg (mt s.canMake_iff.1 full)).trans (if_neg goes))

theorem State.composeText_wraps {code : Nat} {f : Family} {bold : Bool} (commits : s.textCommits)
    (passes : s.textLimit < s.typingPoint + advance) (carries : s.carriesRun advance) :
    s.composeText (.char code f bold) advance underline =
      some (s.wrapWith (.char code f bold) advance underline) := by
  have goes : ¬ s.textCommitWaits = true := fun h => s.textCommitWaits_iff.1 h commits
  exact (if_pos ((s.passesEnd_iff _).2 passes)).trans
    ((if_neg goes).trans (if_pos ((s.canCarry_iff _).2 carries)))

theorem State.composeText_breaks {code : Nat} {f : Family} {bold : Bool} (commits : s.textCommits)
    (passes : s.textLimit < s.typingPoint + advance) (alone : ¬ s.carriesRun advance) :
    s.composeText (.char code f bold) advance underline =
      some (s.breakWith (.char code f bold) advance underline) := by
  have goes : ¬ s.textCommitWaits = true := fun h => s.textCommitWaits_iff.1 h commits
  exact (if_pos ((s.passesEnd_iff _).2 passes)).trans
    ((if_neg goes).trans (if_neg (mt (s.canCarry_iff _).1 alone)))

theorem State.composeText_drops (commits : s.textCommits)
    (passes : s.textLimit < s.typingPoint + advance) (plain : kind.isChar = false) :
    s.composeText kind advance underline = some s.wrapEmpty := by
  have goes : ¬ s.textCommitWaits = true := fun h => s.textCommitWaits_iff.1 h commits
  refine (if_pos ((s.passesEnd_iff _).2 passes)).trans ((if_neg goes).trans ?_)
  cases kind with
  | char => cases plain
  | _ => rfl

end

end Sys2Proof.Machine

namespace Sys2Proof.Machine

/-! ### What a consumed entry leaves (R43, R44) -/

/-- The row `i` consumes the due character by the entry of this kind and advance, and then the block stands
at `slot`; or it waits (R42, R43). -/
def State.Composes (s : State) (n : SourceNo) (slot : Option HeldBlock) (i : Instr) (kind : EntryKind)
    (advance : Nat) (underline : Bool) : Prop :=
  exec i s = .next (((s.composeText kind advance underline).map fun t => t.withSlot n slot).getD s)

/-- A row consumes a due character of its codes, with further characters behind it (R42). -/
theorem State.TextDue.consumes {s : State} {n : SourceNo} {h : HeldBlock} {code : Nat}
    (due : s.TextDue n h code) (more : h.next + 1 < h.block.codes.length) {i : Instr} {ours : Nat → Bool}
    {act : SourceIntake → Nat → State → Option State} (rows : exec i s = .next (s.consumeText ours act))
    (row : ours code = true) : exec i s =
      .next (((act (s.intake.src n) code s).map fun t =>
        t.withSlot n (some { h with next := h.next + 1 })).getD s) := by
  rw [rows, due.consume, if_pos row]
  simp only [State.textConsumed_more more]

/-- An entry appended at the end of the line, the bell checked at its end and the line segmented
(R44, R65, R69, R108). -/
theorem State.appendComposed_text (s : State) (n : SourceNo) (slot : Option HeldBlock) (kind : EntryKind)
    (advance : Nat) (underline : Bool) :
    let t := (s.appendComposed kind advance underline).withSlot n slot
    let l := s.lines.current
    let passed : Intake := s.intake.mapSrc n fun r => { r with slot := slot }
    let e := newEntry l.nextId kind s.typingPoint advance underline
    t.intake = passed ∧ t.lines.current.entries.map Entry.bare = (l.entries ++ [e]).map Entry.bare ∧
      t = (State.rungAt { s with
        intake := passed
        lines := { s.lines with
          current := { l with entries := l.entries ++ [e], nextId := l.nextId + 1 }
          cursor := l.live.length + 1 }
        disp := { s.disp with window := windowFor s.disp.window (l.live.length + 1) } }
          (s.typingPoint + advance)).resegment l.number ∧
      t.lines.current.nextId = l.nextId + 1 ∧ t.seq = s.seq ∧ t.corr = s.corr ∧
      t.esc.tabs = s.esc.tabs ∧ t.alert.silence = s.alert.silence := by
  intro t l passed e
  have live : e.live = true := newEntry_live _ _ _ _ _
  obtain ⟨wordless, silence, spec⟩ := s.appendComposed_spec kind advance underline
  have eq : s.appended e = _ := s.appended_eq live
  have lines {α : Type} (f : LineStore → α) :=
    congrArg f (wordless.trans (congrArg _ (congrArg State.lines eq)))
  have unit {α : Type} (f : State → α) := congrArg f spec
  refine ⟨?_, lines fun ls => ls.current.entries, ?_, lines fun ls => ls.current.nextId, unit State.seq,
    unit State.corr, unit fun t => t.esc.tabs, silence⟩
  · exact congrArg (fun i : Intake => i.mapSrc n fun r => { r with slot := slot }) (unit State.intake)
  · have made : t = ((s.withSlot n slot).appended e).bellCheck.resegment l.number :=
      (s.mapIntake_appendComposed kind advance underline).symm
    have point : ((s.withSlot n slot).appended e).typingPoint = s.typingPoint + advance := by
      rw [State.appended_eq _ live]
      show endOf l.start ((l.entries ++ [e]).filter Entry.live) = _
      rw [Line.live_append_live _ live, endOf, List.getLast?_concat]
      rfl
    rw [made, State.bellCheck_eq, point, State.appended_eq _ live]
    rfl

end Sys2Proof.Machine

namespace Sys2Proof.Machine

theorem State.withSlot_job (s : State) (n m : SourceNo) (x : Option HeldBlock) :
    ((s.withSlot n x).intake.src m).job = (s.intake.src m).job := by
  cases n <;> cases m <;> rfl

/-- BOLD or UNDERLINE of the job is turned over, and the block stands at the next character (R44). -/
theorem State.toggle_consumed {s : State} {n : SourceNo} {slot : Option HeldBlock}
    {r : SourceIntake} {code : Nat} (ho : s.intake.owner = ownerOf n) (f : SourceIntake → SourceIntake) :
    (.next (((textToggle f r code s).map fun t => t.withSlot n slot).getD s) :
      Host.Outcome State Fault Refusal) = .next { s with
        intake := s.intake.mapSrc n fun r => { f r with slot := slot } } := by
  simp only [textToggle, Option.map_some, Option.getD_some, State.mapOwnerSource_owned ho, State.withSlot,
    State.mapIntake, Intake.mapSrc_mapSrc]
  rfl

/-- Settles O39: a text character waits, is appended, or wraps or breaks the line as `composeText` has it,
whatever stands in the slot; the last one of a block is then an end of the job. -/
theorem textCharacters : Obligations.TextCharacters := by
  refine ⟨?_, ?_, ?_⟩
  · intro s n h code f due wheel inside r l p limit slot passed possible stopFirst commits left
      justified opens appends breaks runs moves
    have opened {i : Instr} {t : State} {committed begins : List Entry} {next : Nat}
        (run : exec i s = .next (t.withSlot n slot)) (o : Opens s t committed begins next) :
        opens i committed begins next := by
      exact ⟨t.withSlot n slot, run,
        congrArg (fun i : Intake => i.mapSrc n fun r => { r with slot := slot }) o.intake,
        o.number, o.owner, o.start, o.offset, o.shapes, o.entries, o.nextId, o.cursor, o.window,
        o.feeds, fun _ => o.newest, o.words, o.isOn, o.silence, o.hold, o.actions, o.corr, o.marginRelease,
        o.tabs⟩
    have appended {i : Instr} {kind : EntryKind} {advance : Nat}
        (run : s.Composes n slot i kind advance r.underline) : appends i kind advance := by
      refine ⟨fun fits room => ?_, fun full waits => ?_⟩
      · refine ⟨(s.appendComposed kind advance r.underline).withSlot n slot, ?_,
          s.appendComposed_text n slot kind advance r.underline⟩
        rw [run, State.composeText_fits fits room]
        rfl
      · rw [run, State.composeText_waits full waits]
        rfl
    have broken {i : Instr} {kind : EntryKind} {advance first : Nat}
        (run : exec i s = .next ((s.breakWith kind advance r.underline).withSlot n slot))
        (plain : kind ≠ .tab false → first = advance)
        (tab : kind = .tab false → holdTabAdvance s.esc.tabs s.wheel.mounted s.esc.left = some first) :
        breaks i kind first := opened run (s.breakWith_opens r.underline plain tab)
    have shown (remaining : List Entry) : s.justified remaining = justified remaining := by
      simp only [State.justified, wheel, justified, l]
    have moved {i : Instr} {kind : EntryKind} {advance first : Nat}
        (run : s.Composes n slot i kind advance r.underline) (kept : kind.isChar = false)
        (plain : kind ≠ .tab false → first = advance)
        (tab : kind = .tab false → holdTabAdvance s.esc.tabs s.wheel.mounted s.esc.left = some first) :
        moves i kind advance first := by
      refine ⟨appended run, fun goes fits full => broken ?_ plain tab, fun goes passes => ?_⟩
      · rw [run, State.composeText_noPlace goes fits full]
        rfl
      · rw [← shown]
        refine opened ?_ s.wrapEmpty_opens
        rw [run, State.composeText_drops goes passes kept]
        rfl
    have printed (h32 : 32 ≤ code) (h159 : code ≤ 159) {kind : EntryKind} {advance : Nat}
        (effect : textCharacter r code s = s.composeText kind advance r.underline) :
        s.Composes n slot .textCharacter kind advance r.underline := by
      have row : (!isTextFunction code) = true := by
        simp only [isTextFunction, Bool.not_eq_true', Bool.or_eq_false_iff, beq_eq_false_iff_ne]
        omega
      exact (due.consumes inside rfl row).trans (by rw [effect])
    have read (h32 : 32 ≤ code) (h159 : code ≤ 159) : textCharacter r code s =
        match f.width code with
        | some w => s.composeText (.char code f r.bold) w r.underline
        | none => s.composeText .space f.spaceWidth r.underline := by
      simp only [textCharacter, wheel]
      exact if_neg (by omega)
    refine ⟨fun hc => ?_, fun hc => ?_, fun hc => ?_, fun h32 h159 w hw => ?_, fun h32 h159 hw => ?_,
      fun hc => ?_, fun hc d first hd hfirst => ?_, fun hc => ⟨fun waits => ?_, fun goes => ?_⟩⟩
    · subst hc
      exact (due.consumes inside rfl rfl).trans
        (State.toggle_consumed due.owns fun r => { r with bold := !r.bold })
    · subst hc
      exact (due.consumes inside rfl rfl).trans
        (State.toggle_consumed due.owns fun r => { r with underline := !r.underline })
    · have row : isTextFunction code = false := by
        simp only [isTextFunction, Bool.or_eq_false_iff, beq_eq_false_iff_ne]
        omega
      exact (due.skips row (by omega)).trans (congrArg _ (State.textConsumed_more inside s n))
    · have run := printed h32 h159 ((read h32 h159).trans (by rw [hw]))
      refine ⟨appended run, fun goes fits full => broken ?_ (fun _ => rfl) nofun,
        fun goes passes carried => ?_, fun goes passes alone => broken ?_ (fun _ => rfl) nofun⟩
      · rw [run, State.composeText_noPlace goes fits full]
        rfl
      · have carries : s.carriesRun w := carried
        rw [← shown]
        refine opened ?_ (State.wrapWith_opens ((s.canCarry_iff w).2 carries) _ r.underline)
        rw [run, State.composeText_wraps goes passes carries]
        rfl
      · rw [run, State.composeText_breaks goes passes alone]
        rfl
    · exact moved (printed h32 h159 ((read h32 h159).trans (by rw [hw]))) rfl (fun _ => rfl) nofun
    · subst hc
      have effect : textHalfSpace r 8 s = s.composeText .halfSpace f.halfSpaceWidth r.underline := by
        simp only [textHalfSpace, wheel]
      have run : s.Composes n slot .textHalfSpace .halfSpace f.halfSpaceWidth r.underline :=
        (due.consumes inside (act := textHalfSpace) rfl rfl).trans (by rw [effect])
      exact moved run rfl (fun _ => rfl) nofun
    · subst hc
      rw [← wheel] at hd hfirst
      have effect : textTab r 2 s = s.composeText (.tab false) d r.underline := by
        rw [textTab, show holdTabAdvance s.esc.tabs s.wheel.mounted s.typingPoint = some d from hd]
      have run : s.Composes n slot .textTab (.tab false) d r.underline :=
        (due.consumes inside (act := textTab) rfl rfl).trans (by rw [effect])
      exact moved run rfl (fun no => absurd rfl no) fun _ => hfirst
    · subst hc
      refine (due.consumes inside (act := textReturn) rfl rfl).trans ?_
      rw [textReturn, if_pos (s.textCommitWaits_iff.2 waits)]
      rfl
    · subst hc
      have o := s.commit_opens
      have same : SameCommit (s.commit []) (s.returnCommit.withSlot n slot) :=
        ⟨rfl, rfl, rfl, rfl, rfl, rfl⟩
      refine ⟨s.returnCommit.withSlot n slot, ?_,
        congrArg (fun i : Intake => i.mapSrc n fun r => { r with slot := slot }) o.intake, o.number,
        s.commit_entries, o.owner, fun hl => (State.commit_commitsLine hl).of_same same, rfl, o.actions⟩
      refine (due.consumes inside (act := textReturn) rfl rfl).trans ?_
      rw [textReturn, if_neg fun w => s.textCommitWaits_iff.1 w goes]
      rfl
  · intro s t n h code i due last hi longer more run emptied
    obtain ⟨rfl, stays⟩ | ⟨u, rfl, consumed, jobs, supply⟩ := due.last last hi run
    · have slot : ((s.withSlot n (some longer)).intake.src n).slot = some longer := by
        rw [State.withSlot_src]
      exact ⟨.inl slot, fun _ => stays, fun moved => absurd (slot.symm.trans moved) h.longer_ne⟩
    · have slot : ((u.withSlot n (some { longer with next := h.next + 1 })).intake.src n).slot =
        some { longer with next := h.next + 1 } := by rw [State.withSlot_src]
      refine ⟨.inr slot, fun stayed => absurd (slot.symm.trans stayed) h.longer_ne.symm,
        fun _ id k hj => ?_⟩
      have job : (u.intake.src n).job = .opened id k := (jobs n).trans hj
      refine ⟨fun hl => ?_, fun hl only => ?_⟩
      · rw [consumed, State.textConsumed_open last job hl]
        cases n <;> rfl
      · have running : u.stopped = false := by
          rw [State.stopped, supply]
          exact due.running
        have ends := State.endJob_eq_jobClose (s := u.withSlot n none) (n := n) running ?_ id k
        · rw [consumed, State.textConsumed_ends last job hl, ← ends]
          cases n <;> rfl
        · intro m a b
          rw [State.withSlot_job, jobs m]
          exact only m a b
  · intro s n h id k due last hj live closed
    have consumed := due.skips rfl (.inl (by decide))
    have ends (hl : h.block.last = true) : exec .textCharacter s =
        .next ((s.withSlot n none).endJob n id k) :=
      consumed.trans (congrArg _ (State.textConsumed_ends last hj hl))
    have owner : (s.withSlot n none).intake.owner = ownerOf n := (Intake.mapSrc_owner ..).trans due.owns
    have job (hc : live = [] ∨ s.lineFeeding = false) :=
      endJob_ends (s := s) (v := s.withSlot n none) (id := id) (last := k) ((CommitsAlike.refl s).mapIntake _)
        (Intake.mapSrc_keys ..) owner (by rw [State.withSlot_src]) hc
    rw [State.withSlot_src] at job
    refine ⟨fun hl => ?_, fun hl he => ?_, fun hl he hf => ?_, fun hl he hf hr => ?_⟩
    · exact consumed.trans (congrArg _ (State.textConsumed_open last hj hl))
    · have ended := job (.inl he)
      exact ⟨_, ends hl, ended.record, ended.owner, ended.kept he, State.endJob_seq owner he id k⟩
    · rw [ends hl, State.endJob_waits owner he hf]
      cases n <;> rfl
    · have ended := job (.inr hf)
      exact ⟨_, ends hl, ended.record, ended.owner, ended.commits he hr⟩

end Sys2Proof.Machine

namespace Sys2Proof.Machine

/-! ### The hammer pulse (R123) -/

theorem foldl_mul_eq (base : Nat) (percents : List Nat) :
    percents.foldl (· * ·) base = base * percents.prod := by
  induction percents generalizing base with
  | nil => simp
  | cons p ps ih => rw [List.foldl_cons, ih, List.prod_cons, Nat.mul_assoc]

/-- The multiple of 5 that a pulse is rounded to, halves up (R123). -/
theorem pulseOf_rounds (base : Nat) (percents : List Nat) : ∃ m,
    pulseOf base percents = min 200 (max 40 (5 * m)) ∧
    10 * m * 100 ^ percents.length ≤ 2 * (base * percents.prod) + 5 * 100 ^ percents.length ∧
    2 * (base * percents.prod) < 10 * m * 100 ^ percents.length + 5 * 100 ^ percents.length := by
  unfold pulseOf
  rw [foldl_mul_eq]
  have unit : 0 < 100 ^ percents.length := Nat.pow_pos (by decide)
  generalize base * percents.prod = p, 100 ^ percents.length = u at unit ⊢
  refine ⟨(2 * p + 5 * u) / (10 * u), by rw [Nat.mul_comm 5], ?_⟩
  have quotient := Nat.div_add_mod (2 * p + 5 * u) (10 * u)
  have remainder := Nat.mod_lt (2 * p + 5 * u) (by omega : 10 * u > 0)
  generalize (2 * p + 5 * u) / (10 * u) = m at quotient ⊢
  have regroup : 10 * u * m = 10 * m * u := by ring
  omega

theorem basePulse_eq (c : Nat) : basePulse c =
    if c = 1 then 60 else if c = 2 then 85 else if c = 3 then 110 else 135 := by
  unfold basePulse
  split <;> simp_all

theorem impressionPercent_eq (n : Nat) : impressionPercent n =
    if n = 1 then 85 else if n = 2 then 100 else 120 := by
  unfold impressionPercent
  split <;> simp_all

theorem ribbonPercent_eq (r : RibbonKind) : ribbonPercent r = if r = .film then 90 else 100 := by
  cases r <;> rfl

/-! ### The petal of a code (R49 to R51) -/

/-- The code whose charset-1 petal a code takes on a wheel of the family (R50, R51). -/
def Family.slotCode (f : Family) (code : Nat) : Nat :=
  if f.charset2 then (replacedCode code).getD code else code

theorem Family.petal_eq (f : Family) (code : Nat) : f.petal code =
    if f.carries code then petalMap.idxOf? (f.slotCode code) else none := rfl

/-- The petals hold the codes of charset 1 and no others (R51). -/
theorem mem_petalMap {code : Nat} (h : inCharset1 code = true) : code ∈ petalMap := by
  have small : code < 130 := by
    simp only [inCharset1, Bool.or_eq_true, Bool.and_eq_true, decide_eq_true_eq, beq_iff_eq] at h
    omega
  have all : ∀ c < 130, inCharset1 c = true → c ∈ petalMap := by decide
  exact all code small h

/-- The national letters take the places of the codes given up, in their order (R50). -/
theorem replacedCode_eq (code : Nat) :
    replacedCode code = if code < 130 then none else givenUp[code - 130]? := by
  by_cases national : 130 ≤ code ∧ code ≤ 139
  · obtain ⟨low, high⟩ := national
    interval_cases code <;> rfl
  · have none : replacedCode code = none := by
      unfold replacedCode
      split <;> first | rfl | omega
    rw [none]
    split
    · rfl
    · exact (List.getElem?_eq_none (show givenUp.length ≤ code - 130 from by simp [givenUp]; omega)).symm

/-- A national letter of charset 2 replaces a code given up, and no other code does (R50). -/
theorem replacedCode_cases (code : Nat) :
    (130 ≤ code ∧ code ≤ 139 ∧ ∃ old ∈ givenUp, replacedCode code = some old) ∨
      ((code < 130 ∨ 139 < code) ∧ replacedCode code = none) := by
  rw [replacedCode_eq]
  by_cases low : code < 130
  · exact .inr ⟨.inl low, if_pos low⟩
  · rw [if_neg low]
    have count : givenUp.length = 10 := rfl
    by_cases high : code ≤ 139
    · have inside : code - 130 < givenUp.length := by omega
      exact .inl ⟨by omega, high, _, List.getElem_mem inside, List.getElem?_eq_getElem inside⟩
    · exact .inr ⟨.inr (by omega), List.getElem?_eq_none (by omega)⟩

theorem replacedCode_injective {c d old : Nat} (hc : replacedCode c = some old)
    (hd : replacedCode d = some old) : c = d := by
  have distinct : givenUp.Nodup := by decide
  rw [replacedCode_eq] at hc hd
  split at hc
  · cases hc
  split at hd
  · cases hd
  have inside := (List.getElem?_eq_some_iff.1 hc).1
  have place := (List.getElem?_inj inside distinct).1 (hc.trans hd.symm)
  omega

theorem givenUp_inCharset1 : ∀ code ∈ givenUp, inCharset1 code = true := by decide

/-- A code of charset 2 is a national letter in the place of a code given up, or a code of charset 1 that
is not given up (R50). -/
theorem inCharset2_cases {code : Nat} (h : inCharset2 code = true) :
    (∃ old ∈ givenUp, replacedCode code = some old) ∨
      (inCharset1 code = true ∧ code ∉ givenUp ∧ replacedCode code = none) := by
  rcases replacedCode_cases code with ⟨-, -, replaced⟩ | ⟨outside, none⟩
  · exact .inl replaced
  · simp only [inCharset2, Bool.or_eq_true, Bool.and_eq_true, decide_eq_true_eq, Bool.not_eq_true',
      List.contains_eq_mem, decide_eq_false_iff_not] at h
    obtain national | ⟨plain, kept⟩ := h
    · omega
    · exact .inr ⟨plain, kept, none⟩

theorem Family.slotCode_mem {f : Family} {code : Nat} (h : f.carries code = true) :
    f.slotCode code ∈ petalMap := by
  refine mem_petalMap ?_
  unfold Family.carries at h
  unfold Family.slotCode
  split at h <;> rename_i charset
  · rw [if_pos charset]
    obtain ⟨old, up, e⟩ | ⟨plain, -, e⟩ := inCharset2_cases h <;> rw [e]
    · exact givenUp_inCharset1 old up
    · exact plain
  · rwa [if_neg charset]

theorem Family.slotCode_injective {f : Family} {c d : Nat} (hc : f.carries c = true)
    (hd : f.carries d = true) (h : f.slotCode c = f.slotCode d) : c = d := by
  unfold Family.carries at hc hd
  unfold Family.slotCode at h
  split at hc <;> rename_i charset
  · simp only [if_pos charset] at hd h
    obtain ⟨x, hx, ex⟩ | ⟨-, keptC, ex⟩ := inCharset2_cases hc <;>
      obtain ⟨y, hy, ey⟩ | ⟨-, keptD, ey⟩ := inCharset2_cases hd <;>
      simp only [ex, ey, Option.getD_some, Option.getD_none] at h <;> subst h
    · exact replacedCode_injective ex ey
    · exact absurd hx keptD
    · exact absurd hy keptC
    · rfl
  · simpa only [if_neg charset] using h

theorem Family.petal_eq_some {f : Family} {code p : Nat} (h : f.petal code = some p) :
    f.carries code = true ∧ petalMap[p]? = some (f.slotCode code) := by
  rw [f.petal_eq] at h
  split at h <;> rename_i carried
  · refine ⟨carried, ?_⟩
    obtain ⟨inside, found, -⟩ := List.idxOf?_eq_some_iff.1 h
    rw [List.getElem?_eq_getElem inside, found]
  · cases h

/-- Each code that a wheel carries stands on one of its 96 petals (R51). -/
theorem Family.exists_petal {f : Family} {code : Nat} (h : f.carries code = true) :
    ∃ p, p < 96 ∧ f.petal code = some p := by
  rw [f.petal_eq, if_pos h]
  cases found : petalMap.idxOf? (f.slotCode code) with
  | none => exact absurd (Family.slotCode_mem h) (List.idxOf?_eq_none_iff.1 found)
  | some p =>
    obtain ⟨inside, -⟩ := List.idxOf?_eq_some_iff.1 found
    exact ⟨p, inside, rfl⟩

/-- Settles O44: the pulse is a rounded quotient, and a petal names its code. -/
theorem pulseAndPetal : Obligations.PulseAndPetal := by
  refine ⟨pulseOf_rounds, fun impression ribbon b _ _ => ?_,
    fun f code h => Family.exists_petal h, fun f c d p hc hd => ?_⟩
  · intro base percent
    constructor
    · rw [strikePulse, basePulse_eq, impressionPercent_eq, ribbonPercent_eq]
    · rw [liftPulse, basePulse_eq, impressionPercent_eq]
  · obtain ⟨carriesC, codeC⟩ := Family.petal_eq_some hc
    obtain ⟨carriesD, codeD⟩ := Family.petal_eq_some hd
    exact Family.slotCode_injective carriesC carriesD (Option.some.inj (codeC.symm.trans codeD))

end Sys2Proof.Machine

namespace Sys2Proof.Machine

/-! ### The end of a homing and of a WHEEL-READ (R46, R125, R129, R201, R202) -/

/-- What the mounted family is by the wheel code: none for 0 and 7 (R46). -/
theorem Family.ofNumber_spec (code : Fin 8) :
    (code.val = 0 ∨ code.val = 7 → Family.ofNumber code = none) ∧
      (1 ≤ code.val → code.val ≤ 6 → (Family.ofNumber code).map Family.number = some code.val) := by
  revert code
  decide

theorem State.endWake_spec (s : State) : s.endWake = { s with
    bus := { s.bus with queue := s.endWake.bus.queue, heldReport := s.endWake.bus.heldReport }
    supply := s.endWake.supply } := by
  unfold State.endWake
  split
  · rw [State.setPower, State.reportIfChanged_spec]
    rfl
  · rfl

theorem State.endWake_supply {s : State} (h : s.supply.power = .standby) :
    s.endWake.supply = { s.supply with power := .run, wakeMark := false } := by
  rw [State.endWake, if_pos h, State.setPower, State.reportIfChanged_spec]
  rfl

/-- The MOVE of a wake joins the print queue, or nothing does (R129; log 39). -/
theorem State.wakeMove_spec (s : State) :
    s.wakeMove = { s with seq := { s.seq with queue := s.wakeMove.seq.queue } } ∧
      s.seq.queue <+: s.wakeMove.seq.queue := by
  unfold State.wakeMove
  split
  · exact ⟨rfl, List.prefix_refl _⟩
  · exact ⟨rfl, List.prefix_append _ _⟩

theorem State.wakeMove_empty {s : State} (h : s.seq.queue = []) :
    s.wakeMove.seq.queue = [.move s.cursorPoint] := by
  have free : s.freePlaces ≠ 0 := by simp [State.freePlaces, h, Config.printCapacity]
  rw [State.wakeMove, if_neg free]
  exact congrArg (· ++ [Action.move s.cursorPoint]) h

/-- What a completed homing tells Supply and Standby changes: the supply, the panel, the print queue and
REPORTs. -/
theorem State.homed_spec (s : State) (why : HomingWhy) : s.homed why = { s with
    bus := { s.bus with
      queue := (s.homed why).bus.queue, heldReport := (s.homed why).bus.heldReport }
    seq := { s.seq with queue := (s.homed why).seq.queue }
    supply := (s.homed why).supply
    disp := { s.disp with
      panel := (s.homed why).disp.panel, lit := (s.homed why).disp.lit } } := by
  cases why with
  | start =>
    unfold State.homed
    rw [State.leaveStarting_spec]
    rfl
  | wake =>
    unfold State.homed
    dsimp only
    rw [s.wakeMove.endWake_spec]
    generalize s.wakeMove.endWake = t
    rw [s.wakeMove_spec.1]
  | recovery => rfl
  | clear => rfl

theorem State.homed_actions (s : State) (why : HomingWhy) :
    s.seq.queue <+: (s.homed why).seq.queue := by
  cases why with
  | start =>
    unfold State.homed
    rw [State.leaveStarting_spec]
    exact List.prefix_refl _
  | wake =>
    unfold State.homed
    rw [State.endWake_spec]
    exact s.wakeMove_spec.2
  | recovery => exact List.prefix_refl _
  | clear => exact List.prefix_refl _

/-- A completed homing of a start is noted, and ends STARTING when the roll call is over (R202). -/
theorem State.homed_start (s : State) : (s.homed .start).supply.homingDone = true ∧
    (s.supply.rollCallDone = true → s.supply.power = .starting →
      (s.homed .start).supply.power = .run ∧ (s.homed .start).disp.panel = .on) := by
  let v := s.mapSupply fun u => { u with homingDone := true }
  show v.leaveStarting.supply.homingDone = true ∧ _
  refine ⟨by rw [v.leaveStarting_spec]; rfl, fun called starting => ?_⟩
  show v.leaveStarting.supply.power = .run ∧ v.leaveStarting.disp.panel = .on
  rw [State.leaveStarting_starting (s := v) called rfl starting]
  refine ⟨?_, State.panelOn_panel _⟩
  rw [State.panelOn_supply, State.setPower, State.reportIfChanged_spec]
  rfl

/-- The state in which a completed homing has brought the mechanism home, and nothing is told yet. -/
def State.atHome (s : State) (code : Fin 8) : State :=
  (s.wheelRead code).mapSeq fun q => { q with carriage := 0, retry := q.retry && q.headStarted }

theorem exec_homingComplete {s : State} {why : HomingWhy} (hr : s.stopped = false)
    (hw : s.seq.work = some (.homing why)) (code : Fin 8) :
    exec (.homingComplete code) s = .next (((s.atHome code).homed why).settle) := by
  show execHomingComplete code s = _
  rw [execHomingComplete, State.whenRunning_eq hr]
  simp only [hw]
  rfl

theorem exec_wheelReadComplete {s : State} (hr : s.stopped = false)
    (hw : s.seq.work = some .wheelRead) (code : Fin 8) :
    exec (.wheelReadComplete code) s = .next ((s.wheelRead code).settle) := by
  show execWheelReadComplete code s = _
  rw [execWheelReadComplete, State.whenRunning_eq hr]
  simp only [hw]

/-- What the settling leaves of the Print Sequencer (R102, R117). -/
theorem State.settle_seq (s : State) : s.settle.seq = { s.seq with
    queue := s.settle.seq.queue, mech := s.settle.seq.mech, work := s.settle.seq.work
    headStarted := s.settle.seq.headStarted } := by
  rw [s.settle_work.rest]

/-- Settles O47: what is told and the settling leave the wheel, the carriage and the petal as the homing or
the WHEEL-READ has set them. -/
theorem homingAndWheelRead : Obligations.HomingAndWheelRead := by
  intro s code hr mounted same
  have settled {u : State} (wheel : u.wheel = { s.wheel with mounted := Family.ofNumber code })
      (h : same u) : mounted u.settle ∧ same u.settle := by
    obtain ⟨ribbon, corr, esc, intake, spell, store, actions, paper, petal, read⟩ := h
    have family : u.settle.wheel.mounted = Family.ofNumber code := by rw [u.settle_wheel, wheel]
    have seq {α : Type} (f : Sequencer → α) := congrArg f u.settle_seq
    refine ⟨?_, (congrArg WheelUnit.ribbon u.settle_wheel).trans ribbon, u.settle_corr.trans corr,
      u.settle_esc.trans esc, u.settle_intake.trans intake, u.settle_spell.trans spell,
      u.settle_store.trans store, actions.trans u.settle_work.actions,
      (seq Sequencer.paperCount).trans paper, (seq Sequencer.petal).trans petal,
      (seq Sequencer.readDue).trans read⟩
    simp only [mounted, family]
    exact Family.ofNumber_spec code
  refine ⟨fun why hw => ?_, fun hw => ?_⟩
  · let v := s.atHome code
    let u := v.homed why
    have told {α : Type} (f : State → α) := congrArg f (v.homed_spec why)
    have seq {α : Type} (f : Sequencer → α) := congrArg f u.settle_seq
    obtain ⟨family, kept⟩ := settled (u := u) (told State.wheel)
      ⟨told fun t => t.wheel.ribbon, told State.corr, told State.esc, told State.intake,
        told State.spell, told State.store, v.homed_actions why, told fun t => t.seq.paperCount,
        told fun t => t.seq.petal, told fun t => t.seq.readDue⟩
    refine ⟨u.settle, exec_homingComplete hr hw code, family, kept,
      (seq Sequencer.carriage).trans (told fun t => t.seq.carriage),
      (seq Sequencer.retry).trans (told fun t => t.seq.retry), ?_, ?_, ?_⟩
    · rintro rfl
      rw [u.settle_supply, u.settle_work.rest]
      exact v.homed_start
    · rintro rfl standby
      refine ⟨u.settle_supply.trans ?_, fun empty => ?_⟩
      · exact (State.endWake_supply (s := v.wakeMove) (by rw [v.wakeMove_spec.1]; exact standby)).trans
          (by rw [v.wakeMove_spec.1]; rfl)
      · refine List.IsPrefix.trans ?_ u.settle_work.actions
        show _ <+: v.wakeMove.endWake.seq.queue
        rw [State.endWake_spec]
        show _ <+: v.wakeMove.seq.queue
        rw [State.wakeMove_empty (s := v) empty]
        exact List.prefix_refl _
    · rintro (rfl | rfl)
      · exact u.settle_supply
      · exact u.settle_supply
  · let u := s.wheelRead code
    have seq {α : Type} (f : Sequencer → α) := congrArg f u.settle_seq
    obtain ⟨family, kept⟩ := settled (u := u) rfl
      ⟨rfl, rfl, rfl, rfl, rfl, rfl, List.prefix_refl _, rfl, rfl, rfl⟩
    exact ⟨u.settle, exec_wheelReadComplete hr hw code, family, kept, seq Sequencer.carriage,
      seq Sequencer.retry, u.settle_supply⟩

end Sys2Proof.Machine

namespace Sys2Proof.Machine

/-! ### The key queue after a key -/

@[simp] theorem State.arbitrate_keys (s : State) : s.arbitrate.intake.keys = s.intake.keys := by
  rw [s.arbitrate_spec]

@[simp] theorem State.lapseLost_keys (s : State) : s.lapseLost.intake.keys = s.intake.keys := by
  simp only [State.lapseLost]
  (repeat' split) <;> simp

@[simp] theorem State.afterKey_keys (s : State) (committed : Bool) :
    (s.afterKey committed).intake.keys = s.intake.keys := by
  unfold State.afterKey
  (repeat' split) <;> simp

/-! ### The keys that make entries (R57, R58, R64, R67) -/

section

variable {s : State} {k : Keystroke} {rest : List Keystroke}

/-- A key taken without a commit leaves its effect, the ownership examined and the keys behind it. -/
theorem leaves_keys_of_taken {i : Instr} {o : KeyOutcome} (h : s.HeadKey k rest)
    (run : exec i s = .next (s.carryKey k o)) {u : State} (ho : o = .take u false)
    (supply : u.supply = s.supply) (keys : u.intake.keys = rest) :
    ∃ t, exec i s = .next t ∧ KeyLeaves u t ∧ t.intake.keys = rest := by
  subst ho
  refine ⟨_, run, State.afterKey_leaves ?_, (u.afterKey_keys false).trans keys⟩
  rw [State.stopped, supply]
  exact h.running

/-- A key that waits leaves the state (R29). -/
theorem stays_of_wait {i : Instr} {o : KeyOutcome} (run : exec i s = .next (s.carryKey k o))
    (ho : o = .wait) : exec i s = .next s := by
  rw [run, ho]
  rfl

theorem exec_printingCharacter (h : s.KeyDue k rest) (ho : s.intake.owner = .keyboard)
    (low : 33 ≤ k.code) (high : k.code ≤ 159) :
    exec .printingCharacter s = .next (s.carryKey k (actCharacter k (s.withoutKey rest))) :=
  congrArg _ (State.examineKey_due h (by simp [isCharCode, low, high]) actCharacter fun _ => by simp [ho])

theorem exec_space (h : s.KeyDue k rest) (ho : s.intake.owner = .keyboard) (hk : k.code = 32) :
    exec .space s = .next (s.carryKey k (actSpace k (s.withoutKey rest))) :=
  congrArg _ (State.examineKey_due h (by simp [hk]) actSpace fun _ => by simp [ho])

theorem exec_halfSpace (h : s.KeyDue k rest) (ho : s.intake.owner = .keyboard) (hk : k.code = 8) :
    exec .halfSpace s = .next (s.carryKey k (actHalfSpace k (s.withoutKey rest))) :=
  congrArg _ (State.examineKey_due h (by simp [hk]) actHalfSpace fun _ => by simp [ho])

theorem exec_tab (h : s.KeyDue k rest) (ho : s.intake.owner = .keyboard) (hk : k.code = 2) :
    exec .tab s = .next (s.carryKey k (placeTab (s.withoutKey rest))) :=
  congrArg _ (State.examineKey_due h (by simp [hk]) (fun _ s => placeTab s) fun _ => by simp [ho])

end

section

variable {s : State} {f : Family}

/-- A character of the mounted wheel goes where R94 says (R57). -/
theorem actCharacter_placed {k : Keystroke} {w : Nat} (wheel : s.wheel.mounted = some f)
    (width : f.width k.code = some w) :
    actCharacter k s = placeKey (.char k.code f s.seq.bold) w s := by
  simp only [actCharacter, wheelCheckChar, wheel, width]

theorem actSpace_placed (k : Keystroke) (wheel : s.wheel.mounted = some f) :
    actSpace k s = placeKey .space f.spaceWidth s := by
  simp only [actSpace, wheelCheckSpace, wheel]

theorem actHalfSpace_placed (k : Keystroke) (wheel : s.wheel.mounted = some f) :
    actHalfSpace k s = placeKey .halfSpace f.halfSpaceWidth s := by
  simp only [actHalfSpace, wheelCheckHalf, wheel]

theorem actCharacter_noWheel (k : Keystroke) (wheel : s.wheel.mounted = none) :
    actCharacter k s = .refuse (some .noWheel) := by
  simp only [actCharacter, wheelCheckChar, wheel]

theorem actSpace_noWheel (k : Keystroke) (wheel : s.wheel.mounted = none) :
    actSpace k s = .refuse (some .noWheel) := by
  simp only [actSpace, wheelCheckSpace, wheel]

theorem actHalfSpace_noWheel (k : Keystroke) (wheel : s.wheel.mounted = none) :
    actHalfSpace k s = .refuse (some .noWheel) := by
  simp only [actHalfSpace, wheelCheckHalf, wheel]

theorem actCharacter_notOnWheel {k : Keystroke} (wheel : s.wheel.mounted = some f)
    (missing : f.carries k.code = false) : actCharacter k s = .refuse (some .notOnWheel) := by
  have width : f.width k.code = none := by simp [Family.width, missing]
  simp only [actCharacter, wheelCheckChar, wheel, width]

end

section

variable {s : State} {k : Keystroke} {rest : List Keystroke} {f : Family}

/-- A character key that passes the wheel check goes where R94 says. -/
theorem exec_character_placed (h : s.KeyDue k rest) (ho : s.intake.owner = .keyboard)
    (low : 33 ≤ k.code) (high : k.code ≤ 159) {w : Nat} (wheel : s.wheel.mounted = some f)
    (width : f.width k.code = some w) : exec .printingCharacter s =
      .next (s.carryKey k (placeKey (.char k.code f s.seq.bold) w (s.withoutKey rest))) := by
  rw [exec_printingCharacter h ho low high, actCharacter_placed (s := s.withoutKey rest) wheel width]
  rfl

theorem exec_space_placed (h : s.KeyDue k rest) (ho : s.intake.owner = .keyboard) (hk : k.code = 32)
    (wheel : s.wheel.mounted = some f) : exec .space s =
      .next (s.carryKey k (placeKey .space f.spaceWidth (s.withoutKey rest))) := by
  rw [exec_space h ho hk, actSpace_placed (s := s.withoutKey rest) k wheel]

theorem exec_halfSpace_placed (h : s.KeyDue k rest) (ho : s.intake.owner = .keyboard) (hk : k.code = 8)
    (wheel : s.wheel.mounted = some f) : exec .halfSpace s =
      .next (s.carryKey k (placeKey .halfSpace f.halfSpaceWidth (s.withoutKey rest))) := by
  rw [exec_halfSpace h ho hk, actHalfSpace_placed (s := s.withoutKey rest) k wheel]

end

/-! ### Where a key's entry goes (R94) -/

theorem LineStore.displayed_current {ls : LineStore} (h : ls.viewDepth = 0) :
    ls.displayed = ls.current := by
  simp [LineStore.displayed, LineStore.ringAt, h]

theorem Entry.onPaper_iff (e : Entry) :
    e.onPaper = true ↔ e.strike = some .queued ∨ e.strike = some .struck := by
  simp [Entry.onPaper]

section

variable {s : State}

theorem State.place_view (view : s.lines.viewDepth ≠ 0) : s.place = .filled := by
  simp [State.place, view]

theorem State.place_end_direct (depth : s.lines.viewDepth = 0)
    (atEnd : s.lines.current.live.length ≤ s.lines.cursor)
    (mode : s.lines.current.mode = .direct) : s.place = .appendedDirect := by
  simp [State.place, depth, atEnd, mode]

theorem State.place_end_hold (depth : s.lines.viewDepth = 0)
    (atEnd : s.lines.current.live.length ≤ s.lines.cursor)
    (mode : s.lines.current.mode = .hold) : s.place = .appendedHold := by
  simp [State.place, depth, atEnd, mode]

theorem State.place_inside_direct (depth : s.lines.viewDepth = 0)
    (inside : s.lines.cursor < s.lines.current.live.length)
    (mode : s.lines.current.mode = .direct) : s.place = .filled := by
  simp [State.place, depth, Nat.not_le.2 inside, mode]

theorem State.place_inside_hold (depth : s.lines.viewDepth = 0)
    (inside : s.lines.cursor < s.lines.current.live.length) (mode : s.lines.current.mode = .hold) :
    s.place = if (s.lines.current.live.drop s.lines.cursor).any Entry.onPaper then .filled
      else .inserted := by
  simp [State.place, depth, Nat.not_le.2 inside, mode]

/-- An inserted entry goes into the current line, before one of its live entries. -/
theorem State.place_inserted (h : s.place = .inserted) :
    s.lines.viewDepth = 0 ∧ s.lines.cursor < s.lines.current.live.length := by
  have depth : s.lines.viewDepth = 0 := by
    by_contra view
    simp [State.place_view view] at h
  refine ⟨depth, ?_⟩
  by_contra outside
  have atEnd := Nat.not_lt.1 outside
  cases mode : s.lines.current.mode with
  | direct => simp [State.place_end_direct depth atEnd mode] at h
  | hold => simp [State.place_end_hold depth atEnd mode] at h

end

/-- Behind the last live entry the cursor point is the typing point (R63). -/
theorem State.cursorPoint_end {s : State} (depth : s.lines.viewDepth = 0)
    (atEnd : s.lines.current.live.length ≤ s.lines.cursor) : s.cursorPoint = s.typingPoint := by
  simp [State.cursorPoint, State.typingPoint, LineStore.displayed_current depth, Line.point,
    Line.endPoint, List.take_of_length_le atEnd]

/-! ### Tab stops (R67, R73) -/

theorem tabDistance_eq_none {tabs : List Nat} {p : Nat} :
    tabDistance tabs p = none ↔ ∀ x ∈ tabs, x ≤ p := by
  simp [tabDistance]

theorem tabDistance_stop {before after : List Nat} {x p : Nat} (passed : ∀ y ∈ before, y ≤ p)
    (beyond : p < x) : tabDistance (before ++ x :: after) p = some (x - p) := by
  have stop : (before ++ x :: after).find? (fun t => decide (p < t)) = some x := by
    rw [List.find?_append, List.find?_eq_none.2 fun y hy => by simpa using passed y hy]
    simp [beyond]
  rw [tabDistance, stop]
  rfl

/-- A TAB in a HOLD line needs a wheel where no stop is beyond it (R58, R73). -/
theorem holdTabAdvance_eq_none {tabs : List Nat} {mounted : Option Family} {p : Nat} :
    holdTabAdvance tabs mounted p = none ↔ mounted = none ∧ ∀ x ∈ tabs, x ≤ p := by
  rw [← tabDistance_eq_none]
  unfold holdTabAdvance
  cases tabDistance tabs p <;> simp

/-- A TAB in a HOLD line that needs a wheel is refused without one, wherever it would go (R58). -/
theorem placeTab_noWheel {s : State} (depth : s.lines.viewDepth = 0)
    (mode : s.lines.current.mode = .hold)
    (need : holdTabAdvance s.esc.tabs s.wheel.mounted s.cursorPoint = none) :
    placeTab s = .refuse (some .noWheel) := by
  by_cases inside : s.lines.cursor < s.lines.current.live.length
  · have place := State.place_inside_hold depth inside mode
    by_cases printed : (s.lines.current.live.drop s.lines.cursor).any Entry.onPaper = true
    · rw [if_pos printed] at place
      simp only [placeTab, place, depth, mode, need, and_self, if_true]
    · rw [if_neg printed] at place
      simp only [placeTab, place, need]
  · have atEnd := Nat.not_lt.1 inside
    rw [State.cursorPoint_end depth atEnd] at need
    simp only [placeTab, State.place_end_hold depth atEnd mode, need]

/-- Settles O29: the wheel check stands before the placement of every key that it concerns. -/
theorem wheelCheckRefuses : Obligations.WheelCheckRefuses := by
  intro s k rest h ho refused
  have head := h.toHeadKey
  refine ⟨fun wheel => ⟨fun low high => ?_, fun hk => ?_, fun hk => ?_, fun hk depth mode stops => ?_⟩,
    fun f wheel low high missing => ?_⟩
  · exact leaves_of_refused head (exec_printingCharacter h ho low high) (actCharacter_noWheel k wheel)
  · exact leaves_of_refused head (exec_space h ho hk) (actSpace_noWheel k wheel)
  · exact leaves_of_refused head (exec_halfSpace h ho hk) (actHalfSpace_noWheel k wheel)
  · have need : holdTabAdvance s.esc.tabs s.wheel.mounted s.cursorPoint = none :=
      holdTabAdvance_eq_none.2 ⟨wheel, stops⟩
    exact leaves_of_refused head (exec_tab h ho hk)
      (placeTab_noWheel (s := s.withoutKey rest) depth mode need)
  · exact leaves_of_refused head (exec_printingCharacter h ho low high)
      (actCharacter_notOnWheel (s := s.withoutKey rest) wheel missing)

end Sys2Proof.Machine

namespace Sys2Proof.Machine

/-! ### What the feeding leaves of the entries (R90, R102) -/

/-- `fs` are the entries `es`, of which the HELD ones alone may have changed. -/
def HeldOnly (es fs : List Entry) : Prop :=
  ∃ g : Entry → Entry, fs = es.map g ∧ ∀ x, x.strike ≠ some .held → g x = x

theorem HeldOnly.refl (es : List Entry) : HeldOnly es es := ⟨id, es.map_id.symm, fun _ _ => rfl⟩

theorem HeldOnly.trans {es fs gs : List Entry} (h : HeldOnly es fs) (k : HeldOnly fs gs) :
    HeldOnly es gs := by
  obtain ⟨g, rfl, hg⟩ := h
  obtain ⟨f, rfl, hf⟩ := k
  refine ⟨f ∘ g, List.map_map, fun x hx => ?_⟩
  rw [Function.comp_apply, hg x hx, hf x hx]

/-- A last entry that is not HELD stays. -/
theorem HeldOnly.getLast? {es fs : List Entry} (h : HeldOnly es fs) {e : Entry}
    (last : es.getLast? = some e) (printed : e.strike ≠ some .held) : fs.getLast? = some e := by
  obtain ⟨g, rfl, hg⟩ := h
  rw [List.getLast?_map, last, Option.map_some, hg e printed]

theorem State.feedOne_heldOnly (s : State) (m : FeedMark) :
    HeldOnly s.lines.current.entries (s.feedOne m).lines.current.entries := by
  have up (l : Line) (id : Nat) : HeldOnly s.lines.current.entries (s.lines.updateLine l.number fun l' =>
      { l' with entries := l'.entries.map fun x =>
        if x.id = id ∧ x.strike = some .held then s.beginEntry l.number x else x }).current.entries := by
    unfold LineStore.updateLine
    split
    · exact ⟨_, rfl, fun x hx => if_neg fun h => hx h.2⟩
    · exact .refl _
  unfold State.feedOne
  split
  · split <;> exact .refl _
  · split
    · exact .refl _
    · split
      · exact .refl _
      · next l _ _ _ _ =>
        dsimp only
        split <;> exact up l _

theorem State.pumpUpTo_heldOnly (n : Nat) (s : State) :
    HeldOnly s.lines.current.entries (s.pumpUpTo n).lines.current.entries := by
  induction n generalizing s with
  | zero => exact .refl _
  | succ n ih =>
    unfold State.pumpUpTo
    split
    · exact .refl _
    · split
      · exact .refl _
      · exact (s.feedOne_heldOnly _).trans (ih _)

theorem State.settle_heldOnly (s : State) :
    HeldOnly s.lines.current.entries s.settle.lines.current.entries := by
  rw [s.settle_queue.2]
  exact State.pumpUpTo_heldOnly _ s

/-- Segmenting and settling leave a last entry that is not HELD as it is but for its word. -/
theorem State.resegment_settle_last {s : State} {e : Entry}
    (last : s.lines.current.entries.getLast? = some e) (printed : e.strike ≠ some .held) (n : Word) :
    (s.resegment n).settle.lines.current.entries.getLast?.map Entry.bare = some e.bare := by
  have bare : (s.resegment n).lines.current.entries.map Entry.bare =
      s.lines.current.entries.map Entry.bare :=
    congrArg (fun ls : LineStore => ls.current.entries) (s.resegment_only n).lines
  have words := congrArg List.getLast? bare
  rw [List.getLast?_map, List.getLast?_map, last, Option.map_some, Option.map_eq_some_iff] at words
  obtain ⟨x, hx, same⟩ := words
  have strike : x.bare.strike = e.bare.strike := congrArg Entry.strike same
  have stays : x.strike ≠ some .held := fun held => printed (strike.symm.trans held)
  rw [(State.settle_heldOnly _).getLast? hx stays, Option.map_some, same]

/-! ### An entry begun (R90, R114) -/

theorem State.beginEntry_strike (s : State) (n : Word) (e : Entry) :
    (s.beginEntry n e).strike ≠ some .held := by
  unfold State.beginEntry
  split
  · exact nofun
  · next plain =>
    intro held
    simp [held] at plain

theorem State.beginEntry_live (s : State) (n : Word) {e : Entry} (h : e.live = true) :
    (s.beginEntry n e).live = true := by
  unfold State.beginEntry
  split
  · rfl
  · exact h

/-- The entry that a key makes at the end of a DIRECT line (R95). -/
def State.entryBegun (s : State) (kind : EntryKind) (advance : Nat) : Entry :=
  s.beginEntry s.lines.current.number
    (newEntry s.lines.current.nextId kind s.typingPoint advance s.seq.underline)

section

variable (s : State) (kind : EntryKind) (advance : Nat)

theorem State.entryBegun_live : (s.entryBegun kind advance).live = true :=
  s.beginEntry_live _ (newEntry_live _ _ _ _ _)

theorem State.entryBegun_id : (s.entryBegun kind advance).id = s.lines.current.nextId :=
  congrArg Entry.id (s.beginEntry_shape _ _)

theorem State.entryBegun_endPos : (s.entryBegun kind advance).endPos = s.typingPoint + advance :=
  congrArg Entry.endPos (s.beginEntry_shape _ _)

end

/-! ### An entry appended to a DIRECT line (R65, R95) -/

/-- The current line with an entry that is printed at its end: the cursor at the end, and the entry's
actions enqueued, of more than 48 the first 48 with the feeding mark set to the next (R95). -/
def State.printed (s : State) (e : Entry) : State :=
  let l := s.lines.current
  let as := e.actions l.number
  { s with
    lines := { s.lines with
      current := { l with entries := l.entries ++ [e], nextId := l.nextId + 1 }
      cursor := l.live.length + 1
      mark := if 48 < as.length then some ⟨l.number, .action l.nextId 48, none⟩ else s.lines.mark }
    seq := { s.seq with queue := s.seq.queue ++ as.take 48 }
    disp := { s.disp with window := windowFor s.disp.window (l.live.length + 1) } }

theorem State.markRest_eq (s : State) (number : Word) (id count : Nat) : s.markRest number id count =
    s.setMark (if 48 < count then some ⟨number, .action id 48, none⟩ else s.lines.mark) := by
  unfold State.markRest
  simp only [show Config.printCapacity = 48 from rfl]
  split <;> rfl

/-- What an append to a DIRECT line does: the line printed, the bell, the words and the print queue (R95). -/
theorem State.appendPrinted_eq (s : State) {e : Entry} (live : e.live = true)
    (id : e.id = s.lines.current.nextId) : s.appendPrinted e =
      ((s.printed e).bellCheck.resegment s.lines.current.number).settle := by
  have count : ((s.lines.current.entries ++ [e]).filter Entry.live).length =
      s.lines.current.live.length + 1 := by
    rw [Line.live_append_live _ live, List.length_append, List.length_singleton]
  unfold State.appendPrinted State.printed
  dsimp only
  rw [State.markRest_eq, id, ← count]
  rfl

theorem State.printed_typingPoint (s : State) {e : Entry} (live : e.live = true) :
    (s.printed e).typingPoint = e.endPos := by
  show endOf _ ((s.lines.current.entries ++ [e]).filter Entry.live) = _
  rw [Line.live_append_live _ live, endOf, List.getLast?_concat]

/-- The bell mark after a bell check (R65). -/
theorem State.bellCheck_esc (s : State) : s.bellCheck.esc = { s.esc with
    bellRung := s.esc.bellRung || (s.lines.current.owner == .keyboard &&
      decide (s.esc.right < s.typingPoint + 60)) } := by
  rw [s.bellCheck_eq, State.rungAt]
  split
  · next rung =>
    obtain ⟨owner, -, near⟩ := rung
    simp [owner, near]
  · next quiet =>
    refine congrArg (fun b => { s.esc with bellRung := b }) ?_
    cases bell : s.esc.bellRung with
    | true => exact (Bool.true_or _).symm
    | false =>
      rw [Bool.false_or, eq_comm]
      by_contra no
      simp only [Bool.not_eq_false, Bool.and_eq_true, beq_iff_eq, decide_eq_true_eq] at no
      exact quiet ⟨no.1, bell, no.2⟩

/-- What the bell check, the segmentation and the settling of a changed line leave (R65, R102, R108). -/
theorem State.bellCheck_work (s : State) (n : Word) :
    let u := (s.bellCheck.resegment n).settle
    u.lines.layout = s.lines.layout ∧ s.seq.queue <+: u.seq.queue ∧ u.esc = s.bellCheck.esc ∧
      u = { s with
        bus := { s.bus with queue := u.bus.queue, heldReport := u.bus.heldReport }
        lines := u.lines
        seq := { s.seq with
          queue := u.seq.queue, mech := u.seq.mech, work := u.seq.work
          headStarted := u.seq.headStarted }
        spell := { s.spell with pending := u.spell.pending, slots := u.spell.slots }
        disp := { s.disp with standing := { s.disp.standing with
          pause := u.disp.standing.pause, wheel := u.disp.standing.wheel } }
        esc := u.esc, alert := u.alert } := by
  intro u
  obtain ⟨layout, rest, actions, -⟩ : WorkOnly s.bellCheck u := State.resegment_settle_work _ n
  rw [s.bellCheck_lines] at layout
  rw [s.bellCheck_seq] at actions
  have rung := congrArg State.esc rest
  refine ⟨layout, actions, rung, ?_⟩
  clear_value u
  have quiet := s.bellCheck_spec.1
  generalize s.bellCheck = b at quiet rest
  rw [quiet] at rest
  have esc : u.esc = _ := congrArg State.esc rest
  have alert : u.alert = _ := congrArg State.alert rest
  rw [esc, alert]
  exact rest

theorem LineStore.ring_shapes {a b : LineStore} (h : a.layout = b.layout) :
    a.ring.map (fun r => (r.number, r.entries.map Entry.shape)) =
      b.ring.map fun r => (r.number, r.entries.map Entry.shape) := by
  have ring := congrArg (fun ls : LineStore => ls.ring.map fun r => (r.number, r.entries)) h
  simpa [LineStore.layout, Line.layout, Function.comp_def] using ring

section

variable {s : State} {kind : EntryKind} {advance : Nat}

theorem appendDirect_refuses (full : s.textLimit < s.typingPoint + advance ∨ ¬ s.possible) :
    appendDirect kind advance s = .refuse (some .lineFull) := by
  simp only [appendDirect, s.rightLimit_eq]
  by_cases passes : s.textLimit < s.typingPoint + advance
  · exact if_pos passes
  · refine (if_neg passes).trans (if_pos ?_)
    exact Bool.eq_false_iff.2 (mt s.canMake_iff.1 (full.resolve_left passes))

/-- A key that fits and has a place is appended when there is room for its actions (R29, R95). -/
theorem appendDirect_fits (fits : s.typingPoint + advance ≤ s.textLimit) (place : s.possible) :
    appendDirect kind advance s =
      if min ((s.entryBegun kind advance).actions s.lines.current.number).length 48 ≤ s.room then
        .take (s.appendPrinted (s.entryBegun kind advance)) false
      else .wait := by
  simp only [appendDirect, s.rightLimit_eq, s.canMake_iff.2 place, State.hasRoom, decide_eq_true_eq]
  exact if_neg (Nat.not_lt.2 fits)

end

/-- Settles O28: the three placed keys and TAB are one append at the end of the line. -/
theorem directLineKeys : Obligations.DirectLineKeys := by
  intro s k rest h ho depth mode atEnd l limit refused typed
  let v := s.withoutKey rest
  have head := h.toHeadKey
  have place : v.place = .appendedDirect := State.place_end_direct depth atEnd mode
  have append {i : Instr} {o : KeyOutcome} {kind : EntryKind} {advance : Nat}
      (run : exec i s = .next (s.carryKey k o)) (effect : o = appendDirect kind advance v) :
      typed i kind advance := by
    subst effect
    let e := v.entryBegun kind advance
    have live : e.live = true := v.entryBegun_live kind advance
    have id : e.id = l.nextId := v.entryBegun_id kind advance
    have ends : e.endPos = s.typingPoint + advance := v.entryBegun_endPos kind advance
    refine ⟨fun full => ?_, fun fits possible busy => ?_, fun fits possible room => ?_⟩
    · exact leaves_of_refused head run (appendDirect_refuses (full.imp_left Nat.lt_of_not_le))
    · exact stays_of_wait run
        ((appendDirect_fits (s := v) fits possible).trans (if_neg (Nat.not_le.2 busy)))
    · let u := v.appendPrinted e
      have taken : appendDirect kind advance v = .take u false :=
        (appendDirect_fits (s := v) fits possible).trans (if_pos room)
      have made : u = ((v.printed e).bellCheck.resegment l.number).settle := v.appendPrinted_eq live id
      obtain ⟨layout, actions, esc, kept⟩ := (v.printed e).bellCheck_work l.number
      rw [← made] at layout actions esc kept
      clear_value u
      have lines {α : Type} (f : LineStore → α) := congrArg f layout
      have unit {α : Type} (f : State → α) := congrArg f kept
      obtain ⟨t, runs, leaves, keys⟩ := leaves_keys_of_taken head run taken (unit State.supply)
        (unit fun u => u.intake.keys)
      refine ⟨u, t, runs, leaves, keys, ?_, lines fun ls => ls.current.entries, ?_,
        lines fun ls => ls.current.nextId, lines LineStore.cursor, actions,
        (LineStore.ring_shapes layout :),
        ?_, unit State.corr, unit State.wheel, unit fun u => u.spell.userWords,
        unit fun u => u.seq.bold, unit fun u => u.seq.underline, unit fun u => u.seq.impression⟩
      · rw [made, State.bellCheck_eq, v.printed_typingPoint live, ends]
        rfl
      · rw [made]
        refine State.resegment_settle_last ?_ (v.beginEntry_strike _ _) _
        rw [State.bellCheck_lines]
        exact List.getLast?_concat
      · rw [esc, State.bellCheck_esc, v.printed_typingPoint live, ends]
        rfl
  have placed {kind : EntryKind} {advance : Nat} :
      placeKey kind advance v = appendDirect kind advance v := by
    simp only [placeKey, place]
  refine ⟨fun low high f w wheel width => append (exec_character_placed h ho low high wheel width) placed,
    fun hk f wheel => append (exec_space_placed h ho hk wheel) placed,
    fun hk f wheel => append (exec_halfSpace_placed h ho hk wheel) placed, fun hk => ⟨?_, ?_⟩⟩
  · intro stops
    refine leaves_of_refused head (exec_tab h ho hk) ?_
    have none : tabDistance v.esc.tabs v.typingPoint = none := tabDistance_eq_none.2 stops
    simp only [placeTab, v, place, none]
  · intro before x after tabs passed beyond
    refine append (exec_tab h ho hk) ?_
    have stop : tabDistance v.esc.tabs v.typingPoint = some (x - s.typingPoint) := by
      show tabDistance s.esc.tabs s.typingPoint = _
      rw [tabs, tabDistance_stop passed beyond]
    simp only [placeTab, v, place, stop]

end Sys2Proof.Machine

namespace Sys2Proof.Machine

/-! ### The cursor behind an entry that is put before it (R91) -/

/-- Where an id stands in a list depends on the ids alone. -/
theorem findIdx?_id_congr {es fs : List Entry} (h : es.map (·.id) = fs.map (·.id)) (i : Nat) :
    es.findIdx? (·.id == i) = fs.findIdx? (·.id == i) := by
  have ids (l : List Entry) : l.findIdx? (·.id == i) = (l.map (·.id)).findIdx? (· == i) := by
    rw [List.findIdx?_map]
    rfl
  rw [ids, ids, h]

theorem findIdx?_id_behind {before after : List Entry} {x e : Entry}
    (first : ∀ y ∈ before, y.id ≠ e.id) (fresh : x.id ≠ e.id) :
    (before ++ x :: e :: after).findIdx? (·.id == e.id) = some (before.length + 1) := by
  have none : before.findIdx? (·.id == e.id) = none :=
    List.findIdx?_eq_none_iff.2 fun y hy => beq_eq_false_iff_ne.2 (first y hy)
  rw [List.findIdx?_append, none]
  simp [List.findIdx?_cons, fresh, Nat.add_comm]

/-- A cursor before an entry of the line stands behind a new one put there, whether the entry stays or goes
(R91, R96, R97). -/
theorem keepCursor_behind {old new before after : List Entry} {e x : Entry}
    (split : old = before ++ e :: after) (ids : (old.map (·.id)).Nodup)
    (fresh : ∀ y ∈ old, y.id ≠ x.id)
    (put : new.map (·.id) = (before ++ x :: e :: after).map (·.id) ∨
      new.map (·.id) = (before ++ x :: after).map (·.id)) :
    keepCursor old new before.length = before.length + 1 := by
  subst split
  have rest : (before ++ e :: after).drop before.length = e :: after := List.drop_left
  have inside : ¬ (before ++ e :: after).length ≤ before.length := by simp
  rw [keepCursor, if_neg inside, rest, List.findSome?_cons]
  have differ := List.pairwise_append.1 (List.pairwise_map.1 ids)
  obtain ⟨-, tail, apart⟩ := differ
  have new_ne (y : Entry) (hy : y ∈ before ++ e :: after) : x.id ≠ y.id := (fresh y hy).symm
  rcases put with put | put
  · rw [findIdx?_id_congr put, findIdx?_id_behind (fun y hy => apart y hy e (by simp))
      (new_ne e (by simp))]
    rfl
  · have gone : new.findIdx? (·.id == e.id) = none := by
      rw [findIdx?_id_congr put, List.findIdx?_eq_none_iff]
      intro y hy
      refine beq_eq_false_iff_ne.2 ?_
      simp only [List.mem_append, List.mem_cons] at hy
      rcases hy with hy | rfl | hy
      · exact apart y hy e (by simp)
      · exact new_ne e (by simp)
      · exact (List.rel_of_pairwise_cons tail hy).symm
    rw [gone]
    cases after with
    | nil => simpa using congrArg List.length put
    | cons d after =>
      rw [List.findSome?_cons, findIdx?_id_congr put,
        findIdx?_id_behind (fun y hy => apart y hy d (by simp)) (new_ne d (by simp))]
      rfl

/-! ### The layout of a line with one more entry (R72, R88, R96) -/

/-- A live entry laid out anew has another start and may have another advance (R72, R73). -/
theorem relayout_cons_live (tabs : List Nat) (mounted : Option Family) (p : Nat) {e : Entry}
    (live : e.live = true) (es : List Entry) : ∃ advance, relayout tabs mounted p (e :: es) =
      { e with start := p, advance := advance } :: relayout tabs mounted (p + advance) es :=
  ⟨_, if_pos live⟩

theorem relayout_cons_lifting (tabs : List Nat) (mounted : Option Family) (p : Nat) {e : Entry}
    (dead : ¬ e.live = true) (es : List Entry) :
    relayout tabs mounted p (e :: es) = e :: relayout tabs mounted p es := if_neg dead

/-- A new layout changes neither the ids nor the order of the live entries. -/
theorem relayout_liveIds (tabs : List Nat) (mounted : Option Family) (p : Nat) (es : List Entry) :
    ((relayout tabs mounted p es).filter Entry.live).map (·.id) =
      (es.filter Entry.live).map (·.id) := by
  induction es generalizing p with
  | nil => rfl
  | cons e es ih =>
    by_cases live : e.live = true
    · obtain ⟨advance, laid⟩ := relayout_cons_live tabs mounted p live es
      have stays : ({ e with start := p, advance := advance } : Entry).live = true := live
      rw [laid, List.filter_cons_of_pos stays, List.filter_cons_of_pos live, List.map_cons, ih]
      rfl
    · rw [relayout_cons_lifting _ _ _ live, List.filter_cons_of_neg live,
        List.filter_cons_of_neg live, ih]

theorem insertAtLive_live {x : Entry} (live : x.live = true) (k : Nat) (es : List Entry) :
    (insertAtLive x k es).filter Entry.live =
      (es.filter Entry.live).take k ++ x :: (es.filter Entry.live).drop k := by
  induction es generalizing k with
  | nil => simp [insertAtLive, live]
  | cons e es ih =>
    unfold insertAtLive
    split
    · next he =>
      cases k with
      | zero => simp [live, he]
      | succ k => simp [he, ih]
    · next he => simp [he, ih]

/-! ### An entry inserted into a HOLD line (R65, R72, R96) -/

/-- The current line with these entries and the next id, the cursor kept in its place (R91). -/
def State.relaid (s : State) (es : List Entry) : State :=
  let c := keepCursor s.lines.current.live (es.filter Entry.live) s.lines.cursor
  { s with
    lines := { s.lines with
      current := { s.lines.current with entries := es, nextId := s.lines.current.nextId + 1 }
      cursor := c }
    disp := { s.disp with window := windowFor s.disp.window c } }

theorem State.relaid_eq {s : State} (depth : s.lines.viewDepth = 0) (es : List Entry) :
    ((s.setEntries s.lines.current.number es).mapCurrent fun l => { l with nextId := l.nextId + 1 }) =
      s.relaid es := by
  simp only [State.setEntries, LineStore.displayed_current depth, if_true, State.updateLine,
    State.mapLines, LineStore.updateLine]
  rfl

section

variable {s : State} {kind : EntryKind} {advance : Nat}

theorem insertInHold_refuses
    (full : s.textLimit < endOf s.lines.current.start ((s.withInserted kind advance).filter Entry.live) ∨
      ¬ s.possible) : insertInHold kind advance s = .refuse (some .lineFull) := by
  simp only [insertInHold, s.rightLimit_eq]
  by_cases passes : s.textLimit <
      endOf s.lines.current.start ((s.withInserted kind advance).filter Entry.live)
  · exact if_pos passes
  · refine (if_neg passes).trans (if_pos ?_)
    exact Bool.eq_false_iff.2 (mt s.canMake_iff.1 (full.resolve_left passes))

theorem insertInHold_fits (depth : s.lines.viewDepth = 0)
    (fits : endOf s.lines.current.start ((s.withInserted kind advance).filter Entry.live) ≤ s.textLimit)
    (place : s.possible) : insertInHold kind advance s =
      .take ((s.relaid (s.withInserted kind advance)).bellCheck.resegment s.lines.current.number)
        false := by
  simp only [insertInHold, s.rightLimit_eq, s.canMake_iff.2 place, State.relaid_eq depth]
  exact if_neg (Nat.not_lt.2 fits)

end

/-- Behind an inserted entry the cursor stands one entry further on (R96). -/
theorem State.relaid_cursor {s : State} (inside : s.lines.cursor < s.lines.current.live.length)
    (ids : (s.lines.current.entries.map (·.id)).Nodup)
    (below : ∀ e ∈ s.lines.current.entries, e.id < s.lines.current.nextId) (kind : EntryKind)
    (advance : Nat) :
    (s.relaid (s.withInserted kind advance)).lines.cursor = s.lines.cursor + 1 := by
  let live := s.lines.current.live
  have sub : live.Sublist s.lines.current.entries := List.filter_sublist
  have split : live = live.take s.lines.cursor ++ live[s.lines.cursor] :: live.drop (s.lines.cursor + 1) := by
    rw [List.getElem_cons_drop, List.take_append_drop]
  let x := newEntry s.lines.current.nextId kind s.cursorPoint advance s.seq.underline
  have put : ((s.withInserted kind advance).filter Entry.live).map (·.id) =
      (live.take s.lines.cursor ++ x ::
        live[s.lines.cursor] :: live.drop (s.lines.cursor + 1)).map (·.id) := by
    rw [State.withInserted, relayout_liveIds, insertAtLive_live (newEntry_live _ _ _ _ _),
      List.getElem_cons_drop]
    rfl
  have behind := keepCursor_behind split (ids.sublist (sub.map _))
    (fun y hy => Nat.ne_of_lt (below y (sub.subset hy)) : ∀ y ∈ live, y.id ≠ x.id) (.inl put)
  rwa [List.length_take_of_le inside.le] at behind

/-- The bell check and the segmentation of a changed line leave the print queue, the tape, the wheel and the
settings (R65, R108). -/
theorem State.bellCheck_resegment_units (s : State) (n : Word) :
    let u := s.bellCheck.resegment n
    u.seq = s.seq ∧ u.corr = s.corr ∧ u.wheel = s.wheel ∧ u.esc.tabs = s.esc.tabs ∧
      u.esc.left = s.esc.left ∧ u.esc.right = s.esc.right := by
  simp [State.bellCheck_esc]

/-- Settles O34: the four keys are one insertion before the entry at the cursor. -/
theorem insertedInHoldLine : Obligations.InsertedInHoldLine := by
  refine ⟨fun s => ?_, fun s k rest h ho place => ?_⟩
  · intro l inside printed
    have paper : (l.live.drop s.lines.cursor).any Entry.onPaper = true ↔ printed := by
      simp only [List.any_eq_true, Entry.onPaper_iff, printed]
    refine ⟨State.place_view, fun depth => ⟨
      fun mode outside => State.place_end_direct depth (Nat.not_lt.1 outside) mode,
      fun mode outside => State.place_end_hold depth (Nat.not_lt.1 outside) mode,
      fun mode within clear => ?_, fun mode within print => ?_,
      fun mode within => State.place_inside_direct depth within mode⟩⟩
    · exact (State.place_inside_hold depth within mode).trans (if_neg (mt paper.1 clear))
    · exact (State.place_inside_hold depth within mode).trans (if_pos (paper.2 print))
  · intro l limit inserts
    obtain ⟨depth, inside⟩ := State.place_inserted place
    let v := s.withoutKey rest
    have head := h.toHeadKey
    have insert {i : Instr} {o : KeyOutcome} {kind : EntryKind} {advance : Nat}
        (run : exec i s = .next (s.carryKey k o)) (effect : o = insertInHold kind advance v) :
        inserts i kind advance := by
      subst effect
      let es := v.withInserted kind advance
      refine ⟨fun full => leaves_of_refused head run (insertInHold_refuses full),
        fun fits possible => ?_⟩
      let u := (v.relaid es).bellCheck.resegment l.number
      have taken : insertInHold kind advance v = .take u false :=
        insertInHold_fits (s := v) depth fits possible
      have words : u.lines.wordless = (v.relaid es).lines.wordless :=
        (State.resegment_only _ _).lines.trans (congrArg _ (State.bellCheck_lines _))
      have lines {α : Type} (f : LineStore → α) := congrArg f words
      have cursor : u.lines.cursor = (v.relaid es).lines.cursor := lines LineStore.cursor
      obtain ⟨t, runs, leaves, keys⟩ := leaves_keys_of_taken head run taken
        ((State.resegment_supply _ _).trans (State.bellCheck_supply _))
        (congrArg Intake.keys ((State.resegment_intake _ _).trans (State.bellCheck_intake _)))
      refine ⟨u, t, runs, leaves, keys, lines fun ls => ls.current.entries,
        lines fun ls => ls.current.nextId, ?_,
        fun ids below => cursor.trans (State.relaid_cursor (s := v) inside ids below kind advance),
        State.bellCheck_resegment_units _ _⟩
      rw [cursor]
      exact congrArg (fun b : State => b.resegment l.number) (State.bellCheck_eq _)
    have placed {kind : EntryKind} {advance : Nat} :
        placeKey kind advance v = insertInHold kind advance v := by
      simp only [placeKey, show v.place = _ from place]
    refine ⟨fun low high f w wheel width => insert (exec_character_placed h ho low high wheel width) placed,
      fun hk f wheel => insert (exec_space_placed h ho hk wheel) placed,
      fun hk f wheel => insert (exec_halfSpace_placed h ho hk wheel) placed,
      fun hk d need => insert (exec_tab h ho hk) ?_⟩
    have advance : holdTabAdvance v.esc.tabs v.wheel.mounted v.cursorPoint = some d := need
    have inserted : v.place = .inserted := place
    simp only [placeTab, inserted, advance, v]

end Sys2Proof.Machine

namespace Sys2Proof.Machine

/-! ### The displayed line by its number (R84, R86) -/

theorem updateFirst_updateFirst {f : Line → Line} (hf : ∀ l, (f l).number = l.number)
    (g : Line → Line) (n : Word) (ls : List Line) :
    updateFirst n g (updateFirst n f ls) = updateFirst n (fun l => g (f l)) ls := by
  induction ls with
  | nil => rfl
  | cons l ls ih => by_cases h : l.number = n <;> simp [updateFirst, h, hf, ih]

/-- Two changes of the line of a number, with the cursor moved between them. -/
theorem LineStore.updateLine_twice {f g : Line → Line} (hf : ∀ l, (f l).number = l.number)
    (ls : LineStore) (n : Word) (c : Nat) :
    ({ ls.updateLine n f with cursor := c } : LineStore).updateLine n g =
      { ls.updateLine n (fun l => g (f l)) with cursor := c } := by
  by_cases h : ls.current.number = n <;>
    simp [LineStore.updateLine, h, hf, updateFirst_updateFirst hf]

/-- The Line Store holds a line of the displayed line's number. -/
theorem LineStore.find_displayed (ls : LineStore) : ∃ l, ls.find ls.displayed.number = some l := by
  unfold LineStore.find
  split
  · exact ⟨_, rfl⟩
  · next other =>
    have ring : ls.displayed ∈ ls.ring := by
      unfold LineStore.displayed LineStore.ringAt at other ⊢
      split at other
      · exact absurd rfl other
      · next depth =>
        rw [if_neg depth]
        cases h : ls.ring.reverse[ls.viewDepth - 1]? with
        | none => simp [h] at other
        | some l => exact List.mem_reverse.1 (List.mem_of_getElem? h)
    exact Option.isSome_iff_exists.1 (List.find?_isSome.2 ⟨_, ring, by simp⟩)

/-! ### The entries of a line after a fill (R97) -/

theorem Entry.fillable_iff (e : Entry) (width : Nat) : e.fillable width = true ↔
    ((e.kind = .space ∧ e.strike = none) ∨ e.kind = .gap) ∧ width ≤ e.advance := by
  simp [Entry.fillable, Entry.isSpace, Entry.isGap]

theorem Line.canMake_iff (l : Line) :
    l.canMake = true ↔ l.entries.length < 160 ∧ l.nextId ≤ 255 := by
  simp only [Line.canMake, Bool.and_eq_true, decide_eq_true_eq]
  rfl

/-- A live entry of a line splits the record as it splits the live entries. -/
theorem split_of_live {es before after : List Entry} {g : Entry}
    (h : es.filter Entry.live = before ++ g :: after) : ∃ as bs, es = as ++ g :: bs ∧
      as.filter Entry.live = before ∧ bs.filter Entry.live = after ∧ g.live = true := by
  obtain ⟨first, last, rfl, hb, hg⟩ := List.filter_eq_append_iff.1 h
  obtain ⟨dead, bs, rfl, hd, live, ha⟩ := List.filter_eq_cons_iff.1 hg
  refine ⟨first ++ dead, bs, (List.append_assoc _ _ _).symm, ?_, ha, live⟩
  rw [List.filter_append, hb, List.filter_eq_nil_iff.2 hd, List.append_nil]

theorem fillEntries_other {x : Entry} {id : Nat} {es : List Entry} (h : ∀ e ∈ es, e.id ≠ id) :
    fillEntries x id es = es := by
  induction es with
  | nil => rfl
  | cons e es ih =>
    have rest := ih fun y hy => h y (List.mem_cons_of_mem _ hy)
    unfold fillEntries at rest ⊢
    rw [List.flatMap_cons, if_neg (h e List.mem_cons_self), rest]
    rfl

theorem fillEntries_eq {x : Entry} {width : Nat} (h : x.advance = width) (id : Nat) (es : List Entry) :
    fillEntries x id es = es.flatMap fun e =>
      if e.id = id then
        if e.advance = width then [x]
        else [x, { e with start := e.start + width, advance := e.advance - width }]
      else [e] := by
  subst h
  rfl

/-- The live entries after a fill: the new one before what is left of the entry filled (R97). -/
theorem fillEntries_live {x g : Entry} {es before after : List Entry} (live : x.live = true)
    (split : es.filter Entry.live = before ++ g :: after) (ids : (es.map (·.id)).Nodup) :
    ((fillEntries x g.id es).filter Entry.live).map (·.id) =
        (before ++ x :: g :: after).map (·.id) ∨
      ((fillEntries x g.id es).filter Entry.live).map (·.id) = (before ++ x :: after).map (·.id) := by
  obtain ⟨as, bs, rfl, rfl, rfl, hg⟩ := split_of_live split
  obtain ⟨-, tail, apart⟩ := List.pairwise_append.1 (List.pairwise_map.1 ids)
  have first := fillEntries_other (x := x) fun e he => apart e he g List.mem_cons_self
  have last := fillEntries_other (x := x) fun e he => (List.rel_of_pairwise_cons tail he).symm
  unfold fillEntries at first last ⊢
  rw [List.flatMap_append, List.flatMap_cons, if_pos rfl, first, last]
  split
  · exact .inr (by simp [live])
  · have rest : ({ g with start := g.start + x.advance, advance := g.advance - x.advance } : Entry).live =
      true := hg
    exact .inl (by simp [live, rest])

/-! ### A key filled at the cursor (R97) -/

/-- The displayed line with these entries and the next id, the cursor kept in its place, and these actions
enqueued (R91, R97). -/
def State.filled (s : State) (es : List Entry) (as : List Action) : State :=
  let l := s.lines.displayed
  let c := keepCursor l.live (es.filter Entry.live) s.lines.cursor
  { s with
    lines := { s.lines.updateLine l.number fun x =>
      { x with entries := es, nextId := l.nextId + 1 } with cursor := c }
    seq := { s.seq with queue := s.seq.queue ++ as }
    disp := { s.disp with window := windowFor s.disp.window c } }

theorem State.filled_eq (s : State) (es : List Entry) (as : List Action) :
    (((s.setEntries s.lines.displayed.number es).updateLine s.lines.displayed.number fun l =>
      { l with nextId := s.lines.displayed.nextId + 1 }).enqueue as) = s.filled es as := by
  have twice := LineStore.updateLine_twice (f := fun l => { l with entries := es })
    (g := fun l => { l with nextId := s.lines.displayed.nextId + 1 }) (fun _ => rfl)
    s.lines s.lines.displayed.number
  simp only [State.setEntries, if_true, State.updateLine, State.setCursor, State.mapLines, State.mapDisp,
    twice]
  rfl

/-- The entry that a key makes in the place of `g` (R97 step 1). -/
def State.entryFilled (s : State) (kind : EntryKind) (width : Nat) (g : Entry) : Entry :=
  s.beginEntry s.lines.displayed.number
    (newEntry s.lines.displayed.nextId kind g.start width s.seq.underline)

/-- The state after a fill into `g`, before the words and the print queue are seen to (R97). -/
def State.filledBy (s : State) (kind : EntryKind) (width : Nat) (g : Entry) : State :=
  let e := s.entryFilled kind width g
  s.filled (fillEntries e g.id s.lines.displayed.entries) (e.actions s.lines.displayed.number)

section

variable {s : State} {kind : EntryKind} {width : Nat}

theorem fillAtCursor_outside (h : s.lines.displayed.live[s.lines.cursor]? = none) :
    fillAtCursor kind width s = .refuse (some .noRoom) := by
  simp only [fillAtCursor, h]

variable {g : Entry} (h : s.lines.displayed.live[s.lines.cursor]? = some g)

include h

theorem fillAtCursor_unfit (unfit : ¬ g.fillable width = true) :
    fillAtCursor kind width s = .refuse (some .noRoom) := by
  simp only [fillAtCursor, h]
  exact if_pos (Bool.eq_false_iff.2 unfit)

theorem fillAtCursor_full (fit : g.fillable width = true) (full : ¬ s.lines.displayed.canMake = true) :
    fillAtCursor kind width s = .refuse (some .lineFull) := by
  simp only [fillAtCursor, h, fit]
  exact if_pos (Bool.eq_false_iff.2 full)

theorem fillAtCursor_fits (fit : g.fillable width = true) (place : s.lines.displayed.canMake = true) :
    fillAtCursor kind width s =
      if s.room < ((s.entryFilled kind width g).actions s.lines.displayed.number).length then .wait
      else .take ((s.filledBy kind width g).resegment s.lines.displayed.number).settle false := by
  simp only [fillAtCursor, h, fit, place, State.filled_eq]
  rfl

/-- Behind a filled entry the cursor stands one entry further on (R97). -/
theorem State.filledBy_cursor (ids : (s.lines.displayed.entries.map (·.id)).Nodup)
    (below : ∀ e ∈ s.lines.displayed.entries, e.id < s.lines.displayed.nextId) :
    (s.filledBy kind width g).lines.cursor = s.lines.cursor + 1 := by
  let live := s.lines.displayed.live
  obtain ⟨inside, rfl⟩ := List.getElem?_eq_some_iff.1 h
  have sub : live.Sublist s.lines.displayed.entries := List.filter_sublist
  have split : live = live.take s.lines.cursor ++ live[s.lines.cursor] :: live.drop (s.lines.cursor + 1) := by
    rw [List.getElem_cons_drop, List.take_append_drop]
  let x := s.entryFilled kind width live[s.lines.cursor]
  have id : x.id = s.lines.displayed.nextId := congrArg Entry.id (s.beginEntry_shape _ _)
  have behind := keepCursor_behind split (ids.sublist (sub.map _))
    (fun y hy => id ▸ Nat.ne_of_lt (below y (sub.subset hy)) : ∀ y ∈ live, y.id ≠ x.id)
    (fillEntries_live (s.beginEntry_live _ (newEntry_live _ _ _ _ _)) split ids)
  rwa [List.length_take_of_le inside.le] at behind

end

/-- The line that a fill has changed. -/
theorem State.filled_find (s : State) (es : List Entry) (as : List Action) :
    ∃ l, (s.filled es as).lines.find s.lines.displayed.number = some l ∧ l.entries = es ∧
      l.nextId = s.lines.displayed.nextId + 1 := by
  obtain ⟨l, hl⟩ := s.lines.find_displayed
  refine ⟨{ l with entries := es, nextId := s.lines.displayed.nextId + 1 }, ?_, rfl, rfl⟩
  refine (LineStore.find_updateLine (f := fun x =>
    { x with entries := es, nextId := s.lines.displayed.nextId + 1 }) (fun _ => rfl) _ _ _).trans ?_
  rw [hl, Option.map_some, if_pos rfl]

/-- A TAB is never filled (R67, R94). -/
theorem placeTab_filled {s : State} (place : s.place = .filled)
    (need : ¬ (s.lines.viewDepth = 0 ∧ s.lines.current.mode = .hold ∧
      holdTabAdvance s.esc.tabs s.wheel.mounted s.cursorPoint = none)) :
    placeTab s = .refuse (some .noRoom) := by
  simp only [placeTab, place, if_neg need]

/-- Settles O35: a key is filled into one entry of the displayed line, and a TAB or HALF SPACE never is. -/
theorem filledAtTheCursor : Obligations.FilledAtTheCursor := by
  intro s k rest h ho place l refused fills
  let v := s.withoutKey rest
  have head := h.toHeadKey
  have fill {i : Instr} {o : KeyOutcome} {kind : EntryKind} {width : Nat}
      (run : exec i s = .next (s.carryKey k o)) (effect : o = fillAtCursor kind width v) :
      fills i kind width := by
    subst effect
    refine ⟨fun none => leaves_of_refused head run (fillAtCursor_outside (s := v) none),
      fun g hg => ⟨fun unfit => ?_, fun fit full => ?_, fun fit possible busy => ?_,
        fun fit possible room => ?_⟩⟩
    · exact leaves_of_refused head run (fillAtCursor_unfit (s := v) hg (mt (g.fillable_iff width).1 unfit))
    · exact leaves_of_refused head run (fillAtCursor_full (s := v) hg ((g.fillable_iff width).2 fit)
        (mt l.canMake_iff.1 full))
    · exact stays_of_wait run ((fillAtCursor_fits (s := v) hg ((g.fillable_iff width).2 fit)
        (l.canMake_iff.2 possible)).trans (if_pos busy))
    · let e := v.entryFilled kind width g
      let w := v.filledBy kind width g
      let u := (w.resegment l.number).settle
      have taken : fillAtCursor kind width v = .take u false :=
        (fillAtCursor_fits (s := v) hg ((g.fillable_iff width).2 fit) (l.canMake_iff.2 possible)).trans
          (if_neg (Nat.not_lt.2 room))
      obtain ⟨layout, kept, actions, -⟩ : WorkOnly w u := State.resegment_settle_work w l.number
      have unit {α : Type} (f : State → α) := congrArg f kept
      have advance : e.advance = width := congrArg Entry.advance (v.beginEntry_shape _ _)
      have after := fillEntries_eq advance g.id l.entries
      have made : w = v.filled _ (e.actions l.number) :=
        congrArg (fun es => v.filled es (e.actions l.number)) after
      have moved := congrArg LineStore.cursor layout
      have cursor : u.lines.cursor = w.lines.cursor := moved
      obtain ⟨x, found, entries, next⟩ : ∃ x, w.lines.find l.number = some x ∧
        x.entries = fillEntries e g.id l.entries ∧ x.nextId = l.nextId + 1 := v.filled_find _ _
      have same := congrArg (fun ls : LineStore => ls.find l.number) layout
      simp only [LineStore.find_layout, found, Option.map_some, Option.map_eq_some_iff] at same
      obtain ⟨l', found', alike⟩ := same
      obtain ⟨t, runs, leaves, keys⟩ := leaves_keys_of_taken head run taken (unit State.supply)
        (unit fun u => u.intake.keys)
      refine ⟨u, t, l', runs, leaves, keys, found', ?_, fun _ => ?_, ?_,
        fun ids below => cursor.trans (State.filledBy_cursor (s := v) hg ids below), actions,
        unit State.corr, unit State.esc, unit State.wheel⟩
      · have shapes := congrArg Line.entries alike
        exact shapes.trans (congrArg (List.map Entry.shape) (entries.trans after))
      · have nextId := congrArg Line.nextId alike
        exact nextId.trans next
      · rw [cursor, congrArg (fun w : State => w.lines.cursor) made]
        exact congrArg (fun w : State => (w.resegment l.number).settle) made
  have placed (kind : EntryKind) (width : Nat) : placeKey kind width v =
      if kind.isMove then .refuse (some .noRoom) else fillAtCursor kind width v := by
    simp only [placeKey, show v.place = _ from place]
  refine ⟨fun low high f w wheel width =>
      fill (exec_character_placed h ho low high wheel width) (placed _ _),
    fun hk f wheel => fill (exec_space_placed h ho hk wheel) (placed _ _),
    fun hk wheel => ?_, fun hk need => ?_⟩
  · obtain ⟨f, mounted⟩ := Option.ne_none_iff_exists'.1 wheel
    exact leaves_of_refused head (exec_halfSpace_placed h ho hk mounted) (placed _ _)
  · refine leaves_of_refused head (exec_tab h ho hk) (placeTab_filled (s := v) place ?_)
    rintro ⟨depth, mode, none⟩
    obtain ⟨unmounted, passed⟩ := holdTabAdvance_eq_none.1 none
    rcases need with mounted | view | direct | ⟨x, stop, beyond⟩
    · exact mounted unmounted
    · exact view depth
    · exact Mode.noConfusion (mode.symm.trans direct)
    · exact absurd beyond (Nat.not_lt.2 (passed x stop))

end Sys2Proof.Machine

namespace Sys2Proof.Machine

/-! ### Setting keys (R27, R28, R31) -/

/-- A due key that does not claim the line meets no arbiter before its own effect (R28). -/
theorem State.KeyDue.exec_setting {s : State} {k : Keystroke} {rest : List Keystroke} (h : s.KeyDue k rest)
    {code : Nat} (hk : k.code = code) {i : Instr} {ours : Nat → Bool}
    {act : Keystroke → State → KeyOutcome} (rows : exec i s = .next (s.examineKey ours act))
    (row : ours code = true) (plain : claimsLine code = false) :
    exec i s = .next (s.carryKey k (act k (s.withoutKey rest))) := by
  subst hk
  rw [rows, State.examineKey_due h row act fun claims => Bool.noConfusion (plain.symm.trans claims)]

/-- Settles O19: a setting key is its effect on the state without the key; a margin key has one condition, the
distance to the other margin. -/
theorem settingKeys : Obligations.SettingKeys := by
  refine ⟨fun s k rest h => ?_, fun s k rest h => ?_⟩
  · intro u takes
    have taken {code : Nat} {i : Instr} {f : State → State} {v : State} (hk : k.code = code)
        (row : exec i s = .next (s.examineKey (· == code) (takeAlways f)))
        (plain : claimsLine code = false) (effect : f u = v) (supply : v.supply = s.supply) :
        takes i v :=
      leaves_of_taken h.toHeadKey (h.exec_setting hk row (beq_self_eq_true code) plain)
        (congrArg (KeyOutcome.take · false) effect) supply
    exact ⟨fun hk => taken hk rfl rfl rfl rfl, fun hk => taken hk rfl rfl rfl rfl,
      fun hk => taken hk rfl rfl rfl rfl, fun hk => taken hk rfl rfl rfl rfl,
      fun hk => taken hk rfl rfl rfl rfl, fun hk => taken hk rfl rfl rfl rfl,
      fun hk => taken hk rfl rfl rfl rfl⟩
  · intro u p narrow takes
    have head := h.toHeadKey
    refine ⟨fun hk => ?_, fun hk => ?_⟩
    · have run : exec .setLeftMargin s = .next (s.carryKey k (actSetLeftMargin k u)) :=
        h.exec_setting hk rfl rfl rfl
      exact ⟨fun wide => leaves_of_taken head run (if_pos wide) rfl,
        fun close => leaves_of_refused head run (if_neg (Nat.not_le.2 close))⟩
    · have run : exec .setRightMargin s = .next (s.carryKey k (actSetRightMargin k u)) :=
        h.exec_setting hk rfl rfl rfl
      exact ⟨fun wide => leaves_of_taken head run (if_pos wide) rfl,
        fun close => leaves_of_refused head run (if_neg (Nat.not_le.2 close))⟩

/-! ### Tab stops set and cleared (R78, R79) -/

/-- A stop that is not among the rising stops stands between the stops below it and the first above (R77). -/
theorem insertStop_spec {p : Nat} {tabs : List Nat} (new : p ∉ tabs) :
    ∃ before after, tabs = before ++ after ∧ (∀ t ∈ before, t < p) ∧
      (∀ t, after.head? = some t → p < t) ∧ insertStop p tabs = before ++ p :: after := by
  have split : tabs = tabs.takeWhile (· < p) ++ tabs.dropWhile (· < p) := List.takeWhile_append_dropWhile.symm
  refine ⟨tabs.takeWhile (· < p), tabs.dropWhile (· < p), split,
    fun t ht => of_decide_eq_true (List.mem_takeWhile_imp (p := fun t => decide (t < p)) ht),
    fun t first => ?_, rfl⟩
  have notBelow : ¬ t < p := by
    have kept := List.head?_dropWhile_not (fun t => decide (t < p)) tabs
    rw [first] at kept
    simpa using kept
  have other : t ≠ p := by
    rintro rfl
    rw [split] at new
    exact new (List.mem_append_right _ (List.mem_of_head? first))
  omega

/-- Settles O20: the tests of R78 and R79 in their order, and a stop put in its place. -/
theorem tabStopKeys : Obligations.TabStopKeys := by
  intro s k rest h p takes refused inside
  have head := h.toHeadKey
  refine ⟨fun hk => ?_, fun hk => ?_, fun hk => ?_⟩
  · have run : exec .setTab s = .next (s.carryKey k (actSetTab k (s.withoutKey rest))) :=
      h.exec_setting hk rfl rfl rfl
    have outside : (p ≤ s.esc.left ∨ s.esc.right ≤ p) ↔ ¬ inside := by
      simp only [inside]
      omega
    have past (within : inside) : actSetTab k (s.withoutKey rest) =
        if s.esc.tabs.contains p then .refuse (some .tabAlreadySet)
        else if 16 ≤ s.esc.tabs.length then .refuse (some .tabsFull)
        else .take ((s.withoutKey rest).mapEsc fun e => { e with tabs := insertStop p e.tabs }) false :=
      if_neg fun out => outside.1 out within
    refine ⟨fun out => leaves_of_refused head run (if_pos (outside.2 out)), fun within set => ?_,
      fun within new full => ?_, fun within new room => ?_⟩
    · exact leaves_of_refused head run ((past within).trans (if_pos (List.contains_iff_mem.2 set)))
    · exact leaves_of_refused head run ((past within).trans
        ((if_neg (mt List.contains_iff_mem.1 new)).trans (if_pos full)))
    · obtain ⟨before, after, split, below, above, placed⟩ := insertStop_spec new
      refine ⟨before, after, split, below, above, ?_⟩
      rw [← placed]
      exact leaves_of_taken head run ((past within).trans
        ((if_neg (mt List.contains_iff_mem.1 new)).trans (if_neg (Nat.not_le.2 room)))) rfl
  · have run : exec .clearTab s = .next (s.carryKey k (actClearTab k (s.withoutKey rest))) :=
      h.exec_setting hk rfl rfl rfl
    refine ⟨fun none => leaves_of_refused head run (if_neg (mt List.contains_iff_mem.1 none)),
      fun set => ?_⟩
    have others : s.esc.tabs.filter (fun t => decide (t ≠ p)) = s.esc.tabs.filter fun t => t != p :=
      List.filter_congr fun t _ => Bool.eq_iff_iff.2 (by simp)
    rw [others]
    exact leaves_of_taken head run (if_pos (List.contains_iff_mem.2 set)) rfl
  · exact leaves_of_taken head (h.exec_setting hk rfl rfl rfl) rfl rfl

end Sys2Proof.Machine

namespace Sys2Proof.Machine

/-! ### Entries laid out without a break (R72, R73, R88) -/

/-- The entries begin at `p`, and each begins where the one before it ends (R88). -/
def LaidFrom : Nat → List Entry → Prop
  | _, [] => True
  | p, e :: es => e.start = p ∧ LaidFrom e.endPos es

theorem LaidFrom.head {p : Nat} {es : List Entry} (h : LaidFrom p es) {e : Entry}
    (first : es.head? = some e) : e.start = p := by
  obtain ⟨rest, rfl⟩ := List.head?_eq_some_iff.1 first
  exact h.1

theorem LaidFrom.next {p : Nat} {es : List Entry} (h : LaidFrom p es) {i : Nat} {a b : Entry}
    (ha : es[i]? = some a) (hb : es[i + 1]? = some b) : b.start = a.endPos := by
  induction es generalizing p i with
  | nil => simp at ha
  | cons e es ih =>
    obtain ⟨-, rest⟩ := h
    cases i with
    | zero =>
      obtain rfl : e = a := by simpa using ha
      exact rest.head (by simpa [List.head?_eq_getElem?] using hb)
    | succ i => exact ih rest (by simpa using ha) (by simpa using hb)

theorem relayout_laidFrom (tabs : List Nat) (mounted : Option Family) (p : Nat) (es : List Entry) :
    LaidFrom p ((relayout tabs mounted p es).filter Entry.live) := by
  induction es generalizing p with
  | nil => trivial
  | cons e es ih =>
    by_cases live : e.live = true
    · obtain ⟨advance, laid⟩ := relayout_cons_live tabs mounted p live es
      have stays : ({ e with start := p, advance := advance } : Entry).live = true := live
      rw [laid, List.filter_cons_of_pos stays]
      exact ⟨rfl, ih (p + advance)⟩
    · rw [relayout_cons_lifting _ _ _ live, List.filter_cons_of_neg live]
      exact ih p

/-- The entry `a` laid out anew as `b` (R58, R73, R88): a LIFTING entry stays as it is; of a live one the start
changes and, of a tab of a hold or source line, the advance. -/
structure LaidAs (tabs : List Nat) (mounted : Option Family) (a b : Entry) : Prop where
  rest : b = { a with start := b.start, advance := b.advance }
  lifting : a.live = false → b = a
  tab : a.live = true → a.kind = .tab false →
    b.advance = (holdTabAdvance tabs mounted b.start).getD a.advance
  other : a.kind ≠ .tab false → b.advance = a.advance

theorem relayout_laidAs (tabs : List Nat) (mounted : Option Family) (p : Nat) (es : List Entry) :
    List.Forall₂ (LaidAs tabs mounted) es (relayout tabs mounted p es) := by
  induction es generalizing p with
  | nil => exact .nil
  | cons e es ih =>
    unfold relayout
    split
    · next live =>
      exact .cons ⟨rfl, fun dead => Bool.noConfusion (live.symm.trans dead), fun _ tab => if_pos tab,
        fun other => if_neg other⟩ (ih _)
    · next dead => exact .cons ⟨rfl, fun _ => rfl, fun live => absurd live dead, fun _ => rfl⟩ (ih _)

/-- A tab ends on the first stop beyond its start (R73). -/
theorem holdTabAdvance_stop {tabs : List Nat} {p x : Nat} (mounted : Option Family)
    (stop : tabs.find? (p < ·) = some x) : holdTabAdvance tabs mounted p = some (x - p) := by
  simp [holdTabAdvance, tabDistance, stop]

/-- Beyond the last stop a tab takes the SPACE width of the mounted wheel (R73, R58). -/
theorem holdTabAdvance_last {tabs : List Nat} {p : Nat} (mounted : Option Family)
    (last : tabs.find? (p < ·) = none) : holdTabAdvance tabs mounted p = mounted.map Family.spaceWidth := by
  simp [holdTabAdvance, tabDistance, last]

/-- The entries of two lists in relation to each other, one by one. -/
theorem forall₂_getElem? {α β : Type} {R : α → β → Prop} {as : List α} {bs : List β}
    (h : List.Forall₂ R as bs) {i : Nat} {a : α} {b : β} (ha : as[i]? = some a) (hb : bs[i]? = some b) :
    R a b := by
  obtain ⟨_, rfl⟩ := List.getElem?_eq_some_iff.1 ha
  obtain ⟨_, rfl⟩ := List.getElem?_eq_some_iff.1 hb
  exact h.get _ _

theorem forall₂_mem_right {α β : Type} {R : α → β → Prop} {as : List α} {bs : List β}
    (h : List.Forall₂ R as bs) {b : β} (hb : b ∈ bs) : ∃ a ∈ as, R a b := by
  obtain ⟨i, hi, rfl⟩ := List.mem_iff_getElem.1 hb
  exact ⟨as[i]'(h.length_eq ▸ hi), List.getElem_mem _, h.get _ hi⟩

theorem map_eq_of_forall₂ {α γ : Type} {R : α → α → Prop} {as bs : List α} (h : List.Forall₂ R as bs)
    {f : α → γ} (keeps : ∀ a b, R a b → f b = f a) : bs.map f = as.map f := by
  induction h with
  | nil => rfl
  | cons hab _ ih => rw [List.map_cons, List.map_cons, keeps _ _ hab, ih]

/-- Settles O33: the layout puts one live entry behind the other, and each entry is its old self but for the
start and a tab's advance. -/
theorem layoutHasNoBreak : Obligations.LayoutHasNoBreak := by
  intro tabs mounted start entries out live
  have laid : LaidFrom start live := relayout_laidFrom tabs mounted start entries
  have each : List.Forall₂ (LaidAs tabs mounted) entries out := relayout_laidAs tabs mounted start entries
  refine ⟨fun e => laid.head, fun i a b => laid.next, fun e he kind => ?_, ?_, fun i a b ha hb => ?_⟩
  · obtain ⟨mem, isLive⟩ := List.mem_filter.1 he
    obtain ⟨a, -, as⟩ := forall₂_mem_right each mem
    have wasLive : a.live = true := by
      rw [as.rest] at isLive
      exact isLive
    have wasTab : a.kind = .tab false := by
      rw [as.rest] at kind
      exact kind
    have advance := as.tab wasLive wasTab
    refine ⟨fun x stop => ?_, fun f wheel last => ?_⟩
    · have beyond : e.start < x := by simpa using List.find?_some stop
      rw [holdTabAdvance_stop mounted stop, Option.getD_some] at advance
      rw [Entry.endPos, advance]
      omega
    · rw [advance, holdTabAdvance_last mounted last, wheel]
      rfl
  · exact map_eq_of_forall₂ each fun a b as => by rw [as.rest]
  · have as := forall₂_getElem? each ha hb
    refine ⟨as.rest, as.lifting, fun kept => ?_⟩
    by_cases tab : a.kind = .tab false
    · obtain ⟨wheel, last⟩ := kept.resolve_left (not_not.2 tab)
      cases alive : a.live with
      | false => exact congrArg Entry.advance (as.lifting alive)
      | true => rw [as.tab alive tab, holdTabAdvance_last mounted last, wheel]; rfl
    · exact as.other tab

end Sys2Proof.Machine

namespace Sys2Proof.Machine

/-! ### The stretch spaces (R74) -/

/-- The entry at `i` is a stretch space: a SPACE after the last MOVE and before the last CHAR (R74). -/
def StretchAt (live : List Entry) (i : Nat) : Prop :=
  (∃ e, live[i]? = some e ∧ e.kind = .space) ∧
    (∃ j e, i < j ∧ live[j]? = some e ∧ ∃ c f b, e.kind = .char c f b) ∧
    ∀ j e, live[j]? = some e → ((∃ b, e.kind = .tab b) ∨ e.kind = .halfSpace) → j < i

theorem EntryKind.isMove_iff (k : EntryKind) : k.isMove = true ↔ (∃ b, k = .tab b) ∨ k = .halfSpace := by
  cases k <;> simp [EntryKind.isMove]

theorem EntryKind.isChar_iff (k : EntryKind) : k.isChar = true ↔ ∃ c f b, k = .char c f b := by
  cases k <;> simp [EntryKind.isChar]

theorem Entry.isSpace_iff (e : Entry) : e.isSpace = true ↔ e.kind = .space := by
  simp [Entry.isSpace]

theorem stretchAt_iff (live : List Entry) (i : Nat) : StretchAt live i ↔
    (∃ e, live[i]? = some e ∧ e.isSpace = true) ∧
      (∃ j e, i < j ∧ live[j]? = some e ∧ e.kind.isChar = true) ∧
      ∀ j e, live[j]? = some e → e.kind.isMove = true → j < i := by
  simp only [StretchAt, Entry.isSpace_iff, EntryKind.isChar_iff, EntryKind.isMove_iff]

/-- Where an entry stands in a line split before and at its last CHAR. -/
theorem getElem?_split {before between tail : List Entry} {c e : Entry} {i : Nat}
    (h : (before ++ between ++ c :: tail)[i]? = some e) :
    (i < before.length ∧ e ∈ before) ∨
      (before.length ≤ i ∧ i < before.length + between.length ∧ between[i - before.length]? = some e) ∨
      (i = before.length + between.length ∧ e = c) ∨
      (before.length + between.length < i ∧ e ∈ tail) := by
  rw [List.append_assoc, List.getElem?_append] at h
  split at h
  · next first => exact .inl ⟨first, List.mem_of_getElem? h⟩
  · next first =>
    have passed := Nat.not_lt.1 first
    rw [List.getElem?_append] at h
    split at h
    · exact .inr (.inl ⟨passed, by omega, h⟩)
    · generalize place : i - before.length - between.length = n at h
      cases n with
      | zero => exact .inr (.inr (.inl ⟨by omega, (Option.some.inj h).symm⟩))
      | succ n => exact .inr (.inr (.inr ⟨by omega, List.mem_of_getElem? h⟩))

/-- The stretch of a line between its last MOVE and its last CHAR holds the stretch spaces (R74). -/
theorem stretchAt_between {before between tail : List Entry} {c : Entry} (char : c.kind.isChar = true)
    (last : ∀ e ∈ tail, e.kind.isChar = false) (still : ∀ e ∈ tail, e.kind.isMove = false)
    (plain : ∀ e ∈ between, e.kind.isMove = false)
    (move : ∀ m, before.getLast? = some m → m.kind.isMove = true) (i : Nat) :
    StretchAt (before ++ between ++ c :: tail) i ↔
      before.length ≤ i ∧ ∃ e, between[i - before.length]? = some e ∧ e.isSpace = true := by
  rw [stretchAt_iff]
  constructor
  · rintro ⟨⟨e, he, space⟩, ⟨j, x, hij, hx, isChar⟩, moves⟩
    have notBeyond : j ≤ before.length + between.length := by
      rcases getElem?_split hx with ⟨_, -⟩ | ⟨-, _, -⟩ | ⟨_, -⟩ | ⟨-, mem⟩
      · omega
      · omega
      · omega
      · exact absurd isChar (by simp [last x mem])
    have afterMove : before.length ≤ i := by
      rcases List.eq_nil_or_concat before with rfl | ⟨front, m, rfl⟩
      · exact Nat.zero_le i
      · have := moves front.length m (by simp) (move m (by simp))
        simpa using this
    rcases getElem?_split he with ⟨_, -⟩ | ⟨-, -, inner⟩ | ⟨_, -⟩ | ⟨_, -⟩
    · omega
    · exact ⟨afterMove, e, inner, space⟩
    · omega
    · omega
  · rintro ⟨after, e, inner, space⟩
    have short : i - before.length < between.length := (List.getElem?_eq_some_iff.1 inner).1
    refine ⟨⟨e, ?_, space⟩, ⟨before.length + between.length, c, by omega, by simp, char⟩,
      fun j x hx isMove => ?_⟩
    · rw [List.append_assoc, List.getElem?_append_right after, List.getElem?_append_left short, inner]
    · rcases getElem?_split hx with ⟨_, -⟩ | ⟨-, -, mem⟩ | ⟨-, rfl⟩ | ⟨-, mem⟩
      · omega
      · exact absurd isMove (by simp [plain x (List.mem_of_getElem? mem)])
      · obtain ⟨_, _, _, kind⟩ := (EntryKind.isChar_iff _).1 char
        simp [kind, EntryKind.isMove] at isMove
      · exact absurd isMove (by simp [still x mem])

/-- A MOVE after the last CHAR leaves no stretch spaces (R74). -/
theorem not_stretchAt_of_lateMove {front tail : List Entry} (last : ∀ e ∈ tail, e.kind.isChar = false)
    {m : Entry} (mem : m ∈ tail) (move : m.kind.isMove = true) (i : Nat) :
    ¬ StretchAt (front ++ tail) i := by
  rw [stretchAt_iff]
  rintro ⟨-, ⟨j, x, hij, hx, isChar⟩, moves⟩
  obtain ⟨n, hn⟩ := List.mem_iff_getElem?.1 mem
  have late : front.length + n < i := moves (front.length + n) m
    (by rwa [List.getElem?_append_right (Nat.le_add_right ..), Nat.add_sub_cancel_left]) move
  rw [List.getElem?_append_right (by omega)] at hx
  exact absurd isChar (by simp [last x (List.mem_of_getElem? hx)])

theorem not_stretchAt_of_noChar {live : List Entry} (none : ∀ e ∈ live, e.kind.isChar = false) (i : Nat) :
    ¬ StretchAt live i := by
  rw [stretchAt_iff]
  rintro ⟨-, ⟨j, x, -, hx, isChar⟩, -⟩
  exact absurd isChar (by simp [none x (List.mem_of_getElem? hx)])

/-- The stretch spaces of a line, by id and by place, are the SPACEs of one stretch of it (R74). -/
structure StretchBetween (live before between after : List Entry) : Prop where
  split : live = before ++ between ++ after
  ids : stretchSpaces live = (between.filter Entry.isSpace).map (·.id)
  places : ∀ i, StretchAt live i ↔
    before.length ≤ i ∧ ∃ e, between[i - before.length]? = some e ∧ e.isSpace = true

/-- The stretch lies between the last MOVE and the last CHAR, and is empty when there is no such CHAR. -/
theorem exists_stretchBetween (live : List Entry) :
    ∃ before between after, StretchBetween live before between after := by
  obtain ⟨tail, htail⟩ : ∃ tail, tail = live.reverse.takeWhile fun e => !e.kind.isChar := ⟨_, rfl⟩
  obtain ⟨front, hfront⟩ : ∃ front, front = live.reverse.dropWhile fun e => !e.kind.isChar := ⟨_, rfl⟩
  have split : live = front.reverse ++ tail.reverse := by
    rw [← List.reverse_append, htail, hfront, List.takeWhile_append_dropWhile, List.reverse_reverse]
  have last : ∀ e ∈ tail.reverse, e.kind.isChar = false := fun e he => by
    rw [List.mem_reverse, htail] at he
    simpa using List.mem_takeWhile_imp he
  have none (h : ∀ i, ¬ StretchAt live i) (noIds : stretchSpaces live = []) :
      ∃ before between after, StretchBetween live before between after :=
    ⟨[], [], live, rfl, noIds, fun i => by simp [h i]⟩
  have ids : stretchSpaces live = if tail.any (·.kind.isMove) then [] else
      (((front.drop 1).takeWhile fun e => !e.kind.isMove).reverse.filter Entry.isSpace).map (·.id) := by
    rw [htail, hfront]
    rfl
  by_cases late : tail.any (·.kind.isMove) = true
  · obtain ⟨m, mem, move⟩ := List.any_eq_true.1 late
    refine none (fun i => ?_) (ids.trans (if_pos late))
    rw [split]
    exact not_stretchAt_of_lateMove last (List.mem_reverse.2 mem) move i
  · rw [if_neg late] at ids
    cases front with
    | nil =>
      refine none (not_stretchAt_of_noChar ?_) ids
      rw [split]
      exact last
    | cons c more =>
      have char : c.kind.isChar = true := by
        have kept := List.head?_dropWhile_not (fun e : Entry => !e.kind.isChar) live.reverse
        rw [← hfront] at kept
        simpa using kept
      have still : ∀ e ∈ tail.reverse, e.kind.isMove = false := fun e he =>
        Bool.eq_false_iff.2 fun move => late (List.any_eq_true.2 ⟨e, List.mem_reverse.1 he, move⟩)
      let between := more.takeWhile fun e => !e.kind.isMove
      let before := more.dropWhile fun e => !e.kind.isMove
      have inner : more.reverse = before.reverse ++ between.reverse := by
        rw [← List.reverse_append, List.takeWhile_append_dropWhile]
      have whole : live = before.reverse ++ between.reverse ++ c :: tail.reverse := by
        rw [split, List.reverse_cons, inner, List.append_assoc, List.singleton_append]
      refine ⟨before.reverse, between.reverse, c :: tail.reverse, whole, ids, ?_⟩
      rw [whole]
      refine stretchAt_between char last still (fun e he => ?_) fun m first => ?_
      · simpa using List.mem_takeWhile_imp (List.mem_reverse.1 he)
      · rw [List.getLast?_reverse] at first
        have kept := List.head?_dropWhile_not (fun e : Entry => !e.kind.isMove) more
        rw [first] at kept
        simpa using kept

theorem stretchSpaces_sublist (live : List Entry) :
    (stretchSpaces live).Sublist (live.map (·.id)) := by
  obtain ⟨before, between, after, split, ids, -⟩ := exists_stretchBetween live
  rw [ids, split]
  have inside : between.Sublist (before ++ between ++ after) :=
    (List.sublist_append_right before between).trans (List.sublist_append_left _ after)
  exact (List.filter_sublist.trans inside).map _

/-- The places of the stretch spaces, from the left (R74). -/
theorem stretchSpaces_places (live : List Entry) : ∃ places : List Nat, places.Pairwise (· < ·) ∧
    (∀ i, i ∈ places ↔ StretchAt live i) ∧
    stretchSpaces live = places.filterMap fun i => live[i]?.map (·.id) := by
  obtain ⟨before, between, after, split, ids, between_iff⟩ := exists_stretchBetween live
  let numbered := between.zipIdx before.length
  let spaces := numbered.filter fun p => p.1.isSpace
  have numbered_iff (e : Entry) (i : Nat) : (e, i) ∈ numbered ↔
      before.length ≤ i ∧ between[i - before.length]? = some e :=
    List.mk_mem_zipIdx_iff_le_and_getElem?_sub
  refine ⟨spaces.map (·.2), ?_, fun i => ?_, ?_⟩
  · have sub : (spaces.map (·.2)).Sublist (List.range' before.length between.length) := by
      rw [← List.zipIdx_map_snd before.length between]
      exact List.filter_sublist.map _
    exact List.Pairwise.sublist sub List.pairwise_lt_range'
  · rw [between_iff]
    simp only [spaces, List.mem_map, List.mem_filter, Prod.exists, numbered_iff, exists_eq_right]
    exact ⟨fun ⟨e, ⟨le, he⟩, space⟩ => ⟨le, e, he, space⟩,
      fun ⟨le, e, he, space⟩ => ⟨e, ⟨le, he⟩, space⟩⟩
  · have entries : spaces.map (·.1) = between.filter Entry.isSpace := by
      rw [← List.zipIdx_map_fst before.length between, List.filter_map]
      rfl
    have found : ∀ p ∈ spaces, live[p.2]?.map (·.id) = some p.1.id := fun (e, i) mem => by
      obtain ⟨le, he⟩ := (numbered_iff e i).1 (List.mem_filter.1 mem).1
      have short : i - before.length < between.length := (List.getElem?_eq_some_iff.1 he).1
      rw [split, List.append_assoc, List.getElem?_append_right le, List.getElem?_append_left short, he]
      rfl
    rw [ids, ← entries, List.map_map, List.filterMap_map, ← List.filterMap_eq_map]
    exact List.filterMap_congr fun p mem => (found p mem).symm

end Sys2Proof.Machine

namespace Sys2Proof.Machine

/-! ### Advances kept and starts moved (R70, R75) -/

theorem shiftFrom_moved (p : Nat) (es : List Entry) :
    List.Forall₂ (fun a b => b = { a with start := b.start }) es (shiftFrom p es) := by
  induction es generalizing p with
  | nil => exact .nil
  | cons e es ih =>
    unfold shiftFrom
    split
    · exact .cons rfl (ih _)
    · exact .cons rfl (ih _)

theorem shiftFrom_laidFrom {es : List Entry} (h : ∀ e ∈ es, e.live = true) (p : Nat) :
    LaidFrom p (shiftFrom p es) := by
  induction es generalizing p with
  | nil => trivial
  | cons e es ih =>
    rw [shiftFrom_cons (h e (by simp))]
    exact ⟨rfl, ih (fun x hx => h x (by simp [hx])) _⟩

/-! ### The growth of the stretch spaces (R75) -/

/-- How much the entry of an id grows (R75 step 5). -/
def growth (ids : List Nat) (share rest id : Nat) : Nat :=
  match ids.findIdx? (· == id) with
  | none => 0
  | some i => share + if i < rest then 1 else 0

theorem stretchEntry_eq (ids : List Nat) (share rest : Nat) (e : Entry) :
    stretchEntry ids share rest e = { e with advance := e.advance + growth ids share rest e.id } := by
  unfold stretchEntry growth
  cases ids.findIdx? (· == e.id) with
  | none => rfl
  | some i => simp only [Nat.add_assoc]

theorem growth_of_notMem {ids : List Nat} {id : Nat} (h : id ∉ ids) (share rest : Nat) :
    growth ids share rest id = 0 := by
  have none : ids.findIdx? (· == id) = none := by
    simp only [List.findIdx?_eq_none_iff, beq_eq_false_iff_ne]
    rintro _ mem rfl
    exact h mem
  rw [growth, none]

theorem growth_at {ids : List Nat} (nodup : ids.Nodup) {k id : Nat} (h : ids[k]? = some id)
    (share rest : Nat) : growth ids share rest id = share + if k < rest then 1 else 0 := by
  obtain ⟨hk, rfl⟩ := List.getElem?_eq_some_iff.1 h
  have found : ids.findIdx? (· == ids[k]) = some k := by
    refine List.findIdx?_eq_some_iff_getElem.2 ⟨hk, by simp, fun j hj => ?_⟩
    simpa [nodup.getElem_inj_iff] using hj.ne
  rw [growth, found]

/-- The first spaces grow by one step more, until the extra is used up. -/
theorem sum_shares (n share rest : Nat) :
    ((List.range n).map fun i => share + if i < rest then 1 else 0).sum = n * share + min n rest := by
  induction n with
  | zero => simp
  | succ n ih =>
    rw [List.range_succ, List.map_append, List.sum_append, ih, Nat.succ_mul]
    simp only [List.map_cons, List.map_nil, List.sum_singleton]
    split <;> omega

theorem sum_growth {ids : List Nat} (nodup : ids.Nodup) {share rest : Nat} (h : rest ≤ ids.length) :
    (ids.map (growth ids share rest)).sum = ids.length * share + rest := by
  have each : ids.map (growth ids share rest) =
      (List.range ids.length).map fun i => share + if i < rest then 1 else 0 := by
    refine List.ext_getElem (by simp) fun i hi _ => ?_
    simp only [List.getElem_map, List.getElem_range]
    exact growth_at nodup (List.getElem?_eq_getElem _) share rest
  rw [each, sum_shares, Nat.min_eq_right h]

/-- Entries without a growth add nothing. -/
theorem sum_map_of_sublist {ids all : List Nat} (sub : ids.Sublist all) (nodup : all.Nodup) {g : Nat → Nat}
    (zero : ∀ x, x ∉ ids → g x = 0) : (all.map g).sum = (ids.map g).sum := by
  rw [← List.sum_toFinset g nodup, ← List.sum_toFinset g (nodup.sublist sub)]
  refine (Finset.sum_subset (fun x hx => ?_) fun x _ hx => zero x (by simpa using hx)).symm
  simpa using sub.subset (by simpa using hx)

theorem totalAdvance_stretched {ids : List Nat} {es : List Entry} (sub : ids.Sublist (es.map (·.id)))
    (nodup : (es.map (·.id)).Nodup) {share rest : Nat} (h : rest ≤ ids.length) :
    totalAdvance (es.map (stretchEntry ids share rest)) = totalAdvance es + (ids.length * share + rest) := by
  rw [← sum_growth (nodup.sublist sub) h, ← sum_map_of_sublist sub nodup fun x hx => growth_of_notMem hx ..]
  simp only [totalAdvance, List.map_map]
  rw [← List.sum_map_add]
  exact congrArg List.sum (List.map_congr_left fun e _ => by
    rw [Function.comp_apply, stretchEntry_eq]
    rfl)

/-! ### A line justified, and a ragged one (R74, R75) -/

theorem justifyLine_ragged {justify : Bool} {right : Nat} {l : Line} (mounted : Option Family)
    (h : ¬ (justify = true ∧ stretchSpaces l.live ≠ [] ∧ l.endPoint ≤ right ∧
      l.entries.all (fun e => !e.onPaper && e.live && !e.isGap) = true)) :
    justifyLine justify right mounted l = l := if_neg h

theorem justifyLine_tooWide {right : Nat} {l : Line} {f : Family}
    (h : 2 * f.spaceWidth < (right - l.endPoint) / (stretchSpaces l.live).length) (justify : Bool) :
    justifyLine justify right (some f) l = l := by
  unfold justifyLine
  dsimp only
  rw [if_pos h, ite_self]

theorem justifyLine_stretches {right : Nat} {l : Line} {f : Family}
    (spaces : stretchSpaces l.live ≠ []) (ends : l.endPoint ≤ right)
    (clear : ∀ e ∈ l.entries, e.live = true ∧ e.onPaper = false ∧ e.isGap = false)
    (narrow : (right - l.endPoint) / (stretchSpaces l.live).length ≤ 2 * f.spaceWidth) :
    justifyLine true right (some f) l = { l with
      entries := shiftFrom l.start (l.entries.map (stretchEntry (stretchSpaces l.live)
        ((right - l.endPoint) / (stretchSpaces l.live).length)
        ((right - l.endPoint) % (stretchSpaces l.live).length))) } := by
  have all : l.entries.all (fun e => !e.onPaper && e.live && !e.isGap) = true := by
    rw [List.all_eq_true]
    intro e he
    obtain ⟨live, paper, gap⟩ := clear e he
    simp [live, paper, gap]
  unfold justifyLine
  dsimp only
  rw [if_pos ⟨rfl, spaces, ends, all⟩, if_neg (Nat.not_lt.2 narrow)]

theorem stretchEntry_live (ids : List Nat) (share rest : Nat) {e : Entry} (h : e.live = true) :
    (stretchEntry ids share rest e).live = true := by
  rw [stretchEntry_eq]
  exact h

/-- Each entry of a justified line is its old self but for its start and its growth (R75). -/
theorem stretched_each (ids : List Nat) (share rest p : Nat) (es : List Entry) :
    List.Forall₂ (fun a b => b = { a with
      start := b.start, advance := a.advance + growth ids share rest a.id }) es
      (shiftFrom p (es.map (stretchEntry ids share rest))) := by
  refine (List.forall₂_map_left_iff.1 (shiftFrom_moved p _)).imp fun a b moved => ?_
  rw [stretchEntry_eq] at moved
  exact moved

/-- Settles O32: the growths of the stretch spaces add up to what the line lacks at the right margin. -/
theorem justifiedLineEndsAtTheMargin : Obligations.JustifiedLineEndsAtTheMargin := by
  refine ⟨stretchSpaces_places, fun l justify right f => ?_, fun l right f => ?_⟩
  · intro ids h
    rcases h with off | none | long | ⟨e, he, bad⟩ | wide
    · exact justifyLine_ragged _ fun ⟨on, _⟩ => Bool.noConfusion (off.symm.trans on)
    · exact justifyLine_ragged _ fun ⟨_, spaces, _⟩ => spaces none
    · exact justifyLine_ragged _ fun ⟨_, _, ends, _⟩ => Nat.not_lt.2 ends long
    · refine justifyLine_ragged _ fun ⟨_, _, _, all⟩ => ?_
      have clear := List.all_eq_true.1 all e he
      rcases bad with queued | struck | lifting | gap
      · simp [Entry.onPaper, queued] at clear
      · simp [Entry.onPaper, struck] at clear
      · simp [Entry.live, lifting] at clear
      · simp [Entry.isGap, gap] at clear
    · exact justifyLine_tooWide wide justify
  · intro ids share rest out laid nodup spaces ends clear narrow
    let stretched := l.entries.map (stretchEntry ids share rest)
    have made : out = { l with entries := shiftFrom l.start stretched } :=
      justifyLine_stretches spaces ends clear narrow
    have entries : out.entries = shiftFrom l.start stretched := congrArg Line.entries made
    have live : ∀ e ∈ stretched, e.live = true := fun e he => by
      obtain ⟨a, ha, rfl⟩ := List.mem_map.1 he
      exact stretchEntry_live ids share rest (clear a ha).1
    have whole : l.live = l.entries := List.filter_eq_self.2 fun e he => (clear e he).1
    have sub : ids.Sublist (l.entries.map (·.id)) := whole ▸ stretchSpaces_sublist l.live
    have each := stretched_each ids share rest l.start l.entries
    have straight := shiftFrom_laidFrom live l.start
    rw [← entries] at each straight
    refine ⟨?_, map_eq_of_forall₂ each fun a b is => by rw [is], by rw [made], fun e => straight.head,
      fun i a b => straight.next, fun i a b ha hb => ?_⟩
    · have old : l.endPoint = l.start + totalAdvance l.entries := by
        have layout := endOf_shiftFrom (fun e he => (clear e he).1) l.start
        rw [laid] at layout
        rwa [Line.endPoint, whole]
      have new : out.endPoint = l.start + totalAdvance stretched := by
        rw [made, Line.endPoint, Line.live, shiftFrom_live live, endOf_shiftFrom live]
      have few : rest ≤ ids.length := (Nat.mod_lt _ (List.length_pos_iff.2 spaces)).le
      have extra : ids.length * share + rest = right - l.endPoint := Nat.div_add_mod _ _
      rw [new, totalAdvance_stretched sub nodup few, extra, ← Nat.add_assoc, ← old]
      omega
    · have is := forall₂_getElem? each ha hb
      have advance : b.advance = a.advance + growth ids share rest a.id := congrArg Entry.advance is
      refine ⟨?_, fun other => ?_, fun k hk => ?_⟩
      · rw [advance]
        exact is
      · rw [advance, growth_of_notMem other, Nat.add_zero]
      · rw [advance, growth_at (nodup.sublist sub) hk, Nat.add_assoc]

end Sys2Proof.Machine

namespace Sys2Proof.Machine

/-! ### A key at the end of a HOLD line by the right limit and the places of the line (R69, R71, R89) -/

section

variable {s : State} {kind : EntryKind} {advance : Nat}

theorem appendHold_fits (fits : s.typingPoint + advance ≤ s.textLimit) :
    appendHold kind advance s = if s.lines.current.canMake = false then .refuse (some .lineFull)
      else .take (s.appendComposed kind advance s.seq.underline) false :=
  if_neg (mt (s.passesEnd_iff _).1 (Nat.not_lt.2 fits))

/-- An entry that fits is refused when it cannot be made (R89). -/
theorem appendHold_noPlace (fits : s.typingPoint + advance ≤ s.textLimit) (full : ¬ s.possible) :
    appendHold kind advance s = .refuse (some .lineFull) :=
  (appendHold_fits fits).trans (if_pos (Bool.eq_false_iff.2 (mt s.canMake_iff.1 full)))

theorem appendHold_appends (fits : s.typingPoint + advance ≤ s.textLimit) (place : s.possible) :
    appendHold kind advance s = .take (s.appendComposed kind advance s.seq.underline) false :=
  (appendHold_fits fits).trans (if_neg (by simp [s.canMake_iff.2 place]))

/-- A TAB or HALF SPACE that passes the right limit is refused (R71). -/
theorem appendHold_move (passes : s.textLimit < s.typingPoint + advance) (move : kind.isMove = true) :
    appendHold kind advance s = .refuse (some .lineFull) := by
  refine (if_pos ((s.passesEnd_iff _).2 passes)).trans ?_
  obtain ⟨b, rfl⟩ | rfl := (EntryKind.isMove_iff kind).1 move
  · rfl
  · rfl

theorem appendHold_space (passes : s.textLimit < s.typingPoint + advance) :
    appendHold .space advance s = if s.lineFeeding then .wait else .take s.wrapEmpty true :=
  if_pos ((s.passesEnd_iff _).2 passes)

variable {code : Nat} {f : Family} {bold : Bool}

theorem appendHold_alone (passes : s.textLimit < s.typingPoint + advance) (alone : ¬ s.carriesRun advance) :
    appendHold (.char code f bold) advance s = .refuse (some .lineFull) :=
  (if_pos ((s.passesEnd_iff _).2 passes)).trans
    (if_pos (Bool.eq_false_iff.2 (mt (s.canCarry_iff _).1 alone)))

theorem appendHold_carries (passes : s.textLimit < s.typingPoint + advance) (carries : s.carriesRun advance) :
    appendHold (.char code f bold) advance s = if s.lineFeeding then .wait
      else .take (s.wrapWith (.char code f bold) advance s.seq.underline) true :=
  (if_pos ((s.passesEnd_iff _).2 passes)).trans (if_neg (by simp [(s.canCarry_iff _).2 carries]))

end

/-! ### What a segmentation leaves of the ring lines (R108) -/

/-- The entries of the ring lines. -/
def LineStore.ringEntries (ls : LineStore) : List (List Entry) := ls.ring.map (·.entries)

theorem LineStore.updateLine_ringEntries {ls : LineStore} {n : Word} {f : Line → Line}
    (h : ∀ l, (f l).entries = l.entries) : (ls.updateLine n f).ringEntries = ls.ringEntries := by
  unfold LineStore.updateLine LineStore.ringEntries
  split
  · rfl
  · exact updateFirst_map fun l _ => h l

@[simp] theorem State.setWord_ringEntries (s : State) (line serial : Word) (st : WordState)
    (tag : Option (Fin 4)) : (s.setWord line serial st tag).lines.ringEntries = s.lines.ringEntries :=
  LineStore.updateLine_ringEntries fun _ => rfl

@[simp] theorem State.slotTakes_ringEntries (s : State) (tag : Fin 4) (line serial : Word)
    (r : DictRole) (already : Option DictRole) :
    (s.slotTakes tag line serial r already).lines.ringEntries = s.lines.ringEntries := by
  simp only [State.slotTakes, State.enqueueFrame]
  split <;> simp

@[simp] theorem State.takeItems_ringEntries (s : State) :
    s.takeItems.lines.ringEntries = s.lines.ringEntries := by
  have upTo (n : Nat) (s : State) : (s.takeItemsUpTo n).lines.ringEntries = s.lines.ringEntries := by
    induction n generalizing s with
    | zero => rfl
    | succ n ih =>
      unfold State.takeItemsUpTo
      split
      · rfl
      · split
        · dsimp only
          split <;> simp [ih]
        · rfl
  exact upTo _ s

@[simp] theorem State.appendPending_ringEntries (s : State) (i : PendingItem) :
    (s.appendPending i).lines.ringEntries = s.lines.ringEntries := by
  unfold State.appendPending
  split
  · split <;> simp
  · rfl

@[simp] theorem State.handWord_ringEntries (s : State) (line serial : Word) :
    (s.handWord line serial).lines.ringEntries = s.lines.ringEntries := by
  have capital : (s.updateLine line fun l => { l with words := l.words.map fun w =>
      if w.serial = serial then { w with capital := some (capitalOf (l.wordCodes serial)) }
      else w }).lines.ringEntries = s.lines.ringEntries := LineStore.updateLine_ringEntries fun _ => rfl
  simp only [State.handWord]
  repeat' split
  all_goals simp [capital]

/-- The segmentation of the current line changes no entry of a ring line. -/
theorem State.resegment_ringEntries (s : State) :
    (s.resegment s.lines.current.number).lines.ringEntries = s.lines.ringEntries := by
  have folds {α : Type} {f : State → α → State}
      (hf : ∀ t a, (f t a).lines.ringEntries = t.lines.ringEntries) (as : List α) (t : State) :
      (as.foldl f t).lines.ringEntries = t.lines.ringEntries := by
    induction as generalizing t with
    | nil => rfl
    | cons a as ih => exact (ih _).trans (hf t a)
  simp only [State.resegment]
  split
  · rfl
  · rw [folds fun t a => t.handWord_ringEntries _ a,
      folds (f := fun t serial => t.dropWord s.lines.current.number serial) fun t a => rfl]
    simp [State.updateLine, LineStore.updateLine, LineStore.ringEntries]

end Sys2Proof.Machine

namespace Sys2Proof.Machine

/-! ### An entry appended to a HOLD line (R64, R65, R89, R108) -/

theorem State.appended_typingPoint (s : State) (kind : EntryKind) (advance : Nat) (underline : Bool) :
    (s.appended (s.entryMade kind advance underline)).typingPoint = s.typingPoint + advance := by
  have live := s.entryMade_live kind advance underline
  rw [s.appended_eq live]
  show endOf _ ((s.lines.current.entries ++ [_]).filter Entry.live) = _
  rw [Line.live_append_live _ live, endOf, List.getLast?_concat]
  rfl

/-- An append is the line with the entry, the bell check at the entry's end, and the segmentation. -/
theorem State.appendComposed_rung (s : State) (kind : EntryKind) (advance : Nat) (underline : Bool) :
    s.appendComposed kind advance underline =
      (State.rungAt (s.appended (s.entryMade kind advance underline))
        (s.typingPoint + advance)).resegment s.lines.current.number := by
  rw [s.appendComposed_eq, State.bellCheck_eq, s.appended_typingPoint]

/-- The bell mark after an append (R65). -/
theorem State.appendComposed_esc (s : State) (kind : EntryKind) (advance : Nat) (underline : Bool) :
    (s.appendComposed kind advance underline).esc = { s.esc with
      bellRung := s.esc.bellRung || (s.lines.current.owner == .keyboard &&
        decide (s.esc.right < s.typingPoint + advance + 60)) } := by
  rw [s.appendComposed_eq, State.resegment_esc, State.bellCheck_esc, s.appended_typingPoint,
    s.appended_eq (s.entryMade_live kind advance underline)]

/-- An append changes no entry of a ring line. -/
theorem State.appendComposed_ringEntries (s : State) (kind : EntryKind) (advance : Nat) (underline : Bool) :
    (s.appendComposed kind advance underline).lines.ringEntries = s.lines.ringEntries := by
  have number : (s.appended (s.entryMade kind advance underline)).bellCheck.lines.current.number =
      s.lines.current.number := by
    rw [State.bellCheck_lines]
    rfl
  rw [s.appendComposed_eq, ← number, State.resegment_ringEntries, State.bellCheck_lines]
  rfl

/-- Settles O30: the three placed keys and TAB are decided by the right limit and the places of the line, and an
entry that fits is one append. -/
theorem holdLineKeys : Obligations.HoldLineKeys := by
  intro s k rest h ho depth mode atEnd l p limit run carried refused typed
  let v := s.withoutKey rest
  have head := h.toHeadKey
  have place : v.place = .appendedHold := State.place_end_hold depth atEnd mode
  have append {i : Instr} {o : KeyOutcome} {kind : EntryKind} {advance : Nat}
      (runs : exec i s = .next (s.carryKey k o)) (effect : o = appendHold kind advance v) :
      typed i kind advance := by
    subst effect
    intro fits
    refine ⟨fun full => leaves_of_refused head runs (appendHold_noPlace (s := v) fits full),
      fun room => ?_⟩
    let u := v.appendComposed kind advance s.seq.underline
    have live := v.entryMade_live kind advance s.seq.underline
    obtain ⟨wordless, -, spec⟩ := v.appendComposed_spec kind advance s.seq.underline
    rw [v.appended_eq live] at wordless
    have lines {α : Type} (f : LineStore → α) := congrArg f wordless
    have unit {α : Type} (f : State → α) := congrArg f spec
    obtain ⟨t, took, leaves, keys⟩ := leaves_keys_of_taken head runs
      (appendHold_appends (s := v) fits room) (v.appendComposed_supply ..)
      (congrArg Intake.keys (v.appendComposed_intake ..))
    refine ⟨u, t, took, leaves, keys, lines fun ls => ls.current.entries, ?_,
      lines fun ls => ls.current.nextId, lines LineStore.cursor, v.appendComposed_ringEntries ..,
      unit State.seq, unit State.corr, unit State.wheel, v.appendComposed_esc ..⟩
    show u = _
    rw [show u = _ from v.appendComposed_rung kind advance s.seq.underline, v.appended_eq live]
    rfl
  have placed {kind : EntryKind} {advance : Nat} :
      placeKey kind advance v = appendHold kind advance v := by
    simp only [placeKey, place]
  refine ⟨fun low high f w wheel width => ?_, fun hk f wheel => ?_, fun hk f wheel => ?_,
    fun hk d need => ?_⟩
  · have runs := exec_character_placed h ho low high wheel width
    refine ⟨append runs placed, fun passes alone => ?_, fun passes carries busy => ?_⟩
    · exact leaves_of_refused head runs (placed.trans (appendHold_alone (s := v) passes alone))
    · exact stays_of_wait runs
        (placed.trans ((appendHold_carries (s := v) passes carries).trans (if_pos busy)))
  · have runs := exec_space_placed h ho hk wheel
    exact ⟨append runs placed, fun passes busy => stays_of_wait runs
      (placed.trans ((appendHold_space (s := v) passes).trans (if_pos busy)))⟩
  · have runs := exec_halfSpace_placed h ho hk wheel
    exact ⟨append runs placed, fun passes => leaves_of_refused head runs
      (placed.trans (appendHold_move (s := v) passes rfl))⟩
  · have tab : placeTab v = appendHold (.tab false) d v := by
      have advance : holdTabAdvance v.esc.tabs v.wheel.mounted v.typingPoint = some d := need
      simp only [placeTab, place, advance]
    have runs := exec_tab h ho hk
    exact ⟨append runs tab, fun passes => leaves_of_refused head runs
      (tab.trans (appendHold_move (s := v) passes rfl))⟩

end Sys2Proof.Machine

namespace Sys2Proof.Machine

/-! ### The blanks at the end of a line (R70, R88) -/

/-- What is dropped from the end of a reversed record: SPACEs and GAPs, and no LIFTING entry (R70, R88). -/
theorem dropTrailing_spec (es : List Entry) :
    (∃ cut, es.filter Entry.live = cut ++ (dropTrailing es).filter Entry.live ∧
        ∀ e ∈ cut, e.kind = .space ∨ e.kind = .gap) ∧
      (∀ e, ((dropTrailing es).filter Entry.live).head? = some e → ¬ (e.kind = .space ∨ e.kind = .gap)) ∧
      (dropTrailing es).Sublist es ∧
      (dropTrailing es).filter (fun e => !e.live) = es.filter fun e => !e.live := by
  induction es with
  | nil => exact ⟨⟨[], rfl, by simp⟩, by simp [dropTrailing], .slnil, rfl⟩
  | cons e es ih =>
    obtain ⟨⟨cut, split, blank⟩, last, sub, lifting⟩ := ih
    unfold dropTrailing
    by_cases live : e.live = true
    · rw [if_pos live]
      by_cases drop : (e.isSpace || e.isGap) = true
      · rw [if_pos drop]
        have kind : e.kind = .space ∨ e.kind = .gap := by
          simpa [Entry.isSpace, Entry.isGap] using drop
        refine ⟨⟨e :: cut, ?_, ?_⟩, last, sub.cons e, ?_⟩
        · rw [List.filter_cons_of_pos live, split, List.cons_append]
        · simpa [kind] using blank
        · rw [lifting, List.filter_cons_of_neg (by simp [live])]
      · rw [if_neg drop]
        refine ⟨⟨[], rfl, by simp⟩, fun x first => ?_, List.Sublist.refl _, rfl⟩
        rw [List.filter_cons_of_pos live, List.head?_cons, Option.some.injEq] at first
        subst first
        simpa [Entry.isSpace, Entry.isGap] using drop
    · rw [if_neg live]
      refine ⟨⟨cut, ?_, blank⟩, ?_, sub.cons_cons e, ?_⟩
      · rw [List.filter_cons_of_neg live, List.filter_cons_of_neg live, split]
      · rw [List.filter_cons_of_neg live]
        exact last
      · simp [live, lifting]

/-- A line without its trailing SPACEs and GAPs has its live entries up to the last that is neither, and its
LIFTING entries (R70, R88). -/
theorem trimLine_spec (es : List Entry) :
    ∃ cut, es.filter Entry.live = (trimLine es).filter Entry.live ++ cut ∧
      (∀ e ∈ cut, e.kind = .space ∨ e.kind = .gap) ∧
      (∀ e, ((trimLine es).filter Entry.live).getLast? = some e → ¬ (e.kind = .space ∨ e.kind = .gap)) ∧
      (trimLine es).Sublist es ∧
      (trimLine es).filter (fun e => !e.live) = es.filter fun e => !e.live := by
  obtain ⟨⟨cut, split, blank⟩, last, sub, lifting⟩ := dropTrailing_spec es.reverse
  have live : (trimLine es).filter Entry.live = ((dropTrailing es.reverse).filter Entry.live).reverse :=
    List.filter_reverse ..
  refine ⟨cut.reverse, ?_, fun e he => blank e (List.mem_reverse.1 he), fun e he => last e ?_, ?_, ?_⟩
  · rw [live, ← List.reverse_append, ← split, ← List.filter_reverse, List.reverse_reverse]
  · rwa [live, List.getLast?_reverse] at he
  · simpa [trimLine] using sub.reverse
  · rw [trimLine, List.filter_reverse, lifting, ← List.filter_reverse, List.reverse_reverse]

/-! ### The bell on the new line (R65, R99) -/

/-- What a request for an alert does depends on the power state and on the Alert Unit alone (R190 to R193). -/
theorem State.requestAlert_alert {s t : State} (supply : t.supply = s.supply) (alert : t.alert = s.alert)
    (a : Alert) : (t.requestAlert a).alert = (s.requestAlert a).alert := by
  have standby : t.machine = .standby ↔ s.machine = .standby := by
    rw [t.machine_eq_standby, s.machine_eq_standby, supply]
  simp only [State.requestAlert, standby, alert]
  split
  · exact alert
  · split
    · exact alert
    · split
      · simp [alert]
      · split
        · simp [alert]
        · exact alert

theorem State.rungAt_alert (s : State) (x : Nat) : (s.rungAt x).alert =
    if s.lines.current.owner = .keyboard ∧ s.esc.bellRung = false ∧ s.esc.right < x + 60 then
      (s.requestAlert .bell).alert else s.alert := by
  unfold State.rungAt
  split <;> rfl

/-- What sounds after an append (R65). -/
theorem State.appendComposed_alert (s : State) (kind : EntryKind) (advance : Nat) (underline : Bool) :
    (s.appendComposed kind advance underline).alert =
      if s.lines.current.owner = .keyboard ∧ s.esc.bellRung = false ∧
          s.esc.right < s.typingPoint + advance + 60 then
        (s.requestAlert .bell).alert else s.alert := by
  have live := s.entryMade_live kind advance underline
  have rings : ((s.appended (s.entryMade kind advance underline)).requestAlert .bell).alert =
      (s.requestAlert .bell).alert :=
    State.requestAlert_alert (s := s) (t := s.appended (s.entryMade kind advance underline)) rfl rfl .bell
  rw [s.appendComposed_rung, State.resegment_alert, State.rungAt_alert, rings, s.appended_eq live]

theorem endOf_append_newEntry (p : Nat) (es : List Entry) (id : Nat) (kind : EntryKind) (start advance : Nat)
    (underline : Bool) : endOf p (es ++ [newEntry id kind start advance underline]) = start + advance := by
  rw [endOf, List.getLast?_concat]
  rfl

/-- The bell is checked on a new line that begins with these entries, with the mark of the old line taken back
(R65, R99): of the settings only the bell mark and the paper offset change. -/
structure BellAnew (s u : State) (begins : List Entry) : Prop where
  esc : u.esc = { s.esc with paperOffset := u.esc.paperOffset, bellRung := u.esc.bellRung }
  rings : begins ≠ [] ∧ s.lines.current.owner = .keyboard ∧ s.esc.right < endOf s.esc.left begins + 60 →
    u.esc.bellRung = true ∧ u.alert = (s.requestAlert .bell).alert
  quiet : ¬ (begins ≠ [] ∧ s.lines.current.owner = .keyboard ∧
      s.esc.right < endOf s.esc.left begins + 60) →
    u.esc.bellRung = false ∧ u.alert = s.alert

/-- A wrap commit takes the bell mark back, and changes nothing else that the bell check reads but the line. -/
theorem State.wrapCommit_unrung (s : State) (remaining carried : List Entry) :
    let v := s.wrapCommit remaining carried
    v.esc = { s.esc with paperOffset := v.esc.paperOffset, bellRung := false } ∧ v.alert = s.alert ∧
      v.supply = s.supply ∧ v.lines.current.owner = s.lines.current.owner := by
  intro v
  let w := s.mapCurrent fun l => { l with entries := s.justified remaining }
  have ended : v = w.commit carried := s.wrapCommit_eq _ _
  have esc : (w.commit carried).esc = _ := congrArg State.esc (w.commit_rest carried)
  obtain ⟨-, owner, -⟩ := w.commit_line carried
  rw [ended]
  refine ⟨?_, w.commit_alert carried, w.commit_supply carried, owner⟩
  rw [esc]
  rfl

theorem State.wrapEmpty_bell (s : State) : BellAnew s s.wrapEmpty [] := by
  obtain ⟨esc, alert, -, -⟩ := s.wrapCommit_unrung s.lines.current.entries []
  refine ⟨?_, fun ⟨filled, _⟩ => absurd rfl filled, fun _ => ⟨?_, alert⟩⟩
  · rw [State.wrapEmpty, esc]
  · rw [State.wrapEmpty, esc]

/-- An entry appended to a new line that begins with nothing else, or behind the carried run (R65). -/
theorem State.appendComposed_bellAnew {s v u : State} {kind : EntryKind} {advance : Nat} {underline : Bool}
    (fresh : v.esc = { s.esc with paperOffset := v.esc.paperOffset, bellRung := false })
    (alert : v.alert = s.alert) (supply : v.supply = s.supply)
    (owner : v.lines.current.owner = s.lines.current.owner) {begins : List Entry} (filled : begins ≠ [])
    (ends : endOf s.esc.left begins = v.typingPoint + advance)
    (esc : u.esc = (v.appendComposed kind advance underline).esc)
    (sounds : u.alert = (v.appendComposed kind advance underline).alert) : BellAnew s u begins := by
  have right : v.esc.right = s.esc.right := by rw [fresh]
  have unrung : v.esc.bellRung = false := by rw [fresh]
  rw [State.appendComposed_esc, unrung, Bool.false_or, owner, right, ← ends] at esc
  rw [State.appendComposed_alert, unrung, State.requestAlert_alert supply alert, alert, owner, right,
    ← ends] at sounds
  refine ⟨by rw [esc, fresh], fun ⟨_, keyboard, near⟩ => ?_, fun no => ?_⟩
  · exact ⟨by simp [esc, keyboard, near], sounds.trans (if_pos ⟨keyboard, rfl, near⟩)⟩
  · have far : ¬ (s.lines.current.owner = .keyboard ∧ s.esc.right < endOf s.esc.left begins + 60) :=
      fun h => no ⟨filled, h⟩
    refine ⟨?_, sounds.trans (if_neg fun ⟨keyboard, _, near⟩ => far ⟨keyboard, near⟩)⟩
    simpa [esc] using far

theorem State.wrapWith_bell {s : State} {advance : Nat} (h : s.canCarry advance = true) (kind : EntryKind)
    (underline : Bool) :
    let run := s.lines.current.carriedRun.1
    BellAnew s (s.wrapWith kind advance underline)
      (shiftFrom s.esc.left run ++ [newEntry (carriedNextId run) kind
        (s.esc.left + (run.map (·.advance)).sum) advance underline]) := by
  intro run
  let w := s.mapCurrent fun l => { l with entries := s.justified s.lines.current.carriedRun.2 }
  have ended : s.wrapCommit s.lines.current.carriedRun.2 run = w.commit run := s.wrapCommit_eq _ _
  have point : (w.commit run).typingPoint = s.esc.left + totalAdvance run :=
    w.commit_endPoint (State.canCarry_live h)
  obtain ⟨fresh, alert, supply, owner⟩ := s.wrapCommit_unrung s.lines.current.carriedRun.2 run
  have esc : (s.wrapWith kind advance underline).esc =
      ((s.wrapCommit s.lines.current.carriedRun.2 run).appendComposed kind advance underline).esc :=
    State.showFrom_esc _ _ _
  have sounds : (s.wrapWith kind advance underline).alert =
      ((s.wrapCommit s.lines.current.carriedRun.2 run).appendComposed kind advance underline).alert :=
    State.showFrom_alert _ _ _
  refine State.appendComposed_bellAnew fresh alert supply owner
    (List.append_ne_nil_of_right_ne_nil _ (List.cons_ne_nil _ _)) ?_ esc sounds
  rw [endOf_append_newEntry, ended, point, totalAdvance]

end Sys2Proof.Machine

namespace Sys2Proof.Machine

/-! ### The entries of the two lines of a wrap (R70, R75) -/

theorem ids_of_shapes {es fs : List Entry} (h : es.map Entry.shape = fs.map Entry.shape) :
    es.map (·.id) = fs.map (·.id) := by
  have ids := congrArg (List.map Entry.id) h
  rwa [List.map_map, List.map_map] at ids

theorem mem_strike_of_bare {es fs : List Entry} (h : es.map Entry.bare = fs.map Entry.bare) {e : Entry}
    (he : e ∈ es) : ∃ x ∈ fs, e.strike = x.strike := by
  obtain ⟨x, hx, same⟩ := List.mem_map.1 (h ▸ List.mem_map_of_mem he : e.bare ∈ fs.map Entry.bare)
  exact ⟨x, hx, (congrArg Entry.strike same).symm⟩

/-- Justification changes no id (R75). -/
theorem justifyLine_ids (justify : Bool) (right : Nat) (mounted : Option Family) (l : Line) :
    (justifyLine justify right mounted l).entries.map (·.id) = l.entries.map (·.id) := by
  unfold justifyLine
  dsimp only
  repeat' split
  · rfl
  · rfl
  · exact map_eq_of_forall₂ (stretched_each ..) fun a b is => by rw [is]
  · rfl

/-- The run carried to a new line, and the CHAR behind it, are HELD (R71, R90). -/
theorem State.carried_held {s : State} {advance : Nat} (h : s.canCarry advance = true) {code : Nat}
    {f : Family} {bold : Bool} (id start width : Nat) (underline : Bool) :
    ∀ e ∈ shiftFrom s.esc.left s.lines.current.carriedRun.1 ++
      [newEntry id (.char code f bold) start width underline], e.strike = some .held := by
  intro e he
  rcases List.mem_append.1 he with run | new
  · obtain ⟨a, mem, moved⟩ := forall₂_mem_right (shiftFrom_moved _ _) run
    rw [moved]
    exact (((s.canCarry_iff _).1 h).2.1 a mem).1
  · rw [List.mem_singleton.1 new]
    rfl

/-! ### The words of a closed line (R108, R110) -/

/-- Closing a line reads and leaves the same in states that hold the same words. -/
theorem SameWords.lineClosed_same {s t : State} (h : SameWords s t) (entries begins : List Entry) :
    SameWords (s.lineClosed entries begins) (t.lineClosed entries begins) := by
  have ended : SameWords
      { s with lines := { s.lines with
        current := { s.lines.current with entries := entries, state := .committed } } }
      { t with lines := { s.lines with
        current := { s.lines.current with entries := entries, state := .committed } } } :=
    ⟨rfl, h.spell, h.queue, h.conflict, h.usable, h.holder, h.suspended⟩
  have closed := ended.resegment s.lines.current.number
  refine ⟨?_, ?_, ?_, ?_, fun r => ?_, fun r => ?_, ?_⟩
  · simp only [State.lineClosed, h.lines, closed.lines]
  · simp only [State.lineClosed, h.lines, closed.spell]
  · simp only [State.lineClosed, h.lines, closed.queue]
  · simp only [State.lineClosed, h.lines, closed.conflict]
  · simp only [State.lineClosed, h.lines, closed.usable]
  · simp only [State.lineClosed, h.lines, closed.holder]
  · have suspended := closed.suspended
    simp only [State.lineClosed, h.lines]
    exact suspended

theorem State.withoutKey_sameWords (s : State) (rest : List Keystroke) : SameWords s (s.withoutKey rest) :=
  ⟨rfl, rfl, rfl, rfl, fun _ => rfl, fun _ => rfl, rfl⟩

/-! ### A key that wraps the line (R69, R70) -/

/-- A key taken with a commit leaves its effect, the ownership examined and the keys behind it. -/
theorem commits_keys_of_taken {s : State} {k : Keystroke} {rest : List Keystroke} {i : Instr}
    {o : KeyOutcome} (h : s.HeadKey k rest) (run : exec i s = .next (s.carryKey k o)) {u : State}
    (ho : o = .take u true) (supply : u.supply = s.supply) (keys : u.intake.keys = rest) :
    ∃ t, exec i s = .next t ∧ KeyCommits u t ∧ t.intake.keys = rest := by
  subst ho
  refine ⟨_, run, State.afterKey_commits ?_, (u.afterKey_keys true).trans keys⟩
  rw [State.stopped, supply]
  exact h.running

theorem State.wrapWith_supply (s : State) (kind : EntryKind) (advance : Nat) (underline : Bool) :
    (s.wrapWith kind advance underline).supply = s.supply := by
  simp only [State.wrapWith, State.showFrom_supply, State.appendComposed_supply, State.wrapCommit_supply]

/-- Settles O31: a wrap is a commit with the run carried over and, for a CHAR, one append behind it. -/
theorem holdLineWraps : Obligations.HoldLineWraps := by
  refine ⟨trimLine_spec, fun s k rest f h ho depth mode atEnd wheel idle ring => ?_⟩
  intro l wraps
  let v := s.withoutKey rest
  have head := h.toHeadKey
  have place : v.place = .appendedHold := State.place_end_hold depth atEnd mode
  have goes : ¬ v.lineFeeding = true := Bool.eq_false_iff.1 idle
  have same := s.withoutKey_sameWords rest
  have wrapped {i : Instr} {o : KeyOutcome} {left starts : List Entry} {next : Nat} {u : State}
      (runs : exec i s = .next (s.carryKey k o)) (effect : o = .take u true) (supply : u.supply = s.supply)
      (opens : Opens v u (v.justified left) starts next) (bell : BellAnew v u starts)
      (held : ∀ e ∈ starts, e.strike = some .held) : wraps i left starts next := by
    let committed :=
      (justifyLine s.esc.justify s.esc.right (some f) { l with entries := trimLine left }).entries
    have shown : v.justified left = committed := by
      simp only [committed, ← wheel]
      rfl
    rw [shown] at opens
    obtain ⟨t, took, commits, keys⟩ := commits_keys_of_taken head runs effect supply
      (congrArg Intake.keys opens.intake)
    obtain ⟨r, newest, number, state, shapes⟩ := opens.newest
    have esc := bell.esc
    refine ⟨u, t, took, commits, keys, opens.intake, opens.number, opens.start, opens.shapes,
      fun other e he => ?_, opens.nextId, opens.cursor, opens.window, opens.offset,
      ⟨r, newest, number, state, ?_, shapes⟩, opens.feeds, ?_, ⟨fun rung => ?_, bell.quiet⟩,
      opens.isOn, opens.hold, opens.actions, opens.corr, opens.tabs, by rw [esc]; rfl, by rw [esc]; rfl,
      opens.marginRelease⟩
    · obtain ⟨x, hx, strike⟩ := mem_strike_of_bare (opens.entries other) he
      exact strike.trans (held x hx)
    · exact (ids_of_shapes shapes).trans (justifyLine_ids ..)
    · exact (opens.words ring).trans
        ((same.lineClosed_same committed starts).resegment s.lines.nextLine).wordView
    · obtain ⟨marked, sounds⟩ := bell.rings rung
      exact ⟨marked, sounds.trans (State.requestAlert_alert (s := s) (t := v) rfl rfl .bell)⟩
  refine ⟨fun low high w width passes carries => ?_, fun hk passes => ?_⟩
  · intro run next
    have effect : placeKey (.char k.code f s.seq.bold) w v =
        .take (v.wrapWith (.char k.code f s.seq.bold) w s.seq.underline) true := by
      simp only [placeKey, place]
      exact (appendHold_carries (s := v) ((s.passesEnd_iff w).1 passes)
        ((s.canCarry_iff w).1 carries)).trans (if_neg goes)
    exact wrapped (exec_character_placed h ho low high wheel width) effect (v.wrapWith_supply ..)
      (State.wrapWith_opens (s := v) carries _ _) (State.wrapWith_bell (s := v) carries _ _)
      (State.carried_held carries _ _ _ _)
  · have effect : placeKey .space f.spaceWidth v = .take v.wrapEmpty true := by
      simp only [placeKey, place]
      exact (appendHold_space (s := v) ((s.passesEnd_iff _).1 passes)).trans
        (if_neg goes)
    exact wrapped (exec_space_placed h ho hk wheel) effect (v.wrapCommit_supply _ _) v.wrapEmpty_opens
      v.wrapEmpty_bell nofun

end Sys2Proof.Machine

namespace Sys2Proof.Machine

/-! ### The view keys, RELOCATE and CLEAR (R105 to R107, R132) -/

/-- The index of a reference column: every live entry before it ends at or before the column, and the
one at it ends beyond (R105 step 3). -/
theorem Line.indexAt_spec (l : Line) (x : Nat) : l.indexAt x ≤ l.live.length ∧
    (∀ e ∈ l.live.take (l.indexAt x), e.endPos ≤ x) ∧
    ∀ e, l.live[l.indexAt x]? = some e → x < e.endPos := by
  unfold Line.indexAt
  cases h : l.live.findIdx? fun e => x < e.endPos with
  | none =>
    have before := List.findIdx?_eq_none_iff.1 h
    refine ⟨Nat.le_refl _, fun e he => ?_, fun e he => ?_⟩
    · simpa using before e (List.mem_of_mem_take he)
    · simp at he
  | some i =>
    obtain ⟨hi, beyond, before⟩ := List.findIdx?_eq_some_iff_getElem.1 h
    simp only [Option.getD_some]
    refine ⟨hi.le, fun e he => ?_, fun e he => ?_⟩
    · obtain ⟨j, hj, rfl⟩ := List.mem_take_iff_getElem.1 he
      simpa using before j (by omega)
    · obtain ⟨_, rfl⟩ := List.getElem?_eq_some_iff.1 he
      simpa using beyond

theorem LineStore.ringAt_lt {ls : LineStore} {d : Nat} {l : Line} (h : ls.ringAt (d + 1) = some l) :
    d < ls.ring.length := by
  have := (List.getElem?_eq_some_iff.1 (show ls.ring.reverse[d]? = some l from h)).1
  simpa using this

@[simp] theorem State.enqueue_nil (s : State) : s.enqueue [] = s := by
  simp [State.enqueue, State.mapSeq]

theorem State.withoutKey_hasRoom (s : State) (rest : List Keystroke) {n : Nat} (h : n ≤ 48) :
    (s.withoutKey rest).hasRoom n = decide (n ≤ s.room) := by
  have room : (s.withoutKey rest).hasRoom n = decide (min n 48 ≤ s.room) := rfl
  rw [room, Nat.min_eq_left h]

/-- CLEAR is decided by its own rule, whoever owns the line, also in HALTED (R30, R31). -/
theorem exec_clear {s : State} {k : Keystroke} {rest : List Keystroke} (h : s.HeadKey k rest)
    (hk : k.code = 30) : exec .clear s = .next (s.carryKey k (actClear k (s.withoutKey rest))) := by
  have unclaimed : s.claimLine k = s := if_neg (by simp [hk, claimsLine, isPrintingKey, isLineKey])
  refine congrArg Host.Outcome.next ?_
  simp only [State.examineKey, h.keys, h.running, h.consuming, unclaimed, State.popKey_eq h.keys]
  simp [hk, clearCode, allowedUnderSource]

/-- Settles O25: both keys show another line if they are not refused and need not wait. -/
theorem viewKeys : Obligations.ViewKeys := by
  intro s k rest h ho d x shows refused full
  have run {ours : Nat → Bool} (act : Keystroke → State → KeyOutcome) (hc : ours k.code = true) :=
    congrArg (Host.Outcome.next (φ := Fault) (ρ := Refusal))
      (State.examineKey_due h hc act fun _ => by simp [ho])
  have room : (s.withoutKey rest).hasRoom 2 = decide (2 ≤ s.room) := s.withoutKey_hasRoom rest (by omega)
  have shown {i : Instr} {o : KeyOutcome} {depth : Nat} {dest : Line}
      (run : exec i s = .next (s.carryKey k o)) (taken : o = .take ((s.withoutKey rest).viewTo depth) false)
      (hd : (s.lines.ringAt depth).getD s.lines.current = dest) : shows i depth dest := by
    obtain ⟨inside, before, beyond⟩ := dest.indexAt_spec x
    refine ⟨dest.indexAt x, ?_⟩
    subst hd
    obtain ⟨t, next, leaves⟩ := leaves_of_taken h.toHeadKey run taken (State.settle_supply _)
    exact ⟨t, inside, before, beyond, next, leaves⟩
  refine ⟨fun hk => ?_, fun hk => ?_⟩
  · have run : exec .lineUp s = _ := run actLineUp (by simp [hk])
    refine ⟨fun hf => leaves_of_refused h.toHeadKey run (if_pos hf), fun hf hr =>
      leaves_of_refused h.toHeadKey run ((if_neg hf).trans (if_pos hr)), fun hf hr waits => ?_,
      fun hf feeding places dest hd => ?_⟩
    · refine stays_of_wait run (((if_neg hf).trans (if_neg (Nat.not_le.2 hr))).trans (if_pos ?_))
      refine waits.imp id fun few => ?_
      rw [room, decide_eq_false (Nat.not_le.2 few)]
    · have free : ¬ ((s.withoutKey rest).lineFeeding = true ∨ (s.withoutKey rest).hasRoom 2 = false) := by
        rw [room, decide_eq_true places]
        exact fun waits => waits.elim (fun f => Bool.false_ne_true (feeding.symm.trans f)) nofun
      refine shown run (((if_neg hf).trans (if_neg (Nat.not_le.2 (LineStore.ringAt_lt hd)))).trans
        (if_neg free)) ?_
      rw [show d + 1 = s.lines.viewDepth + 1 from rfl] at hd
      rw [hd, Option.getD_some]
  · have run : exec .lineDown s = _ := run actLineDown (by simp [hk])
    refine ⟨fun hd => leaves_of_refused h.toHeadKey run (if_pos hd), fun hd few => ?_, fun hd places => ?_⟩
    · exact stays_of_wait run ((if_neg hd).trans (if_neg (by simp [room]; omega)))
    · exact shown run ((if_neg hd).trans (if_pos (by simp [room, places]))) rfl

/-- RELOCATE with the current line displayed moves the cursor alone (R107). -/
theorem State.relocated_here {s : State} (hv : s.lines.viewDepth = 0) : s.relocated =
    ((s.setCursor s.lines.current.live.length).enqueue s.relocateActions).settle := by
  simp only [State.relocated, if_pos hv]

/-- The cursor moved in the current line, which stays displayed. -/
theorem State.setCursor_displayed {s : State} (rest : List Keystroke) (hv : s.lines.viewDepth = 0) (c : Nat) :
    { s.withoutKey rest with
      lines := { s.lines with viewDepth := 0, cursor := c }
      disp := { s.disp with transient := none, window := windowFor s.disp.window c } } =
      (s.withoutKey rest).setCursor c := by
  rw [← hv]
  rfl

/-- Settles O26: RELOCATE and CLEAR have one effect, and differ in the ownership they need. -/
theorem relocateAndClear : Obligations.RelocateAndClear := by
  intro s k rest h hm n back feed relocates
  let v := s.withoutKey rest
  have moves {i : Instr} (run : exec i s = .next (s.carryKey k (actRelocate k v))) : relocates i := by
    have room : v.hasRoom v.relocateActions.length = decide (s.relocateActions.length ≤ s.room) :=
      s.withoutKey_hasRoom rest (by unfold State.relocateActions; (repeat' split) <;> simp)
    have taken (places : s.relocateActions.length ≤ s.room) : actRelocate k v = .take v.relocated false :=
      if_pos (by rw [room, decide_eq_true places])
    have waits (few : s.room < s.relocateActions.length) : actRelocate k v = .wait :=
      if_neg (by rw [room, decide_eq_false (by omega)]; nofun)
    refine ⟨fun hv mode => ?_, fun hv mode => ?_, fun hv => ?_⟩
    · have actions : s.relocateActions = [] := by simp [State.relocateActions, hv, mode]
      have effect : v.relocated = (back s.disp.window).settle := by
        rw [State.relocated_here (s := v) hv, show v.relocateActions = [] from actions, State.enqueue_nil,
          ← State.setCursor_displayed rest hv]
        rfl
      exact effect ▸ leaves_of_taken h run (taken (by simp [actions])) v.relocated_supply
    · have actions : s.relocateActions = [.move s.typingPoint] := by simp [State.relocateActions, hv, mode]
      have effect : v.relocated = ((back s.disp.window).enqueue [.move s.typingPoint]).settle := by
        rw [State.relocated_here (s := v) hv, show v.relocateActions = _ from actions,
          ← State.setCursor_displayed rest hv]
        rfl
      exact ⟨fun few => stays_of_wait run (waits (by simp [actions, few])),
        fun places => effect ▸ leaves_of_taken h run (taken (by simpa [actions] using places)) v.relocated_supply⟩
    · have actions : s.relocateActions = [feed, .move s.typingPoint] := if_neg hv
      have effect : v.relocated = ((back 0).enqueue [feed, .move s.typingPoint]).settle := by
        rw [State.relocated, if_neg (show v.lines.viewDepth ≠ 0 from hv),
          show v.relocateActions = _ from actions]
        rfl
      exact ⟨fun few => stays_of_wait run (waits (by simp [actions, few])),
        fun places => effect ▸ leaves_of_taken h run (taken (by simpa [actions] using places)) v.relocated_supply⟩
  refine ⟨fun hk ho => moves ?_, fun hk => moves ?_⟩
  · have due : s.KeyDue k rest := ⟨h, hm, by simp [ho, Owner.source]⟩
    exact congrArg _ (State.examineKey_due due (by simp [hk]) actRelocate fun _ => by simp [ho])
  · rw [exec_clear h hk, actClear, if_neg (show v.machine ≠ .halted from hm)]

/-! ### STRIKE, MOVE and FEED complete (R90, R119, R121) -/

/-- Settles O45: a completion is the head's leaving, its count, and the settling. -/
theorem actionsComplete : Obligations.ActionsComplete := by
  refine ⟨fun s => ⟨fun held => if_pos ?_, fun hp hw => if_neg ?_⟩, fun s d q hr work => ?_⟩
  · obtain held | held := held <;> simp [held, MechState.heldUp]
  · cases hm : s.seq.mech <;> simp_all [MechState.heldUp]
  · intro done petal counted
    have left {a : Action} (hq : s.seq.queue = a :: q) (x p : Nat) : s.headDone x p = done x p := by
      simp only [State.headDone, State.mapSeq, hq, List.tail_cons, done]
    refine ⟨fun b hq => ?_, fun x hq => ?_, fun k x hq => ?_⟩
    · simp only [exec, execStrikeComplete, State.whenRunning, hr, work, hq, left hq]
      rfl
    · simp only [exec, execMoveComplete, State.whenRunning, hr, work, hq, left hq]
      rfl
    · simp only [exec, execFeedComplete, State.whenRunning, hr, work, hq, left hq]
      rfl

end Sys2Proof.Machine

namespace Sys2Proof.Machine

/-! ### One action fed from the mark (R90, R102, R114) -/

/-- A change of the line of a number, by what it makes of the line that stands there. -/
theorem LineStore.updateLine_found {ls : LineStore} {n : Word} {l : Line} (h : ls.find n = some l)
    (f : Line → Line) : ls.updateLine n f = ls.updateLine n fun _ => f l := by
  have first (ring : List Line) (h : ring.find? (·.number == n) = some l) :
      updateFirst n f ring = updateFirst n (fun _ => f l) ring := by
    induction ring with
    | nil => rfl
    | cons x xs ih =>
      by_cases hx : x.number = n
      · simp only [List.find?_cons, hx, beq_self_eq_true, Option.some.injEq] at h
        rw [updateFirst, updateFirst, if_pos hx, if_pos hx, h]
      · simp only [List.find?_cons, beq_eq_false_iff_ne.2 hx] at h
        simp [updateFirst, hx, ih h]
  unfold LineStore.find at h
  unfold LineStore.updateLine
  split at h
  · next hc => rw [if_pos hc, if_pos hc, Option.some.inj h]
  · next hc => rw [if_neg hc, if_neg hc, first _ h]

/-- The entry of an id, with its first action enqueued if it was HELD (R90). -/
def State.begun (s : State) (line : Word) (id : Nat) (x : Entry) : Entry :=
  if x.id = id ∧ x.strike = some .held then x.begin (s.underscoreWidth line x.id) else x

/-- A line with the first action of an entry enqueued (R90). -/
def State.lineBegun (s : State) (l : Line) (id : Nat) : Line :=
  { l with entries := l.entries.map (s.begun l.number id) }

theorem State.begun_eq (s : State) (line : Word) (id : Nat) (x : Entry) : s.begun line id x =
    if x.id = id ∧ x.strike = some .held then s.beginEntry line x else x := by
  unfold State.begun
  split
  · next h => simp [State.beginEntry, h.2]
  · rfl

@[simp] theorem State.begun_id (s : State) (line : Word) (id : Nat) (x : Entry) :
    (s.begun line id x).id = x.id := by
  unfold State.begun
  split <;> rfl

/-- A HELD entry that has been begun is no longer HELD; any other entry stays as it is. -/
theorem State.begun_held {s : State} {line : Word} {id : Nat} {x : Entry}
    (h : (s.begun line id x).strike = some .held) : s.begun line id x = x ∧ x.strike = some .held := by
  unfold State.begun at h ⊢
  split at h
  · cases h
  · next no => exact ⟨if_neg no, h⟩

/-- The state with an action enqueued and other lines. -/
def State.fedWith (s : State) (a : Action) (lines : LineStore) : State :=
  { s with seq := { s.seq with queue := s.seq.queue ++ [a] }, lines := lines }

section

variable {s : State} {m : FeedMark} {l : Line} {e : Entry} {id sub : Nat}

/-- The lines with an entry's first action enqueued and the mark at a place. -/
def State.linesBegun (s : State) (l : Line) (id : Nat) (mark : Option FeedMark) : LineStore :=
  { s.lines.updateLine l.number fun _ => s.lineBegun l id with mark := mark }

theorem State.feedOne_entry (hp : m.place = .action id sub) (hl : s.lines.find m.line = some l)
    (he : l.entry? id = some e) :
    (((s.begun l.number id e).blows l.number)[sub]? = none →
      s.feedOne m = { s with lines := s.linesBegun l id (nextMark m (s.lineBegun l id)) }) ∧
    ∀ b, ((s.begun l.number id e).blows l.number)[sub]? = some b →
      s.feedOne m = s.fedWith (.strike b) (s.linesBegun l id
        (if sub + 1 < (s.begun l.number id e).total then some { m with place := .action id (sub + 1) }
         else nextMark m (s.lineBegun l id))) := by
  have hn : s.lines.find l.number = some l := by rw [LineStore.find_number hl]; exact hl
  have begun : (fun x : Entry => if x.id = id ∧ x.strike = some .held then s.beginEntry l.number x else x) =
      s.begun l.number id := (funext (s.begun_eq l.number id)).symm
  have lines : s.lines.updateLine l.number (fun l' =>
      { l' with entries := l'.entries.map (s.begun l.number id) }) =
      s.lines.updateLine l.number fun _ => s.lineBegun l id := LineStore.updateLine_found hn _
  refine ⟨fun hb => ?_, fun b hb => ?_⟩
  all_goals
    simp only [State.feedOne, hp, hl, he, begun, ← s.begun_eq l.number id e, State.updateLine, State.mapLines,
      lines, hb]
    rfl

theorem nextMark_none (hf : m.final = none) : nextMark m l = none := by simp [nextMark, hf]

theorem nextMark_held (hf : m.final ≠ none) {before after : List Entry}
    (split : l.entries = before ++ e :: after) (held : e.strike = some .held)
    (first : ∀ x ∈ before, x.strike ≠ some .held) :
    nextMark m l = some { m with place := .action e.id 0 } := by
  obtain ⟨f, hf⟩ := Option.ne_none_iff_exists'.1 hf
  have found : l.entries.find? (fun e => e.strike == some .held) = some e :=
    List.find?_eq_some_iff_append.2 ⟨by simp [held], before, after, split, by simpa using first⟩
  simp [nextMark, hf, found]

theorem nextMark_final (hf : m.final ≠ none) (none : ∀ x ∈ l.entries, x.strike ≠ some .held) :
    nextMark m l = some { m with place := .finalFeed } := by
  obtain ⟨f, hf⟩ := Option.ne_none_iff_exists'.1 hf
  have found : l.entries.find? (fun e => e.strike == some .held) = Option.none := by simpa using none
  simp [nextMark, hf, found]

theorem State.pump_eq (hm : s.lines.mark = some m) (free : 0 < s.freePlaces) :
    s.pump = (s.feedOne m).pumpUpTo 95 := by
  show s.pumpUpTo (95 + 1) = _
  rw [State.pumpUpTo, hm]
  exact if_neg free.ne'

/-- The action that takes the first free place; it is the only one when no other place is free (R102). -/
theorem State.pump_feeds {a : Action} {lines : LineStore} (hm : s.lines.mark = some m)
    (free : 0 < s.freePlaces) (fed : s.feedOne m = s.fedWith a lines) :
    (s.freePlaces = 1 → s.pump = s.fedWith a lines) ∧
      (s.fedWith a lines).seq.queue <+: s.pump.seq.queue := by
  rw [State.pump_eq hm free, fed]
  refine ⟨fun one => ?_, (State.pumpUpTo_feeding _ _).actions⟩
  have full : (s.fedWith a lines).freePlaces = 0 := by
    simp only [State.freePlaces, State.fedWith, List.length_append, List.length_singleton] at one ⊢
    omega
  rw [State.pumpUpTo]
  split
  · rfl
  · exact if_pos full

end

/-! ### The feeding ends with no free place or no mark (R102) -/

/-- An entry that has strikes, if it is HELD (R87). -/
def Entry.Strikes (e : Entry) : Prop :=
  e.strike = some .held → e.kind.isChar = true ∨ e.underline = true

/-- A line whose HELD entries have strikes and whose entries differ in their ids (R87, R90). -/
structure Line.Feedable (l : Line) : Prop where
  ids : (l.entries.map (·.id)).Nodup
  held : ∀ e ∈ l.entries, e.Strikes

/-- The line that the mark names is there and feedable. -/
def State.Feedable (s : State) : Prop :=
  ∀ m, s.lines.mark = some m → ∃ l, s.lines.find m.line = some l ∧ l.Feedable

/-- The entry that the mark names has the action that the mark names: a HELD one its first, another one
each of its strikes. -/
structure Entry.Offers (e : Entry) (line : Word) (sub : Nat) : Prop where
  first : e.strike = some .held → sub = 0
  later : e.strike ≠ some .held → sub < (e.blows line).length ∧ e.total ≤ (e.blows line).length

/-- The mark names an action that is there. -/
def State.MarkReady (s : State) : Prop :=
  ∀ m, s.lines.mark = some m → match m.place with
    | .finalFeed => m.final ≠ none
    | .action id sub => ∃ l e, s.lines.find m.line = some l ∧ l.entry? id = some e ∧ e.Offers l.number sub

theorem underscorePositions_ne_nil (start advance uw : Nat) : underscorePositions start advance uw ≠ [] := by
  unfold underscorePositions
  split <;> simp

theorem Entry.strikeList_ne_nil {e : Entry} (h : e.kind.isChar = true ∨ e.underline = true) (uw : Nat) :
    e.strikeList uw ≠ [] := by
  obtain h | h := h
  · cases hk : e.kind <;> simp_all [EntryKind.isChar, Entry.strikeList]
  · simp [Entry.strikeList, h, underscorePositions_ne_nil]

theorem Entry.blows_length (e : Entry) (line : Word) :
    (e.blows line).length = (e.strikeList (e.underscore.getD 0)).length := by
  simp [Entry.blows]

/-- An entry begun has as many strikes as its total says (R90, R115). -/
theorem Entry.begin_blows (e : Entry) (uw : Nat) (line : Word) :
    ((e.begin uw).blows line).length = (e.begin uw).total := by
  rw [Entry.blows_length]
  cases h : e.underline <;> simp [Entry.begin, Entry.strikeList, h]

theorem Line.entry?_of_mem {l : Line} (ids : (l.entries.map (·.id)).Nodup) {e : Entry} (he : e ∈ l.entries) :
    l.entry? e.id = some e := by
  obtain ⟨before, after, split⟩ := List.append_of_mem he
  refine List.find?_eq_some_iff_append.2 ⟨by simp, before, after, split, fun x hx => ?_⟩
  rw [split, List.map_append] at ids
  have apart := (List.nodup_append.1 ids).2.2 x.id (List.mem_map_of_mem hx) e.id (by simp)
  simpa using apart

theorem State.lineBegun_feedable {s : State} {l : Line} (h : l.Feedable) (id : Nat) :
    (s.lineBegun l id).Feedable := by
  refine ⟨?_, fun e he held => ?_⟩
  · have same : (s.lineBegun l id).entries.map (·.id) = l.entries.map (·.id) := by
      simp [State.lineBegun, Function.comp_def]
    rw [same]
    exact h.ids
  · obtain ⟨x, hx, rfl⟩ := List.mem_map.1 he
    obtain ⟨same, was⟩ := State.begun_held held
    rw [same]
    exact h.held x hx was

theorem State.linesBegun_find {s : State} {l : Line} {n : Word} (hl : s.lines.find n = some l) (id : Nat)
    (mark : Option FeedMark) : (s.linesBegun l id mark).find n = some (s.lineBegun l id) := by
  obtain rfl := LineStore.find_number hl
  have moved := LineStore.find_updateLine (f := fun l' : Line =>
    { l' with entries := l'.entries.map (s.begun l.number id) }) (fun _ => rfl) s.lines l.number l.number
  rw [LineStore.updateLine_found hl, hl, Option.map_some, if_pos rfl] at moved
  exact moved

/-- The mark moved on names an action that is there (R102). -/
theorem nextMark_ready {s : State} {m : FeedMark} {l : Line} (hl : s.lines.find m.line = some l)
    (feedable : l.Feedable) (hm : s.lines.mark = nextMark m l) : s.MarkReady := by
  intro m' hm'
  rw [hm] at hm'
  have line := nextMark_line hm'
  unfold nextMark at hm'
  split at hm'
  · cases hm'
  · next f hf =>
    split at hm'
    · next e he =>
      obtain rfl := Option.some.inj hm'
      have held : e.strike = some .held := by simpa using List.find?_some he
      exact ⟨l, e, hl, Line.entry?_of_mem feedable.ids (List.mem_of_find?_eq_some he),
        fun _ => rfl, fun no => absurd held no⟩
    · obtain rfl := Option.some.inj hm'
      simp [hf]

theorem State.feedable_of_line {s : State} {m : FeedMark} {l : Line} (hl : s.lines.find m.line = some l)
    (feedable : l.Feedable) (hm : ∀ m', s.lines.mark = some m' → m'.line = m.line) : s.Feedable :=
  fun m' hm' => ⟨l, by rw [hm m' hm']; exact hl, feedable⟩

/-- One step of the feeding takes a free place, or makes a mark that named no action name one. -/
theorem State.feedOne_progress {s : State} {m : FeedMark} (hm : s.lines.mark = some m) (h : s.Feedable) :
    (s.feedOne m).Feedable ∧
      (((s.feedOne m).freePlaces = s.freePlaces - 1 ∧ (s.MarkReady → (s.feedOne m).MarkReady)) ∨
        ((s.feedOne m).freePlaces = s.freePlaces ∧ (s.feedOne m).MarkReady ∧ ¬ s.MarkReady)) := by
  obtain ⟨l, hl, feedable⟩ := h m hm
  have unmarked {t : State} (gone : t.lines.mark = none) : t.Feedable ∧ t.MarkReady :=
    ⟨fun m' k => absurd (gone.symm.trans k) nofun, fun m' k => absurd (gone.symm.trans k) nofun⟩
  have place (a : Action) (lines : LineStore) : (s.fedWith a lines).freePlaces = s.freePlaces - 1 := by
    simp only [State.freePlaces, State.fedWith, List.length_append, List.length_singleton]
    omega
  cases hp : m.place with
  | finalFeed =>
    cases hf : m.final with
    | none =>
      have fed : s.feedOne m = s.setMark none := by simp only [State.feedOne, hp, hf]
      rw [fed]
      refine ⟨(unmarked rfl).1, .inr ⟨rfl, (unmarked rfl).2, fun ready => ?_⟩⟩
      have := ready m hm
      rw [hp] at this
      exact this hf
    | some f =>
      have fed : s.feedOne m = s.fedWith (.feed f.1 f.2) { s.lines with mark := none } := by
        simp only [State.feedOne, hp, hf]
        rfl
      rw [fed]
      exact ⟨(unmarked rfl).1, .inl ⟨place _ _, fun _ => (unmarked rfl).2⟩⟩
  | action id sub =>
    cases he : l.entry? id with
    | none =>
      have fed : s.feedOne m = s.setMark (nextMark m l) := by simp only [State.feedOne, hp, hl, he]
      rw [fed]
      refine ⟨State.feedable_of_line hl feedable fun _ => nextMark_line,
        .inr ⟨rfl, nextMark_ready (s := s.setMark (nextMark m l)) hl feedable rfl, fun ready => ?_⟩⟩
      have := ready m hm
      rw [hp] at this
      obtain ⟨l', e, hl', he', -⟩ := this
      rw [hl] at hl'
      cases hl'
      rw [he] at he'
      cases he'
    | some e =>
      have begunOf := State.lineBegun_feedable (s := s) feedable id
      have found (mark : Option FeedMark) := State.linesBegun_find hl id mark
      obtain rfl : e.id = id := by simpa using List.find?_some he
      have there : l.entries.find? (fun x => x.id == e.id) = some e := he
      have strikes : e.Strikes := feedable.held e (List.mem_of_find?_eq_some there)
      have offered (ready : s.MarkReady) : e.Offers l.number sub := by
        have := ready m hm
        rw [hp] at this
        obtain ⟨l', e', hl', he', offers⟩ := this
        rw [hl] at hl'
        cases hl'
        rw [he] at he'
        cases he'
        exact offers
      have blows (offers : e.Offers l.number sub) :
          sub < ((s.begun l.number e.id e).blows l.number).length ∧
            (s.begun l.number e.id e).total ≤ ((s.begun l.number e.id e).blows l.number).length := by
        by_cases held : e.strike = some .held
        · rw [State.begun, if_pos ⟨rfl, held⟩, Entry.begin_blows, offers.first held]
          exact ⟨List.length_pos_iff.2 (Entry.strikeList_ne_nil (strikes held) _), Nat.le_refl _⟩
        · rw [State.begun, if_neg fun k => held k.2]
          exact offers.later held
      have fed := State.feedOne_entry hp hl he
      cases hb : ((s.begun l.number e.id e).blows l.number)[sub]? with
      | none =>
        rw [fed.1 hb]
        refine ⟨State.feedable_of_line (found _) begunOf fun _ => nextMark_line,
          .inr ⟨rfl, nextMark_ready (s := { s with lines := s.linesBegun l e.id _ }) (found _) begunOf rfl,
            fun ready => ?_⟩⟩
        have := (blows (offered ready)).1
        rw [List.getElem?_eq_none_iff] at hb
        omega
      | some b =>
        rw [fed.2 b hb]
        have inLine : ∀ m', (s.fedWith (.strike b) (s.linesBegun l e.id
            (if sub + 1 < (s.begun l.number e.id e).total then some { m with place := .action e.id (sub + 1) }
             else nextMark m (s.lineBegun l e.id)))).lines.mark = some m' → m'.line = m.line := by
          intro m' k
          obtain ⟨-, k⟩ | ⟨-, k⟩ := ite_eq_iff.1 k
          · cases k; rfl
          · exact nextMark_line k
        refine ⟨State.feedable_of_line (found _) begunOf inLine, .inl ⟨place _ _, fun ready => ?_⟩⟩
        by_cases more : sub + 1 < (s.begun l.number e.id e).total
        · rw [if_pos more]
          intro m' k
          obtain rfl := Option.some.inj k
          refine ⟨s.lineBegun l e.id, s.begun l.number e.id e, found _, ?_, fun held => ?_, fun _ => ?_⟩
          · have mem : s.begun l.number e.id e ∈ (s.lineBegun l e.id).entries :=
              List.mem_map_of_mem (List.mem_of_find?_eq_some there)
            simpa using Line.entry?_of_mem begunOf.ids mem
          · obtain ⟨same, was⟩ := State.begun_held held
            rw [State.begun, if_pos ⟨rfl, was⟩] at held
            cases held
          · exact ⟨by have := (blows (offered ready)).2; exact Nat.lt_of_lt_of_le more this,
              (blows (offered ready)).2⟩
        · rw [if_neg more]
          exact nextMark_ready (s := s.fedWith _ (s.linesBegun l e.id _)) (found _) begunOf rfl

/-- The feeding that has as many steps as places are free, and one more where the mark names no action,
ends with no free place or without a mark. -/
theorem State.pumpUpTo_ends (n : Nat) : ∀ {s : State}, s.Feedable →
    (s.freePlaces ≤ n ∧ s.MarkReady) ∨ s.freePlaces + 1 ≤ n →
    (s.pumpUpTo n).freePlaces = 0 ∨ (s.pumpUpTo n).lines.mark = none := by
  induction n with
  | zero =>
    intro s _ enough
    exact .inl (by simp only [State.pumpUpTo]; omega)
  | succ n ih =>
    intro s h enough
    unfold State.pumpUpTo
    split
    · next hm => exact .inr hm
    · next m hm =>
      split
      · next full => exact .inl full
      · next free =>
        obtain ⟨feedable, ⟨taken, ready⟩ | ⟨same, ready, unready⟩⟩ := State.feedOne_progress hm h
        · refine ih feedable ?_
          obtain ⟨few, was⟩ | few := enough
          · exact .inl ⟨by omega, ready was⟩
          · exact .inr (by omega)
        · refine ih feedable (.inl ⟨?_, ready⟩)
          obtain ⟨_, was⟩ | few := enough
          · exact absurd was unready
          · omega

/-- Settles O51: one step of the feeding, case by case, and the count of the steps. -/
theorem feedingMarkFeeds : Obligations.FeedingMarkFeeds := by
  refine ⟨fun s h => ?_, fun s m hm free => ?_, fun s m l hm hl ids held => ?_⟩
  · obtain none | full := h
    · show s.pumpUpTo (95 + 1) = s
      rw [State.pumpUpTo, none]
    · exact State.pump_full full
  · intro feeds
    have fed {a : Action} {lines : LineStore} (h : s.feedOne m = s.fedWith a lines) : feeds a lines :=
      State.pump_feeds hm free h
    refine ⟨fun d x hp hf => fed ?_, ?_⟩
    · simp only [State.feedOne, hp, hf]
      rfl
    · intro l e sub hp hl he begun line e' b hb place
      have one := (State.feedOne_entry hp hl he).2 b hb
      have last (total : e'.total ≤ sub + 1) : s.feedOne m = s.fedWith (.strike b) (place (nextMark m line)) := by
        exact one.trans (congrArg _ (congrArg _ (if_neg (Nat.not_lt.2 total))))
      refine ⟨fun more => fed ?_, fun total hf => fed ?_, fun total hf =>
        ⟨fun before next after split held first => fed ?_, fun none => fed ?_⟩⟩
      · exact one.trans (congrArg _ (congrArg _ (if_pos more)))
      · rw [last total, nextMark_none hf]
      · rw [last total, nextMark_held hf split held first]
      · rw [last total, nextMark_final hf none]
  · refine State.pumpUpTo_ends 96 (State.feedable_of_line hl ⟨ids, held⟩ fun m' k => ?_) (.inr ?_)
    · rw [hm] at k
      cases k
      rfl
    · have : s.freePlaces ≤ 48 := Nat.sub_le _ _
      omega

end Sys2Proof.Machine

namespace Sys2Proof.Machine

/-! ### The targets of the correcting keys (R139 to R142) -/

/-- The targets of CORRECT, or of WORD CORRECT, in live entries with the cursor and the reference entry at
these indices. -/
def keyTargets (word : Bool) (live : List Entry) (cursor reference : Nat) : List Entry :=
  if word then wordTargets live (decide (live.length ≤ cursor)) reference else charTargets live reference

section

variable {s : State} {word : Bool}

theorem State.chooseAround_lineStart (depth : s.lines.viewDepth = 0) (mode : s.lines.displayed.mode = .hold)
    (live : s.lines.displayed.live ≠ []) (start : s.lines.cursor = 0) :
    s.chooseAround word = .refuse .lineStart := by
  simp [State.chooseAround, depth, mode, live, start]

theorem State.chooseAround_hold (depth : s.lines.viewDepth = 0) (mode : s.lines.displayed.mode = .hold)
    (live : s.lines.displayed.live ≠ []) (inside : 1 ≤ s.lines.cursor) : s.chooseAround word =
      chosen false s.lines.displayed
        (keyTargets word s.lines.displayed.live s.lines.cursor (s.lines.cursor - 1)) := by
  simp [State.chooseAround, depth, mode, live, Nat.ne_of_gt inside, keyTargets]

theorem State.chooseAround_other (other : ¬ (s.lines.viewDepth = 0 ∧ s.lines.displayed.mode = .hold))
    (live : s.lines.viewDepth = 0 → s.lines.displayed.live ≠ []) : s.chooseAround word =
      chosen false s.lines.displayed (keyTargets word s.lines.displayed.live s.lines.cursor
        (min s.lines.cursor (s.lines.displayed.live.length - 1))) := by
  have full : ¬ (s.lines.viewDepth = 0 ∧ s.lines.displayed.live = []) := fun h => live h.1 h.2
  simp only [State.chooseAround, if_neg other, if_neg full, keyTargets]

theorem LineStore.ringAt_newest (ls : LineStore) : ls.ringAt 1 = ls.ring.getLast? := by
  rw [LineStore.ringAt, if_neg Nat.one_ne_zero, List.getLast?_eq_head?_reverse, List.head?_eq_getElem?]

/-- The cases of R104 up to the targets, with the current line without live entries. -/
theorem State.chooseAround_empty (depth : s.lines.viewDepth = 0) (live : s.lines.displayed.live = []) :
    (s.lines.displayed.entries ≠ [] ∨ s.lineFeeding = true → s.chooseAround word = .wait) ∧
    (s.lines.displayed.entries = [] → s.lineFeeding = false →
      (s.lines.ring = [] → s.chooseAround word = .refuse .nothingToCorrect) ∧
      ∀ r, s.lines.ring.getLast? = some r →
        (r.owner = .source1 ∨ r.owner = .source2 → s.chooseAround word = .refuse .cannotReopen) ∧
        (r.owner ≠ .source1 → r.owner ≠ .source2 → s.chooseAround word = chosen true
          { r with state := .reopened, mode := if s.lines.hold then .hold else .direct }
          (keyTargets word r.live r.live.length (r.live.length - 1)))) := by
  have reopens : s.chooseAround word = s.chooseReopen word := by
    simp [State.chooseAround, depth, live]
  rw [reopens, LineStore.displayed_current depth, State.chooseReopen, LineStore.ringAt_newest]
  refine ⟨fun waits => ?_, fun empty feeding => ?_⟩
  · by_cases full : s.lines.current.entries = []
    · simp [full, waits.resolve_left (not_not.2 full)]
    · simp [full]
  · simp only [empty, feeding]
    refine ⟨fun ring => by simp [ring], fun r newest => ?_⟩
    rw [newest]
    refine ⟨fun source => ?_, fun no1 no2 => ?_⟩
    · obtain source | source := source <;> simp [source, Owner.source]
    · have none : r.owner.source = Option.none := by cases h : r.owner <;> simp_all [Owner.source]
      simp [none, keyTargets, State.asReopened, LineStore.keyboardMode]

end

/-! ### The reference entry of CORRECT (R140) -/

theorem chosen_targets (reopen : Bool) (l : Line) {targets : List Entry} (h : targets ≠ []) :
    chosen reopen l targets = .targets reopen l targets := by
  cases targets with
  | nil => exact absurd rfl h
  | cons => rfl

theorem chosen_char (reopen : Bool) (l : Line) {live : List Entry} {e : Entry} {i c : Nat}
    (h : live[i]? = some e) : chosen reopen l (keyTargets false live c i) =
      if e.kind = .gap then .refuse .nothingToCorrect else .targets reopen l [e] := by
  by_cases gap : e.kind = .gap <;>
    simp [keyTargets, charTargets, h, Entry.isGap, gap, chosen]

/-! ### The words of WORD CORRECT (R141) -/

/-- A SPACE or a MOVE. -/
def Entry.isBlank (e : Entry) : Bool := e.isSpace || e.kind.isMove

theorem Entry.not_isBlank_of_isChar {e : Entry} (h : e.kind.isChar = true) : e.isBlank = false := by
  cases hk : e.kind <;> simp_all [EntryKind.isChar, Entry.isBlank, Entry.isSpace, EntryKind.isMove]

/-- The longest part at the end of a list that a test holds on, when the entry before it fails the test. -/
theorem takeWhile_reverse_append {α : Type} {p : α → Bool} {before run : List α} (all : ∀ x ∈ run, p x = true)
    (stop : ∀ x, before.getLast? = some x → p x = false) :
    ((before ++ run).reverse.takeWhile p).reverse = run := by
  have nil : before.reverse.takeWhile p = [] := by
    cases h : before.reverse with
    | nil => rfl
    | cons x xs =>
      have last : before.getLast? = some x := by rw [List.getLast?_eq_head?_reverse, h]; rfl
      exact List.takeWhile_cons_of_neg (by simp [stop x last])
  rw [List.reverse_append, List.takeWhile_append_of_pos (by simpa using all), nil, List.append_nil,
    List.reverse_reverse]

/-- The CHARs of a run around an index, which stand before it and from it on. -/
theorem chars_around {before run after : List Entry} {i : Nat} (chars : ∀ e ∈ run, e.kind.isChar = true)
    (first : ∀ e, before.getLast? = some e → e.kind.isChar = false)
    (last : ∀ e, after.head? = some e → e.kind.isChar = false)
    (low : before.length ≤ i) (high : i ≤ before.length + run.length) :
    charsBefore (before ++ run ++ after) i = run.take (i - before.length) ∧
      charsFrom (before ++ run ++ after) i = run.drop (i - before.length) := by
  refine ⟨?_, ?_⟩
  · have part : (before ++ run ++ after).take i = before ++ run.take (i - before.length) := by
      rw [List.append_assoc, List.take_append, List.take_of_length_le low, List.take_append_of_le_length (by omega)]
    rw [charsBefore, part]
    exact takeWhile_reverse_append (fun e he => chars e (List.mem_of_mem_take he)) first
  · have part : (before ++ run ++ after).drop i = run.drop (i - before.length) ++ after := by
      rw [List.append_assoc, List.drop_append, List.drop_eq_nil_of_le low, List.nil_append,
        List.drop_append_of_le_length (by omega)]
    have stop : after.takeWhile (fun e => e.kind.isChar) = [] := by
      cases after with
      | nil => rfl
      | cons x xs => exact List.takeWhile_cons_of_neg (by simp [last x rfl])
    rw [charsFrom, part, List.takeWhile_append_of_pos fun e he => chars e (List.mem_of_mem_drop he), stop,
      List.append_nil]

/-- At the end of a line: the SPACEs and MOVEs there and the run of CHARs before them (R141). -/
theorem wordTargets_end {before run blanks : List Entry} (chars : ∀ e ∈ run, e.kind.isChar = true)
    (blank : ∀ e ∈ blanks, e.isBlank = true)
    (first : ∀ e, before.getLast? = some e → e.kind.isChar = false ∧ (run = [] → e.isBlank = false)) (i : Nat) :
    wordTargets (before ++ run ++ blanks) true i = run ++ blanks := by
  have trailing : trailingBlanks (before ++ run ++ blanks) = blanks := by
    refine takeWhile_reverse_append (before := before ++ run) blank fun e he => ?_
    cases hr : run.getLast? with
    | none =>
      obtain rfl := List.getLast?_eq_none_iff.1 hr
      rw [List.append_nil] at he
      exact (first e he).2 rfl
    | some c =>
      rw [List.getLast?_append, hr] at he
      obtain rfl := Option.some.inj he
      exact Entry.not_isBlank_of_isChar (chars c (List.mem_of_getLast? hr))
  have here : charsBefore (before ++ run ++ blanks) (before ++ run).length = run := by
    rw [charsBefore, List.take_left]
    exact takeWhile_reverse_append chars fun e he => (first e he).1
  simp only [wordTargets, if_true, trailing]
  rw [List.length_append (as := before ++ run), Nat.add_sub_cancel, here]

theorem wordTargets_inside {live : List Entry} {e : Entry} {i : Nat} (h : live[i]? = some e) :
    wordTargets live false i = if e.kind.isChar then charsBefore live i ++ charsFrom live i else [] := by
  simp [wordTargets, h]

/-! ### The newest FLAGGED word (R142) -/

/-- A word newer than every other one of some words is the newest of them. -/
theorem foldl_newerWord {counter : Word} {w : WordRec} (ws : List WordRec) (v : WordRec) (mem : w ∈ v :: ws)
    (newest : ∀ u ∈ v :: ws, u ≠ w → (counter - w.serial).toNat < (counter - u.serial).toNat) :
    ws.foldl (newerWord counter) v = w := by
  induction ws generalizing v with
  | nil => exact (List.mem_singleton.1 mem).symm
  | cons u us ih =>
    have chosen : newerWord counter v u = w ∨ (newerWord counter v u ∈ [v, u] ∧ w ∈ us) := by
      unfold newerWord
      by_cases hv : v = w
      · by_cases hu : u = w
        · exact .inl (by rw [hv, hu, ite_self])
        · have := newest u (by simp) hu
          exact .inl (by rw [hv, if_neg (by omega)])
      · by_cases hu : u = w
        · have := newest v (by simp) hv
          exact .inl (by rw [hu, if_pos this])
        · refine .inr ⟨by split <;> simp, ?_⟩
          simpa [Ne.symm hv, Ne.symm hu] using mem
    rw [List.foldl_cons]
    refine ih _ ?_ fun x hx other => ?_
    · exact chosen.elim (fun h => by rw [h]; exact List.mem_cons_self) fun h => List.mem_cons_of_mem _ h.2
    · obtain rfl | hx := List.mem_cons.1 hx
      · obtain same | ⟨mem, -⟩ := chosen
        · exact absurd same other
        · refine newest _ ?_ other
          simp only [List.mem_cons, List.not_mem_nil, or_false] at mem ⊢
          exact mem.imp_right .inl
      · exact newest x (by simp [hx]) other

theorem Line.newestFlagged_none {l : Line} (counter : Word) (none : ∀ w ∈ l.words, w.state ≠ .flagged) :
    l.newestFlagged counter = Option.none := by
  have empty : l.words.filter (·.state == .flagged) = [] := by simpa using none
  rw [Line.newestFlagged, empty]

theorem Line.newestFlagged_some {l : Line} {counter : Word} {w : WordRec} (mem : w ∈ l.words)
    (flagged : w.state = .flagged) (newest : ∀ v ∈ l.words, v.state = .flagged → v ≠ w →
      (counter - w.serial).toNat < (counter - v.serial).toNat) : l.newestFlagged counter = some w := by
  have there : w ∈ l.words.filter (·.state == .flagged) := by simp [mem, flagged]
  have among : ∀ v ∈ l.words.filter (·.state == .flagged), v ≠ w →
      (counter - w.serial).toNat < (counter - v.serial).toNat := by
    intro v hv
    have := List.mem_filter.1 hv
    exact newest v this.1 (by simpa using this.2)
  unfold Line.newestFlagged
  cases h : l.words.filter (·.state == .flagged) with
  | nil => rw [h] at there; cases there
  | cons v vs => rw [h] at there among; exact congrArg some (foldl_newerWord vs v there among)

/-! ### What the keys act on -/

section

variable {s : State}

/-- CORRECT acts on its reference entry, whatever line is displayed (R140). -/
theorem State.chooseAround_char {e : Entry} {i : Nat} (here : s.lines.displayed.live[i]? = some e)
    (around : s.chooseAround false = chosen false s.lines.displayed
      (keyTargets false s.lines.displayed.live s.lines.cursor i)) : s.chooseAround false =
      if e.kind = .gap then .refuse .nothingToCorrect else .targets false s.lines.displayed [e] :=
  around.trans (chosen_char _ _ here)

end

/-- Settles O36: the reference entry by the cursor and the line, the run around it or at the end, and the
newest FLAGGED word. -/
theorem correctChoosesItsTarget : Obligations.CorrectChoosesItsTarget := by
  refine ⟨fun s => ?_, fun s => ?_, fun s => ?_⟩
  · intro l c current target
    have live {e : Entry} {i : Nat} (h : l.live[i]? = some e) : l.live ≠ [] := fun empty => by
      simp [empty] at h
    refine ⟨fun depth mode => State.chooseAround_lineStart depth mode, fun depth mode inside e he =>
      State.chooseAround_char he (State.chooseAround_hold depth mode (live he) inside),
      fun other e he => ?_, fun other behind e he => ?_, fun depth empty => ?_, fun depth empty => ?_⟩
    · have reference : min c (l.live.length - 1) = c := by
        have := (List.getElem?_eq_some_iff.1 he).1
        omega
      exact State.chooseAround_char (reference.symm ▸ he) (State.chooseAround_other other fun _ => live he)
    · rw [List.getLast?_eq_getElem?] at he
      have reference : min c (l.live.length - 1) = l.live.length - 1 := by omega
      exact State.chooseAround_char (reference.symm ▸ he) (State.chooseAround_other other fun _ => live he)
    · have around := State.chooseAround_other (word := false) (s := s) (fun h => depth h.1) fun h => absurd h depth
      rw [around, show s.lines.displayed.live = [] from empty]
      rfl
    · obtain ⟨waits, goes⟩ := State.chooseAround_empty (word := false) depth empty
      refine ⟨waits, fun entries feeding => ⟨(goes entries feeding).1, fun r newest => ?_⟩⟩
      obtain ⟨sources, reopens⟩ := (goes entries feeding).2 r newest
      refine ⟨sources, fun no1 no2 none => ?_, fun no1 no2 e last solid => ?_⟩
      · rw [reopens no1 no2, none]
        rfl
      · rw [List.getLast?_eq_getElem?] at last
        rw [reopens no1 no2, chosen_char _ _ last, if_neg solid]
  · intro l c current isBlank isChar endsIn chooses reference
    have charIff (e : Entry) : isChar e ↔ e.kind.isChar = true := (EntryKind.isChar_iff e.kind).symm
    have blankIff (e : Entry) : isBlank e ↔ e.isBlank = true := by
      simp only [isBlank, Entry.isBlank, Bool.or_eq_true, Entry.isSpace_iff, EntryKind.isMove_iff]
    have notChar {e : Entry} (h : ¬ isChar e) : e.kind.isChar = false := by
      simpa using (charIff e).not.1 h
    have atEnd {live before run blanks : List Entry} (h : endsIn live before run blanks) (i : Nat) :
        wordTargets live true i = run ++ blanks := by
      obtain ⟨rfl, chars, blank, first⟩ := h
      refine wordTargets_end (fun e he => (charIff e).1 (chars e he)) (fun e he => (blankIff e).1 (blank e he))
        (fun e he => ⟨notChar (first e he).1, fun hr => ?_⟩) i
      simpa using (blankIff e).not.1 ((first e he).2 hr)
    have choosing {reopen : Bool} {line : Line} {targets : List Entry}
        (h : s.chooseAround true = chosen reopen line targets) : chooses reopen line targets :=
      ⟨fun none => by rw [h, none]; rfl, fun some => h.trans (chosen_targets _ _ some)⟩
    refine ⟨fun depth mode => State.chooseAround_lineStart depth mode, fun full behind before run blanks ends =>
      choosing ?_, fun inside hold => ?_, fun depth empty => ?_⟩
    · have targets (i : Nat) : keyTargets true l.live c i = run ++ blanks := by
        simp only [keyTargets, if_true, decide_eq_true behind]
        exact atEnd ends i
      by_cases here : s.lines.viewDepth = 0 ∧ l.mode = .hold
      · have live : l.live ≠ [] := fun empty => full ⟨here.1, empty⟩
        have := List.length_pos_iff.2 live
        rw [State.chooseAround_hold here.1 here.2 live (by omega), targets]
      · rw [State.chooseAround_other here fun depth empty => full ⟨depth, empty⟩, targets]
    · have live : l.live ≠ [] := List.ne_nil_of_length_pos (Nat.zero_lt_of_lt inside)
      have around : s.chooseAround true = chosen false l (wordTargets l.live false reference) := by
        have targets (i : Nat) : keyTargets true l.live c i = wordTargets l.live false i := by
          simp [keyTargets, Nat.not_le.2 inside]
        by_cases here : s.lines.viewDepth = 0 ∧ l.mode = .hold
        · rw [State.chooseAround_hold here.1 here.2 live (hold here.1 here.2), targets,
            show reference = c - 1 from if_pos here]
        · rw [State.chooseAround_other here fun _ => live, targets,
            show reference = c from if_neg here, Nat.min_eq_left (Nat.le_sub_one_of_lt inside)]
      refine ⟨fun e he other => ?_, fun before run after split chars first last low high => ?_⟩
      · rw [around, wordTargets_inside he, if_neg (by simp [notChar other])]
        rfl
      · have parts := chars_around (i := reference) (fun e he => (charIff e).1 (chars e he))
          (fun e he => notChar (first e he)) (fun e he => notChar (last e he)) low high.le
        have inRun : l.live[reference]? = run[reference - before.length]? := by
          rw [split, List.append_assoc, List.getElem?_append_right low, List.getElem?_append_left (by omega)]
        have he := List.getElem?_eq_getElem (l := run) (i := reference - before.length) (by omega)
        rw [around, wordTargets_inside (inRun.trans he), if_pos ((charIff _).1 (chars _ (List.getElem_mem _))),
          split, parts.1, parts.2, List.take_append_drop]
        exact chosen_targets _ _ fun none => by simp [none] at high; omega
    · obtain ⟨waits, goes⟩ := State.chooseAround_empty (word := true) depth empty
      refine ⟨waits, fun entries feeding => ⟨(goes entries feeding).1, fun r newest => ?_⟩⟩
      obtain ⟨sources, reopens⟩ := (goes entries feeding).2 r newest
      refine ⟨sources, fun no1 no2 before run blanks ends => choosing ?_⟩
      rw [reopens no1 no2]
      simp only [keyTargets, if_true, Nat.le_refl, decide_true, atEnd ends]
  · intro l
    refine ⟨fun depth => if_pos depth, fun depth none => ?_, fun depth w mem flagged newest => ?_⟩
    · have absent : s.lines.current.newestFlagged s.lines.serialCounter = Option.none :=
        Line.newestFlagged_none _ none
      simp [State.chooseFlagged, depth, absent]
    · have found : s.lines.current.newestFlagged s.lines.serialCounter = some w :=
        Line.newestFlagged_some mem flagged newest
      simp [State.chooseFlagged, depth, found, l, beq_eq_decide]

end Sys2Proof.Machine

namespace Sys2Proof.Machine

/-! ### Runs of marked entries (R108) -/

/-- The entry at an index is marked. -/
def MarkedAt (xs : List (Entry × Bool)) (i : Nat) : Prop := xs[i]?.map (·.2) = some true

/-- The indices from `i` on, `n` of them, are a maximal run of those that a property holds of. -/
structure MaximalRun (p : Nat → Prop) (i n : Nat) : Prop where
  pos : 0 < n
  all : ∀ k, k < n → p (i + k)
  ends : ¬ p (i + n)
  begins : ∀ j, j + 1 = i → ¬ p j

theorem MaximalRun.congr {p q : Nat → Prop} (h : ∀ i, p i ↔ q i) {i n : Nat} :
    MaximalRun p i n ↔ MaximalRun q i n := by
  have : p = q := funext fun i => propext (h i)
  rw [this]

/-- The maximal runs of marked entries with an unmarked one behind them: the whole, and the runs beyond. -/
theorem maximalRun_split {ys zs : List (Entry × Bool)} (marked : ∀ y ∈ ys, y.2 = true) (e : Entry) {i n : Nat} :
    MaximalRun (MarkedAt (ys ++ (e, false) :: zs)) i n ↔
      (ys ≠ [] ∧ i = 0 ∧ n = ys.length) ∨ ∃ j, i = ys.length + 1 + j ∧ MaximalRun (MarkedAt zs) j n := by
  have first (i : Nat) (hi : i < ys.length) : MarkedAt (ys ++ (e, false) :: zs) i := by
    rw [MarkedAt, List.getElem?_append_left hi, List.getElem?_eq_getElem hi, Option.map_some,
      marked _ (List.getElem_mem hi)]
  have stop : ¬ MarkedAt (ys ++ (e, false) :: zs) ys.length := by simp [MarkedAt]
  have beyond (j : Nat) : MarkedAt (ys ++ (e, false) :: zs) (ys.length + 1 + j) ↔ MarkedAt zs j := by
    rw [MarkedAt, List.getElem?_append_right (by omega), show ys.length + 1 + j - ys.length = j + 1 by omega]
    rfl
  refine ⟨fun h => ?_, ?_⟩
  · by_cases hi : i < ys.length
    · obtain rfl : i = 0 := by
        by_contra pos
        exact h.begins (i - 1) (by omega) (first _ (by omega))
      refine .inl ⟨List.ne_nil_of_length_pos hi, rfl, ?_⟩
      by_contra ne
      obtain short | long := Nat.lt_or_gt_of_ne ne
      · exact h.ends (by rw [Nat.zero_add]; exact first n short)
      · exact stop (by simpa using h.all ys.length long)
    · have past : i ≠ ys.length := fun same => stop (same ▸ h.all 0 h.pos)
      obtain ⟨j, rfl⟩ : ∃ j, i = ys.length + 1 + j := ⟨i - ys.length - 1, by omega⟩
      refine .inr ⟨j, rfl, h.pos, fun k hk => ?_, fun k => h.ends ?_, fun x hx k => ?_⟩
      · have := h.all k hk
        rwa [Nat.add_assoc, beyond] at this
      · rwa [Nat.add_assoc, beyond]
      · exact h.begins (ys.length + 1 + x) (by omega) ((beyond x).2 k)
  · rintro (⟨some, rfl, rfl⟩ | ⟨j, rfl, h⟩)
    · refine ⟨List.length_pos_iff.2 some, fun k hk => ?_, ?_, fun j hj => absurd hj (by omega)⟩
      · rw [Nat.zero_add]
        exact first k hk
      · rw [Nat.zero_add]
        exact stop
    · refine ⟨h.pos, fun k hk => ?_, fun k => h.ends ?_, fun x hx k => ?_⟩
      · rw [Nat.add_assoc, beyond]
        exact h.all k hk
      · rwa [Nat.add_assoc, beyond] at k
      · cases j with
        | zero => exact stop (by rwa [show x = ys.length by omega] at k)
        | succ j =>
          obtain rfl : x = ys.length + 1 + j := by omega
          exact h.begins j rfl ((beyond j).1 k)

/-- The maximal run of entries that are all marked is the whole. -/
theorem maximalRun_all {ys : List (Entry × Bool)} (marked : ∀ y ∈ ys, y.2 = true) {i n : Nat} :
    MaximalRun (MarkedAt ys) i n ↔ ys ≠ [] ∧ i = 0 ∧ n = ys.length := by
  have first (i : Nat) : MarkedAt ys i ↔ i < ys.length := by
    refine ⟨fun h => ?_, fun hi => ?_⟩
    · obtain ⟨x, hx, -⟩ := Option.map_eq_some_iff.1 h
      exact (List.getElem?_eq_some_iff.1 hx).1
    · rw [MarkedAt, List.getElem?_eq_getElem hi, Option.map_some, marked _ (List.getElem_mem hi)]
  rw [MaximalRun.congr first]
  refine ⟨fun h => ?_, ?_⟩
  · have low := h.all 0 h.pos
    have high := h.ends
    have last := h.all (n - 1) (by have := h.pos; omega)
    have zero : i = 0 := by
      by_contra pos
      exact h.begins (i - 1) (by omega) (by omega)
    exact ⟨List.ne_nil_of_length_pos (by omega), zero, by have := h.pos; omega⟩
  · rintro ⟨some, rfl, rfl⟩
    exact ⟨List.length_pos_iff.2 some, fun k hk => by omega, by omega, fun j hj => absurd hj (by omega)⟩

/-- The entries of a run, and those after it. -/
def runOf (xs : List (Entry × Bool)) (i n : Nat) : WordRun :=
  ⟨((xs.drop i).take n).map (·.1), (xs.drop (i + n)).map (·.1)⟩

theorem exists_whole {P : Nat → Nat → Prop} {q : Prop} {m : Nat} (hq : q) :
    (∃ i n, (q ∧ i = 0 ∧ n = m) ∧ P i n) ↔ P 0 m := by
  simp [hq]

/-- The runs read are the maximal runs, with the run being read put before what is left to read. -/
theorem mem_wordRuns (cur : List Entry) (xs : List (Entry × Bool)) (r : WordRun) : r ∈ wordRuns cur xs ↔
    ∃ i n, MaximalRun (MarkedAt (cur.reverse.map (·, true) ++ xs)) i n ∧
      r = runOf (cur.reverse.map (·, true) ++ xs) i n := by
  have marked (cur : List Entry) : ∀ y ∈ cur.reverse.map (·, true), y.2 = true := by simp
  induction xs generalizing cur with
  | nil =>
    simp only [List.append_nil, maximalRun_all (marked cur)]
    cases cur with
    | nil => simp [wordRuns]
    | cons c cur =>
      have whole : runOf ((c :: cur).reverse.map (·, true)) 0 ((c :: cur).reverse.map (·, true)).length =
          ⟨(c :: cur).reverse, []⟩ := by
        simp [runOf, Function.comp_def]
      rw [exists_whole (P := fun i n => r = runOf _ i n) (by simp), whole]
      simp [wordRuns]
  | cons x xs ih =>
    obtain ⟨e, mark⟩ := x
    cases mark with
    | true =>
      have joined : (e :: cur).reverse.map (·, true) ++ xs = cur.reverse.map (·, true) ++ (e, true) :: xs := by
        simp
      have next : wordRuns cur ((e, true) :: xs) = wordRuns (e :: cur) xs := by cases cur <;> rfl
      rw [next, ← joined]
      exact ih _
    | false =>
      have rest : (∃ i n, (∃ j, i = (cur.reverse.map (·, true)).length + 1 + j ∧
          MaximalRun (MarkedAt xs) j n) ∧ r = runOf (cur.reverse.map (·, true) ++ (e, false) :: xs) i n) ↔
          r ∈ wordRuns [] xs := by
        have beyond (j n : Nat) : runOf (cur.reverse.map (·, true) ++ (e, false) :: xs)
            ((cur.reverse.map (·, true)).length + 1 + j) n = runOf xs j n := by
          have drops (k : Nat) : (cur.reverse.map (·, true) ++ (e, false) :: xs).drop
              ((cur.reverse.map (·, true)).length + 1 + k) = xs.drop k := by
            rw [Nat.add_assoc, ← List.drop_drop, List.drop_left, Nat.add_comm 1 k]
            rfl
          rw [runOf, runOf, Nat.add_assoc _ j n, drops, drops]
        refine Iff.trans ?_ (ih []).symm
        refine ⟨?_, fun ⟨j, n, h, hr⟩ => ⟨_, n, ⟨j, rfl, h⟩, by rw [beyond]; exact hr⟩⟩
        rintro ⟨_, n, ⟨j, rfl, h⟩, hr⟩
        exact ⟨j, n, h, by rwa [beyond] at hr⟩
      simp only [maximalRun_split (marked cur), or_and_right, exists_or, rest]
      cases cur with
      | nil => simp [wordRuns]
      | cons c cur =>
        have whole : runOf ((c :: cur).reverse.map (·, true) ++ (e, false) :: xs) 0
            ((c :: cur).reverse.map (·, true)).length = ⟨(c :: cur).reverse, e :: xs.map (·.1)⟩ := by
          rw [runOf, Nat.zero_add, List.drop_zero, List.take_left, List.drop_left]
          simp [Function.comp_def]
        rw [exists_whole (P := fun i n => r = runOf _ i n) (by simp), whole]
        simp [wordRuns]

/-- The runs hold the marked entries, each once and in order. -/
theorem flatMap_wordRuns (cur : List Entry) (xs : List (Entry × Bool)) :
    (wordRuns cur xs).flatMap (·.entries) = cur.reverse ++ (xs.filter (·.2)).map (·.1) := by
  induction xs generalizing cur with
  | nil => cases cur <;> simp [wordRuns]
  | cons x xs ih =>
    obtain ⟨e, mark⟩ := x
    cases mark <;> cases cur <;> simp [wordRuns, ih]

/-! ### The marks of a line (R108) -/

theorem markWords_map (b : Bool) (es : List Entry) : (markWords b es).map (·.1) = es := by
  induction es generalizing b with
  | nil => rfl
  | cons e es ih => simp [markWords, ih]

/-- A letter stands at an index. -/
def letterAt (live : List Entry) (i : Nat) : Prop := ∃ e, live[i]? = some e ∧ e.isLetter = true

/-- An apostrophe stands at an index. -/
def joinerAt (live : List Entry) (i : Nat) : Prop := ∃ e, live[i]? = some e ∧ e.isApostrophe = true

/-- The entry at an index stands in a word: a letter, or an apostrophe directly between two letters. -/
def joinsAt (live : List Entry) (i : Nat) : Prop :=
  letterAt live i ∨ (joinerAt live i ∧ letterAt live (i + 1) ∧ ∃ j, j + 1 = i ∧ letterAt live j)

theorem letterAt_iff (live : List Entry) (i : Nat) :
    letterAt live i ↔ (live[i]?.map Entry.isLetter).getD false = true := by
  cases h : live[i]? <;> simp [letterAt, h]

/-- The mark of the entry at an index, with a letter or none before the first. -/
theorem markedAt_markWords (b : Bool) (es : List Entry) (i : Nat) : MarkedAt (markWords b es) i ↔
    letterAt es i ∨ (joinerAt es i ∧ letterAt es (i + 1) ∧
      ((i = 0 ∧ b = true) ∨ ∃ j, j + 1 = i ∧ letterAt es j)) := by
  induction es generalizing b i with
  | nil => simp [MarkedAt, markWords, letterAt, joinerAt]
  | cons e es ih =>
    cases i with
    | zero =>
      have next : letterAt (e :: es) 1 ↔ (es.head?.map Entry.isLetter).getD false = true := by
        rw [letterAt_iff, List.head?_eq_getElem?]
        rfl
      simp only [next, Nat.zero_add]
      simp [MarkedAt, markWords, letterAt, joinerAt, and_assoc, and_comm, and_left_comm]
    | succ i =>
      have shift : MarkedAt (markWords b (e :: es)) (i + 1) ↔ MarkedAt (markWords e.isLetter es) i := Iff.rfl
      rw [shift, ih]
      have before : (i = 0 ∧ e.isLetter = true ∨ ∃ j, j + 1 = i ∧ letterAt es j) ↔
          (i + 1 = 0 ∧ b = true ∨ ∃ j, j + 1 = i + 1 ∧ letterAt (e :: es) j) := by
        cases i with
        | zero => simp [letterAt]
        | succ i => simp [letterAt]
      rw [before]
      rfl

theorem markedAt_line (live : List Entry) (i : Nat) : MarkedAt (markWords false live) i ↔ joinsAt live i := by
  rw [markedAt_markWords]
  simp [joinsAt]

end Sys2Proof.Machine

namespace Sys2Proof.Machine

/-! ### The runs of a line by their indices (R108) -/

/-- The entries of a list from an index on, so many of them. -/
theorem mem_span {live : List Entry} {i n : Nat} {e : Entry} :
    e ∈ (live.drop i).take n ↔ ∃ k, k < n ∧ live[i + k]? = some e := by
  simp only [List.mem_iff_getElem?, List.getElem?_take, List.getElem?_drop]
  refine ⟨fun ⟨k, h⟩ => ?_, fun ⟨k, hk, h⟩ => ⟨k, by rw [if_pos hk, h]⟩⟩
  split at h
  · next hk => exact ⟨k, hk, h⟩
  · cases h

theorem joinsAt.lt {live : List Entry} {i : Nat} (h : joinsAt live i) : i < live.length := by
  obtain ⟨e, he, -⟩ | ⟨⟨e, he, -⟩, -⟩ := h
  all_goals exact (List.getElem?_eq_some_iff.1 he).1

/-- The indices of a maximal run of a line's live entries (R108). -/
abbrev Line.RunAt (l : Line) (i n : Nat) : Prop := MaximalRun (joinsAt l.live) i n

theorem Line.RunAt.le {l : Line} {i n : Nat} (h : l.RunAt i n) : i + n ≤ l.live.length := by
  have pos := h.pos
  have := (h.all (n - 1) (by omega)).lt
  omega

/-- The entries of a run of a line. -/
def Line.span (l : Line) (i n : Nat) : List Entry := (l.live.drop i).take n

theorem Line.span_length {l : Line} {i n : Nat} (h : i + n ≤ l.live.length) : (l.span i n).length = n := by
  simp [Line.span]
  omega

theorem Line.span_head {l : Line} {i n : Nat} (h : 0 < n) : (l.span i n).head? = l.live[i]? := by
  simp [Line.span, List.head?_take, h.ne', List.head?_drop]

/-- The runs of a line are the spans of its maximal runs. -/
theorem Line.mem_runs {l : Line} {r : WordRun} :
    r ∈ l.runs ↔ ∃ i n, l.RunAt i n ∧ r = ⟨l.span i n, l.live.drop (i + n)⟩ := by
  have run (i n : Nat) : runOf (markWords false l.live) i n = ⟨l.span i n, l.live.drop (i + n)⟩ := by
    simp only [runOf, List.map_take, List.map_drop, markWords_map]
    rfl
  rw [Line.runs, mem_wordRuns]
  simp only [List.reverse_nil, List.map_nil, List.nil_append, run, Line.RunAt,
    MaximalRun.congr (markedAt_line l.live)]

/-- The runs of a line hold different entries. -/
theorem Line.runs_disjoint {l : Line} (ids : (l.entries.map (·.id)).Nodup) :
    (l.live.map (·.id)).Nodup ∧
      l.runs.Pairwise fun a b => (a.entries.map (·.id)).Disjoint (b.entries.map (·.id)) := by
  have live : (l.live.map (·.id)).Nodup := ids.sublist (List.filter_sublist.map _)
  refine ⟨live, ?_⟩
  have marked : ((markWords false l.live).filter (·.2)).map (·.1) |>.Sublist l.live := by
    have sub := (List.filter_sublist (l := markWords false l.live) (p := (·.2))).map (·.1)
    rwa [markWords_map] at sub
  have whole : (l.runs.flatMap (·.entries)).map (·.id) |>.Nodup := by
    rw [Line.runs, flatMap_wordRuns]
    exact live.sublist (marked.map _)
  rw [List.map_flatMap, List.nodup_flatMap] at whole
  exact whole.2

/-! ### The record that a run keeps (R109) -/

/-- A run is unchanged: it has the entries that its record says, all with its serial. -/
structure WordRec.Unchanged (v : WordRec) (run : List Entry) : Prop where
  first : run.head?.map (·.id) = some v.firstId
  length : v.length = run.length
  serials : ∀ e ∈ run, e.serial = some v.serial

/-- A run lengthens an OPEN word: behind the entries of its record it has others that belong to no word. -/
structure WordRec.Lengthened (v : WordRec) (run : List Entry) : Prop where
  first : run.head?.map (·.id) = some v.firstId
  opened : v.state = .opened
  pos : 0 < v.length
  length : v.length < run.length
  serials : ∀ e ∈ run.take v.length, e.serial = some v.serial
  others : ∀ e ∈ run.drop v.length, e.serial = none

/-- The record of an OPEN word that a run lengthens. -/
def WordRec.lengthenedBy (v : WordRec) (run : List Entry) : WordRec :=
  { v with length := run.length, letters := letterCount run }

/-- The record that a run keeps: one that it leaves unchanged, or one that it lengthens. -/
theorem keptWord_eq_some {words : List WordRec} (serials : (words.map (·.serial)).Nodup) {run : List Entry}
    {w : WordRec} : keptWord words run = some w ↔ ∃ v ∈ words,
      (v.Unchanged run ∧ w = v) ∨ (v.Lengthened run ∧ w = v.lengthenedBy run) := by
  cases run with
  | nil =>
    refine ⟨nofun, ?_⟩
    rintro ⟨v, -, ⟨h, -⟩ | ⟨h, -⟩⟩
    all_goals exact absurd h.first nofun
  | cons e es =>
    have found (v : WordRec) (hv : v ∈ words) (h : e.serial = some v.serial) :
        words.find? (fun w => e.serial == some w.serial) = some v := by
      obtain ⟨before, after, rfl⟩ := List.append_of_mem hv
      refine List.find?_eq_some_iff_append.2 ⟨by simp [h], before, after, rfl, fun x hx => ?_⟩
      rw [List.map_append] at serials
      have apart := (List.nodup_append.1 serials).2.2 x.serial (List.mem_map_of_mem hx) v.serial (by simp)
      simpa [h] using apart.symm
    refine ⟨fun h => ?_, ?_⟩
    · simp only [keptWord] at h
      split at h
      · cases h
      · next v hv =>
        have mem := List.mem_of_find?_eq_some hv
        have head : e.serial = some v.serial := by simpa using List.find?_some hv
        split at h
        · next same =>
          obtain ⟨first, length, all⟩ := same
          refine ⟨v, mem, .inl ⟨⟨by simp [first], length, by simpa using all⟩, (Option.some.inj h).symm⟩⟩
        · split at h
          · next longer =>
            obtain ⟨opened, first, length, all, others⟩ := longer
            have pos : 0 < v.length := by
              refine Nat.pos_of_ne_zero fun zero => ?_
              simp [zero, head] at others
            exact ⟨v, mem, .inr ⟨⟨by simp [first], opened, pos, length, by simpa using all,
              by simpa using others⟩, (Option.some.inj h).symm⟩⟩
          · cases h
    · rintro ⟨v, mem, ⟨h, rfl⟩ | ⟨h, rfl⟩⟩
      · have first : w.firstId = e.id := (Option.some.inj h.first).symm
        simp only [keptWord, found w mem (h.serials e List.mem_cons_self)]
        exact if_pos ⟨first, h.length, by simpa using h.serials⟩
      · have first : v.firstId = e.id := (Option.some.inj h.first).symm
        have head : e ∈ (e :: es).take v.length := by
          obtain ⟨n, hn⟩ := Nat.exists_eq_succ_of_ne_zero h.pos.ne'
          rw [hn]
          exact List.mem_cons_self
        simp only [keptWord, found v mem (h.serials e head)]
        rw [if_neg fun k => Nat.ne_of_lt h.length k.2.1, if_pos ⟨h.opened, first, h.length,
          List.all_eq_true.2 fun x hx => by simp [h.serials x hx],
          List.all_eq_true.2 fun x hx => by simp [h.others x hx]⟩]
        rfl

/-- A kept record stands for the run: its first entry, its length. -/
theorem keptWord_shape {words : List WordRec} (serials : (words.map (·.serial)).Nodup) {run : List Entry}
    {w : WordRec} (h : keptWord words run = some w) :
    run.head?.map (·.id) = some w.firstId ∧ w.length = run.length := by
  obtain ⟨v, -, ⟨u, rfl⟩ | ⟨u, rfl⟩⟩ := (keptWord_eq_some serials).1 h
  · exact ⟨u.first, u.length⟩
  · exact ⟨u.first, rfl⟩

/-! ### The words of the runs (R109) -/

theorem assignWords_runs (words : List WordRec) (counter : Word) (runs : List WordRun) :
    (assignWords words counter runs).1.map (·.2) = runs := by
  induction runs generalizing counter with
  | nil => rfl
  | cons r rs ih =>
    rw [assignWords]
    split <;> simp [ih]

/-- The word of a run is the record that it keeps, or a new one. -/
theorem assignWords_word {words : List WordRec} {counter : Word} {runs : List WordRun} {p : WordRec × WordRun}
    (h : p ∈ (assignWords words counter runs).1) : keptWord words p.2.entries = some p.1 ∨
      (keptWord words p.2.entries = none ∧ ∃ serial, p.1 = newWord serial p.2.entries) := by
  induction runs generalizing counter with
  | nil => cases h
  | cons r rs ih =>
    rw [assignWords] at h
    split at h
    · next w hw =>
      obtain rfl | h := List.mem_cons.1 h
      · exact .inl hw
      · exact ih h
    · next hn =>
      obtain rfl | h := List.mem_cons.1 h
      · exact .inr ⟨hn, counter, rfl⟩
      · exact ih h

/-- Without old records each run in order takes the next serial. -/
theorem assignWords_serials (counter : Word) (runs : List WordRun) :
    (assignWords [] counter runs).1.map (·.1.serial) =
      (List.range runs.length).map fun k => counter + BitVec.ofNat 16 k := by
  induction runs generalizing counter with
  | nil => rfl
  | cons r rs ih =>
    have none : keptWord [] r.entries = Option.none := by cases r.entries <;> rfl
    have next (k : Nat) : counter + 1 + BitVec.ofNat 16 k = counter + BitVec.ofNat 16 (k + 1) := by
      rw [BitVec.add_assoc, Nat.add_comm k 1, BitVec.ofNat_add]
      rfl
    simp only [assignWords, none, List.map_cons, ih, List.length_cons, List.range_succ_eq_map, List.map_map,
      Function.comp_def, next]
    simp [newWord]

section

variable {l : Line} {counter : Word}

/-- The words of a line with their runs. -/
def Line.wordsOf (l : Line) (counter : Word) : List (WordRec × WordRun) :=
  (assignWords l.words counter l.runs).1

theorem Line.wordsOf_runs : (l.wordsOf counter).map (·.2) = l.runs := assignWords_runs _ _ _

/-- An entry of a run carries the serial of the run's word. -/
theorem serialFor_run (ids : (l.entries.map (·.id)).Nodup) {p : WordRec × WordRun}
    (hp : p ∈ l.wordsOf counter) {e x : Entry} (live : e.live = true) (hx : x ∈ p.2.entries)
    (hid : x.id = e.id) : serialFor (l.wordsOf counter) e = some p.1.serial := by
  obtain ⟨before, after, split⟩ := List.append_of_mem hp
  have disjoint := (Line.runs_disjoint ids).2
  rw [← Line.wordsOf_runs (counter := counter), split, List.pairwise_map] at disjoint
  have found : (l.wordsOf counter).find? (fun p => e.live && p.2.entries.any (·.id == e.id)) = some p := by
    refine List.find?_eq_some_iff_append.2 ⟨?_, before, after, split, fun q hq => ?_⟩
    · simp only [live, Bool.true_and, List.any_eq_true, beq_iff_eq]
      exact ⟨x, hx, hid⟩
    · have apart := (List.pairwise_append.1 disjoint).2.2 q hq p List.mem_cons_self
      simp only [live, Bool.true_and, Bool.not_eq_true', List.any_eq_false, beq_iff_eq]
      exact fun y hy same => apart (List.mem_map.2 ⟨y, hy, same⟩) (List.mem_map.2 ⟨x, hx, hid⟩)
  rw [serialFor, found]
  rfl

/-- A live entry has a serial exactly if an entry of its id stands in a run. -/
theorem serialFor_isSome {ws : List (WordRec × WordRun)} {e : Entry} (live : e.live = true) :
    (serialFor ws e).isSome = true ↔ ∃ p ∈ ws, ∃ x ∈ p.2.entries, x.id = e.id := by
  simp [serialFor, List.find?_isSome, live]

theorem serialFor_lifting (ws : List (WordRec × WordRun)) {e : Entry} (dead : e.live = false) :
    serialFor ws e = none := by
  simp [serialFor, dead]

/-! ### A line segmented -/

theorem Line.segment_entries : (l.segment counter).line.entries =
    l.entries.map fun e => { e with serial := serialFor (l.wordsOf counter) e } := rfl

theorem Line.segment_live : (l.segment counter).line.live =
    l.live.map fun e => { e with serial := serialFor (l.wordsOf counter) e } := by
  rw [Line.live, Line.segment_entries, List.filter_map]
  rfl

theorem Line.segment_live_getElem {i : Nat} {e : Entry} (h : (l.segment counter).line.live[i]? = some e) :
    ∃ x, l.live[i]? = some x ∧ x.live = true ∧ e.serial = serialFor (l.wordsOf counter) x := by
  rw [Line.segment_live, List.getElem?_map] at h
  obtain ⟨x, hx, rfl⟩ := Option.map_eq_some_iff.1 h
  exact ⟨x, hx, (List.mem_filter.1 (List.mem_of_getElem? hx)).2, rfl⟩

/-- A word of a line with the indices of its run. -/
theorem Line.mem_wordsOf {p : WordRec × WordRun} (h : p ∈ l.wordsOf counter) :
    ∃ i n, l.RunAt i n ∧ p.2 = ⟨l.span i n, l.live.drop (i + n)⟩ :=
  Line.mem_runs.1 (Line.wordsOf_runs (counter := counter) ▸ List.mem_map_of_mem h)

/-- Each run of a line has a word. -/
theorem Line.RunAt.word {i n : Nat} (h : l.RunAt i n) (counter : Word) :
    ∃ w, (w, ⟨l.span i n, l.live.drop (i + n)⟩) ∈ l.wordsOf counter := by
  have mem : (⟨l.span i n, l.live.drop (i + n)⟩ : WordRun) ∈ (l.wordsOf counter).map (·.2) := by
    rw [Line.wordsOf_runs]
    exact Line.mem_runs.2 ⟨i, n, h, rfl⟩
  obtain ⟨⟨w, r⟩, hw, rfl⟩ := List.mem_map.1 mem
  exact ⟨w, hw⟩

/-- The index of a live entry, by its id. -/
theorem Line.live_index (ids : (l.entries.map (·.id)).Nodup) {i j : Nat} {x y : Entry}
    (hx : l.live[i]? = some x) (hy : l.live[j]? = some y) (same : x.id = y.id) : i = j := by
  have live := (Line.runs_disjoint ids).1
  have at_ {k : Nat} {z : Entry} (hz : l.live[k]? = some z) : (l.live.map (·.id))[k]? = some z.id := by
    rw [List.getElem?_map, hz, Option.map_some]
  have hi := at_ hx
  have hj := at_ hy
  rw [← same] at hj
  exact (List.getElem?_inj (List.getElem?_eq_some_iff.1 hi).1 live).1 (hi.trans hj.symm)

/-- A live entry carries a serial exactly if it stands in a word (R108, R109). -/
theorem Line.segment_serial_isSome (ids : (l.entries.map (·.id)).Nodup) {i : Nat} {e : Entry}
    (h : (l.segment counter).line.live[i]? = some e) : e.serial.isSome = true ↔ joinsAt l.live i := by
  obtain ⟨x, hx, live, serial⟩ := Line.segment_live_getElem h
  rw [serial, serialFor_isSome live]
  refine ⟨?_, fun joins => ?_⟩
  · rintro ⟨p, hp, y, hy, same⟩
    obtain ⟨j, n, run, hr⟩ := Line.mem_wordsOf hp
    rw [hr] at hy
    obtain ⟨k, hk, hy⟩ := mem_span.1 hy
    rw [← Line.live_index ids hy hx same]
    exact run.all k hk
  · have marked : x ∈ l.runs.flatMap (·.entries) := by
      rw [Line.runs, flatMap_wordRuns]
      obtain ⟨⟨y, b⟩, hy, rfl⟩ := Option.map_eq_some_iff.1 ((markedAt_line l.live i).2 joins)
      have fst : y = x := by
        have := congrArg (·[i]?) (markWords_map false l.live)
        simp only [List.getElem?_map, hy, Option.map_some, hx] at this
        exact Option.some.inj this
      refine List.mem_append_right _ (List.mem_map.2 ⟨(y, true), List.mem_filter.2 ⟨?_, rfl⟩, fst⟩)
      exact List.mem_of_getElem? hy
    obtain ⟨r, hr, mem⟩ := List.mem_flatMap.1 marked
    rw [← Line.wordsOf_runs (counter := counter)] at hr
    obtain ⟨p, hp, rfl⟩ := List.mem_map.1 hr
    exact ⟨p, hp, x, mem, rfl⟩

/-- The entries of a run carry the serial of its word (R109). -/
theorem Line.segment_serial (ids : (l.entries.map (·.id)).Nodup) {i n : Nat} {w : WordRec}
    (h : (w, ⟨l.span i n, l.live.drop (i + n)⟩) ∈ l.wordsOf counter) {k : Nat} (hk : k < n) {e : Entry}
    (he : (l.segment counter).line.live[i + k]? = some e) : e.serial = some w.serial := by
  obtain ⟨x, hx, live, serial⟩ := Line.segment_live_getElem he
  rw [serial]
  exact serialFor_run ids h live (mem_span.2 ⟨k, hk, hx⟩) rfl

/-! ### What the runs say of the records, by their indices -/

/-- The serial of the live entry at an index. -/
def Line.serialAt (l : Line) (i : Nat) : Option Word := l.live[i]?.bind (·.serial)

theorem Line.span_serials {i n : Nat} (h : i + n ≤ l.live.length) (q : Option Word) :
    (∀ e ∈ l.span i n, e.serial = q) ↔ ∀ k, k < n → l.serialAt (i + k) = q := by
  refine ⟨fun all k hk => ?_, fun all e he => ?_⟩
  · have inside : i + k < l.live.length := by omega
    have here := List.getElem?_eq_getElem inside
    rw [Line.serialAt, here]
    exact all _ (mem_span.2 ⟨k, hk, here⟩)
  · obtain ⟨k, hk, here⟩ := mem_span.1 he
    have := all k hk
    rwa [Line.serialAt, here] at this

/-- The first entry of a run, and that all of it has the serial of a record of this length. -/
theorem Line.RunAt.unchanged_iff {i n : Nat} (h : l.RunAt i n) (v : WordRec) :
    v.Unchanged (l.span i n) ↔ l.live[i]?.map (·.id) = some v.firstId ∧ v.length = n ∧
      ∀ k, k < n → l.serialAt (i + k) = some v.serial := by
  rw [← Line.span_serials h.le, ← Line.span_head h.pos]
  refine ⟨fun u => ⟨u.first, ?_, u.serials⟩, fun ⟨first, length, serials⟩ => ⟨first, ?_, serials⟩⟩
  · rw [u.length, Line.span_length h.le]
  · rw [length, Line.span_length h.le]

theorem Line.RunAt.lengthened_iff {i n : Nat} (h : l.RunAt i n) (v : WordRec) :
    v.Lengthened (l.span i n) ↔ l.live[i]?.map (·.id) = some v.firstId ∧ v.state = .opened ∧
      0 < v.length ∧ v.length < n ∧ (∀ k, k < v.length → l.serialAt (i + k) = some v.serial) ∧
      ∀ k, v.length ≤ k → k < n → l.serialAt (i + k) = none := by
  have le := h.le
  have parts (short : v.length < n) : (l.span i n).take v.length = l.span i v.length ∧
      (l.span i n).drop v.length = l.span (i + v.length) (n - v.length) := by
    simp only [Line.span, List.take_take, List.drop_take, List.drop_drop, Nat.min_eq_left short.le,
      and_self]
  have others (short : v.length < n) : (∀ k, k < n - v.length → l.serialAt (i + v.length + k) = none) ↔
      ∀ k, v.length ≤ k → k < n → l.serialAt (i + k) = none := by
    refine ⟨fun all k low high => ?_, fun all k hk => ?_⟩
    · have := all (k - v.length) (by omega)
      rwa [show i + v.length + (k - v.length) = i + k by omega] at this
    · rw [Nat.add_assoc]
      exact all _ (by omega) (by omega)
  rw [← Line.span_head h.pos]
  refine ⟨fun u => ?_, fun ⟨first, opened, pos, short, serials, rest⟩ => ?_⟩
  · have short : v.length < n := by have := u.length; rwa [Line.span_length le] at this
    have serials := u.serials
    have rest := u.others
    rw [(parts short).1, Line.span_serials (by omega)] at serials
    rw [(parts short).2, Line.span_serials (by omega), others short] at rest
    exact ⟨u.first, u.opened, u.pos, short, serials, rest⟩
  · refine ⟨first, opened, pos, by rwa [Line.span_length le], ?_, ?_⟩
    · rwa [(parts short).1, Line.span_serials (by omega)]
    · rwa [(parts short).2, Line.span_serials (by omega), others short]

/-- A run is closed when the line is committed, or a live entry follows that is not an apostrophe at its end. -/
theorem Line.closed_iff {i n : Nat} (committed : Bool) :
    (⟨l.span i n, l.live.drop (i + n)⟩ : WordRun).closed committed = true ↔ committed = true ∨
      (i + n < l.live.length ∧ ¬ (i + n + 1 = l.live.length ∧ joinerAt l.live (i + n))) := by
  rw [WordRun.closed, Bool.or_eq_true]
  refine or_congr Iff.rfl ?_
  by_cases inside : i + n < l.live.length
  · have here := List.getElem?_eq_getElem inside
    rw [List.drop_eq_getElem_cons inside]
    have joiner : joinerAt l.live (i + n) ↔ (l.live[i + n]).isApostrophe = true := by
      simp [joinerAt, here]
    cases hd : l.live.drop (i + n + 1) with
    | nil =>
      have last : i + n + 1 = l.live.length := by
        have := List.drop_eq_nil_iff.1 hd
        omega
      simp [inside, last, joiner]
    | cons x xs =>
      have more : i + n + 1 ≠ l.live.length := fun last => by
        rw [last, List.drop_length] at hd
        cases hd
      simp [inside, more]
  · rw [List.drop_eq_nil_of_le (Nat.not_lt.1 inside)]
    simp [inside]

end

end Sys2Proof.Machine

namespace Sys2Proof.Machine

/-! ### The words dropped, and the words handed (R110, R174) -/

theorem State.dropSerials_spell (n : Word) (gone : List Word) (s : State) :
    gone.foldl (fun s serial => s.dropWord n serial) s =
      { s with spell := s.spell.without fun line serial => line == n && gone.contains serial } := by
  induction gone generalizing s with
  | nil => simp [Spelling.without_none]
  | cons w ws ih =>
    have one : s.dropWord n w = { s with spell := s.spell.without fun line x => line == n && x == w } := by
      rw [← State.dropWord_spell]
      rfl
    rw [List.foldl_cons, ih, one, Spelling.without_without]
    congr 2
    funext line serial
    rw [List.contains_cons, Bool.and_or_distrib_left]

/-- A segmentation drops the words removed, and then hands the words that are ready (R110). -/
theorem State.resegment_eq {s : State} {number : Word} {l : Line} (h : s.lines.find number = some l) :
    s.resegment number =
      (l.segment s.lines.serialCounter).ready.foldl (fun u serial => u.handWord number serial) { s with
        lines := { s.lines.updateLine number fun _ => (l.segment s.lines.serialCounter).line with
          serialCounter := (l.segment s.lines.serialCounter).counter }
        spell := s.spell.without fun line serial =>
          line == number && (l.segment s.lines.serialCounter).removed.contains serial } := by
  simp only [State.resegment, h, State.dropSerials_spell]
  rfl

/-! ### The capital state of a word (R160) -/

theorem capitalOf_eq (codes : List Nat) : capitalOf codes =
    if (codes.filter isLetter).length ≤ 1 ∨ (codes.filter isLetter).any (!isUpper ·) = true then
      if ((codes.filter isLetter).head?.any isUpper) = true then .capital else .lower
    else .upper := by
  have upper : ((codes.filter isLetter).all isUpper && decide (2 ≤ (codes.filter isLetter).length)) = true ↔
      ¬ ((codes.filter isLetter).length ≤ 1 ∨ (codes.filter isLetter).any (!isUpper ·) = true) := by
    generalize codes.filter isLetter = letters
    simp [and_comm, Nat.lt_iff_add_one_le]
  have head : ((codes.filter isLetter).head?.map isUpper).getD false =
      (codes.filter isLetter).head?.any isUpper := by
    cases (codes.filter isLetter).head? <;> rfl
  simp only [capitalOf, upper, head, ite_not]

/-- The letters of a word are those of the entries that have a code. -/
theorem Line.wordCodes_letters (l : Line) (serial : Word) : (l.wordCodes serial).filter isLetter =
    ((l.live.filter fun e => e.serial = some serial).filterMap Entry.code?).filter isLetter := by
  have entries : l.live.filter (·.serial == some serial) = l.live.filter fun e => e.serial = some serial := by
    simp [beq_eq_decide]
  rw [Line.wordCodes, entries]
  induction l.live.filter fun e => e.serial = some serial with
  | nil => rfl
  | cons e es ih =>
    cases h : e.code? with
    | none =>
      have no : isLetter 0 = false := by decide
      simp [h, no, ih]
    | some c => simp [h, List.filter_cons, ih]

/-! ### A word handed (R159) -/

/-- The word with its capital state found and its state written. -/
def State.judged (s : State) (number serial : Word) (c : Capital) (st : WordState) : State :=
  s.updateLine number fun x => { x with
    words := x.words.map fun v =>
      if v.serial = serial then { v with capital := some c, state := st, tag := none } else v }

theorem LineStore.updateLine_updateLine {f : Line → Line} (hf : ∀ l, (f l).number = l.number)
    (g : Line → Line) (ls : LineStore) (n : Word) :
    (ls.updateLine n f).updateLine n g = ls.updateLine n fun l => g (f l) := by
  by_cases h : ls.current.number = n <;> simp [LineStore.updateLine, h, hf, updateFirst_updateFirst hf]

section

variable {s : State} {number : Word} {l : Line} (h : s.lines.find number = some l) (serial : Word)

include h

theorem State.setWord_judged (st : WordState) :
    ((s.updateLine number fun l => { l with words := l.words.map fun w =>
      if w.serial = serial then { w with capital := some (capitalOf (l.wordCodes serial)) } else w }).setWord
        number serial st none) = s.judged number serial (capitalOf (l.wordCodes serial)) st := by
  have words (ws : List WordRec) : (ws.map fun w => if w.serial = serial then
      { w with capital := some (capitalOf (l.wordCodes serial)) } else w).map (fun w =>
        if w.serial = serial then { w with state := st, tag := none } else w) = ws.map fun v =>
      if v.serial = serial then
        { v with capital := some (capitalOf (l.wordCodes serial)), state := st, tag := none } else v := by
    rw [List.map_map]
    refine List.map_congr_left fun v _ => ?_
    by_cases hv : v.serial = serial <;> simp [hv]
  simp only [State.setWord, State.updateLine, State.mapLines, State.judged]
  rw [LineStore.updateLine_updateLine, LineStore.updateLine_found h]
  · simp only [words]
    rw [← LineStore.updateLine_found h fun x => { x with words := x.words.map fun v =>
      if v.serial = serial then
        { v with capital := some (capitalOf (l.wordCodes serial)), state := st, tag := none } else v }]
  · exact fun _ => rfl

theorem State.handWord_eq {w : WordRec} (hw : l.words.find? (·.serial == serial) = some w) :
    s.handWord number serial =
      if s.handingSuspended then s
      else
        let judged := s.judged number serial (capitalOf (l.wordCodes serial))
        if (l.owner = .source1 ∨ l.owner = .source2) ∨ s.spell.isOn = false ∨ w.letters = 1 then judged .skipped
        else if 24 < w.length then judged .uncheckable
        else if l.foldedForm serial ∈ s.spell.userWords then judged .accepted
        else if s.bus.usable .primary = false ∧ s.bus.usable .secondary = false then judged .uncheckable
        else ((judged .pending).appendPending ⟨number, serial, none⟩).takeItems := by
  simp only [State.handWord, h, hw, State.setWord_judged h, List.contains_iff_mem]
  split
  · rfl
  · by_cases source : l.owner = .source1 ∨ l.owner = .source2
    · simp only [source, true_or, if_true]
    · by_cases off : s.spell.isOn = false
      · simp [source, off]
      · by_cases one : w.letters = 1 <;> simp [source, off, one]

end

/-- The conditions in which no word is handed (R178). -/
theorem State.handingSuspended_iff (s : State) : s.handingSuspended = true ↔
    s.bus.conflict = true ∨ s.supply.power = .standby ∨ s.supply.power = .powerWarn := by
  simp [State.handingSuspended, State.machine_eq_standby, State.machine_eq_powerWarn, or_assoc]

theorem State.appendPending_room {s : State} (item : PendingItem) (h : s.spell.pending.length < 8) :
    s.appendPending item = { s with spell := { s.spell with pending := s.spell.pending ++ [item] } } := by
  unfold State.appendPending
  split
  · next oldest others hp =>
    rw [if_neg (Nat.not_le.2 (show s.spell.pending.length < Config.pendingCapacity from h))]
    rfl
  · next hp => simp [State.mapSpell, hp]

theorem State.appendPending_full {s : State} (item : PendingItem) {oldest : PendingItem}
    {others : List PendingItem} (hp : s.spell.pending = oldest :: others) (h : 8 ≤ s.spell.pending.length) :
    s.appendPending item = { s.setWord oldest.line oldest.serial .uncheckable none with
      spell := { s.spell with pending := others ++ [item] } } := by
  unfold State.appendPending
  rw [hp] at h ⊢
  simp only
  rw [if_pos (show Config.pendingCapacity ≤ _ from h)]
  rfl

/-! ### Words found, handed and judged -/

/-- The word of a run stands for its first entry and its length (R109). -/
theorem Line.word_shape {l : Line} {counter : Word} (serials : (l.words.map (·.serial)).Nodup)
    {p : WordRec × WordRun} (hp : p ∈ l.wordsOf counter) {i n : Nat} (run : l.RunAt i n)
    (hr : p.2 = ⟨l.span i n, l.live.drop (i + n)⟩) :
    l.live[i]?.map (·.id) = some p.1.firstId ∧ p.1.length = n := by
  have word := assignWords_word hp
  rw [hr] at word
  rw [← Line.span_head run.pos]
  obtain kept | ⟨-, serial, fresh⟩ := word
  · have shape := keptWord_shape serials kept
    rwa [Line.span_length run.le] at shape
  · obtain ⟨e, he⟩ : ∃ e, (l.span i n).head? = some e := by
      rw [← Option.isSome_iff_exists, List.isSome_head?, ← List.length_pos_iff, Line.span_length run.le]
      exact run.pos
    rw [fresh, newWord, Line.span_length run.le, he]
    exact ⟨rfl, rfl⟩

/-- Each run of a line has a word: the record that it keeps, or a new one, which is ready if it is closed
(R108 to R110). -/
theorem Line.segment_run {l : Line} {counter : Word} (ids : (l.entries.map (·.id)).Nodup)
    (serials : (l.words.map (·.serial)).Nodup) {i n : Nat} (run : l.RunAt i n) :
    ∃ w ∈ (l.segment counter).line.words, l.live[i]?.map (·.id) = some w.firstId ∧ w.length = n ∧
      (∀ k e, k < n → (l.segment counter).line.live[i + k]? = some e → e.serial = some w.serial) ∧
      (∀ v ∈ l.words, v.Unchanged (l.span i n) → w = v) ∧
      (∀ v ∈ l.words, v.Lengthened (l.span i n) → w = v.lengthenedBy (l.span i n)) ∧
      ((∀ v ∈ l.words, ¬ v.Unchanged (l.span i n) ∧ ¬ v.Lengthened (l.span i n)) →
        w = ⟨w.serial, w.firstId, n, letterCount (l.span i n), none, .opened, none⟩) ∧
      (w.state = .opened → (l.state = .committed ∨ (i + n < l.live.length ∧
        ¬ (i + n + 1 = l.live.length ∧ joinerAt l.live (i + n)))) → w.serial ∈ (l.segment counter).ready) := by
  obtain ⟨w, hw⟩ := run.word counter
  have word : keptWord l.words (l.span i n) = some w ∨
      (keptWord l.words (l.span i n) = none ∧ ∃ serial, w = newWord serial (l.span i n)) := assignWords_word hw
  have shape := Line.word_shape serials hw run rfl
  have keeps {v : WordRec} (hv : v ∈ l.words) {w' : WordRec}
      (h : (v.Unchanged (l.span i n) ∧ w' = v) ∨ (v.Lengthened (l.span i n) ∧ w' = v.lengthenedBy (l.span i n))) :
      w = w' := by
    have kept := (keptWord_eq_some serials).2 ⟨v, hv, h⟩
    obtain word | ⟨none, -⟩ := word
    · exact Option.some.inj (word.symm.trans kept)
    · rw [none] at kept
      cases kept
  refine ⟨w, List.mem_map_of_mem hw, shape.1, shape.2, fun k e hk he => Line.segment_serial ids hw hk he,
    fun v hv u => keeps hv (.inl ⟨u, rfl⟩), fun v hv u => keeps hv (.inr ⟨u, rfl⟩), fun fresh => ?_,
    fun opened closed => ?_⟩
  · obtain kept | ⟨-, serial, rfl⟩ := word
    · obtain ⟨v, hv, ⟨u, -⟩ | ⟨u, -⟩⟩ := (keptWord_eq_some serials).1 kept
      · exact absurd u (fresh v hv).1
      · exact absurd u (fresh v hv).2
    · rw [newWord, Line.span_length run.le]
  · refine List.mem_map.2 ⟨_, List.mem_filter.2 ⟨hw, ?_⟩, rfl⟩
    simp only [opened, beq_self_eq_true, Bool.true_and, Line.closed_iff, beq_iff_eq]
    exact closed

/-- Every word of a segmented line stands for a run (R109). -/
theorem Line.segment_word {l : Line} {counter : Word} (serials : (l.words.map (·.serial)).Nodup)
    {p : WordRec × WordRun} (hp : p ∈ l.wordsOf counter) : ∃ i, l.RunAt i p.1.length ∧
      l.live[i]?.map (·.id) = some p.1.firstId ∧ p.2 = ⟨l.span i p.1.length, l.live.drop (i + p.1.length)⟩ := by
  obtain ⟨i, n, run, hr⟩ := Line.mem_wordsOf hp
  obtain ⟨first, rfl⟩ := Line.word_shape serials hp run hr
  exact ⟨i, run, first, hr⟩

/-- A record is removed exactly if no run keeps it (R109). -/
theorem Line.segment_removed {l : Line} {counter : Word} (serials : (l.words.map (·.serial)).Nodup)
    {v : WordRec} (hv : v ∈ l.words) : v.serial ∈ (l.segment counter).removed ↔
      ∀ i n, l.RunAt i n → ¬ v.Unchanged (l.span i n) ∧ ¬ v.Lengthened (l.span i n) := by
  have alone {u : WordRec} (hu : u ∈ l.words) (same : u.serial = v.serial) : u = v :=
    List.inj_on_of_nodup_map serials hu hv same
  have kept : v.serial ∈ keptSerials l.words l.runs ↔
      ∃ i n, l.RunAt i n ∧ (v.Unchanged (l.span i n) ∨ v.Lengthened (l.span i n)) := by
    simp only [keptSerials, List.mem_filterMap, Option.map_eq_some_iff, keptWord_eq_some serials, Line.mem_runs]
    refine ⟨?_, ?_⟩
    · rintro ⟨_, ⟨i, n, run, rfl⟩, w, ⟨u, hu, ⟨k, rfl⟩ | ⟨k, rfl⟩⟩, same⟩
      · exact ⟨i, n, run, .inl (alone hu same ▸ k)⟩
      · exact ⟨i, n, run, .inr (alone hu same ▸ k)⟩
    · rintro ⟨i, n, run, k | k⟩
      · exact ⟨_, ⟨i, n, run, rfl⟩, v, ⟨v, hv, .inl ⟨k, rfl⟩⟩, rfl⟩
      · exact ⟨_, ⟨i, n, run, rfl⟩, _, ⟨v, hv, .inr ⟨k, rfl⟩⟩, rfl⟩
  have removed : v.serial ∈ (l.segment counter).removed ↔ v.serial ∉ keptSerials l.words l.runs := by
    simp only [Line.segment, List.mem_map, List.mem_filter, Bool.not_eq_true', Bool.eq_false_iff,
      ne_eq, List.contains_iff_mem]
    refine ⟨?_, fun no => ⟨v, ⟨hv, no⟩, rfl⟩⟩
    rintro ⟨u, ⟨-, no⟩, same⟩
    rwa [same] at no
  rw [removed, kept]
  push Not
  rfl

/-- Settles O55: the runs of a line and the records that they keep, the words dropped and handed, and the
tests of a word handed in their order. -/
theorem wordsFoundAndJudged : Obligations.WordsFoundAndJudged := by
  refine ⟨fun l counter ids serials => ?_, fun s number l h => ?_, fun s number serial l w h hw => ?_⟩
  · intro g letter joiner joins isRun serialOf first unchanged lengthened letters closed
    have runIff (i n : Nat) : isRun i n ↔ l.RunAt i n :=
      ⟨fun ⟨pos, all, ends, begins⟩ => ⟨pos, all, ends, begins⟩, fun h => ⟨h.pos, h.all, h.ends, h.begins⟩⟩
    have unchangedIff {i n : Nat} (run : l.RunAt i n) (v : WordRec) :
        unchanged i n v ↔ v.Unchanged (l.span i n) := (run.unchanged_iff v).symm
    have lengthenedIff {i n : Nat} (run : l.RunAt i n) (v : WordRec) :
        lengthened i n v ↔ v.Lengthened (l.span i n) := (run.lengthened_iff v).symm
    refine ⟨rfl, ?_, fun e he dead => ?_, fun i e he => Line.segment_serial_isSome ids he,
      fun i n run => ?_, fun w hw => ?_, fun v hv => ?_, fun x hx => ?_, fun none => ?_⟩
    · simp [g, Line.segment_entries, Entry.bare, Function.comp_def]
    · obtain ⟨x, -, rfl⟩ := List.mem_map.1 he
      exact serialFor_lifting _ dead
    · have run := (runIff i n).1 run
      obtain ⟨w, hw, start, length, entries, same, longer, fresh, ready⟩ :=
        Line.segment_run (counter := counter) ids serials run
      refine ⟨w, hw, start, length, entries, fun v hv u => same v hv ((unchangedIff run v).1 u),
        fun v hv u => (longer v hv ((lengthenedIff run v).1 u)).trans ?_, fun no => fresh fun v hv => ?_, ready⟩
      · rw [WordRec.lengthenedBy, Line.span_length run.le]
        rfl
      · rw [← unchangedIff run, ← lengthenedIff run]
        exact no v hv
    · obtain ⟨p, hp, rfl⟩ := List.mem_map.1 hw
      obtain ⟨i, run, start, -⟩ := Line.segment_word serials hp
      exact ⟨i, (runIff _ _).2 run, start⟩
    · rw [Line.segment_removed serials hv]
      refine forall_congr' fun i => forall_congr' fun n => ?_
      rw [runIff]
      refine forall_congr' fun run => ?_
      rw [unchangedIff run, lengthenedIff run]
    · obtain ⟨p, hp, rfl⟩ := List.mem_map.1 hx
      obtain ⟨hp, opened⟩ := List.mem_filter.1 hp
      obtain ⟨i, run, start, after⟩ := Line.segment_word serials hp
      rw [after, Bool.and_eq_true, beq_iff_eq, Line.closed_iff, beq_iff_eq] at opened
      exact ⟨p.1, List.mem_map_of_mem hp, rfl, opened.1, i, start, opened.2⟩
    · have words : g.line.words = (assignWords [] counter l.runs).1.map (·.1) := by
        rw [← none]
        rfl
      have count : (assignWords [] counter l.runs).1.length = l.runs.length := by
        simpa using congrArg List.length (assignWords_runs [] counter l.runs)
      rw [words, List.map_map, List.length_map, count]
      exact assignWords_serials counter l.runs
  · intro g gone
    have slots : (fun x : Slot => match x with
        | .asking q => if gone q.line q.serial then .discarded q else .asking q
        | other => other) = Slot.without gone := by
      funext x
      cases x <;> rfl
    rw [State.resegment_eq h]
    refine congrArg (fun u : State => g.ready.foldl (fun u serial => u.handWord number serial) u) ?_
    refine congrArg (fun f : Slot → Slot => { s with
      lines := { s.lines.updateLine number fun _ => g.line with serialCounter := g.counter }
      spell := { s.spell with
        pending := s.spell.pending.filter fun i => !gone i.line i.serial
        slots := s.spell.slots.map f } }) ?_
    exact slots.symm
  · intro codes cases upper found judged t source skipped known asked item
    have capital : capitalOf (l.wordCodes serial) = found := by
      rw [capitalOf_eq, Line.wordCodes_letters]
    have run := State.handWord_eq h serial hw
    rw [capital] at run
    refine ⟨?_, fun suspended => run.trans (if_pos (s.handingSuspended_iff.2 suspended)), fun goes => ?_⟩
    · have mixed : (cases.length ≤ 1 ∨ cases.any (!isUpper ·) = true) ↔ ¬ upper := by
        simp only [upper, List.any_eq_true, Bool.not_eq_true']
        by_cases two : 2 ≤ cases.length
        · simp [two, Nat.not_le.2 two]
        · simp [two, Nat.le_of_lt_succ (Nat.not_le.1 two)]
      by_cases all : upper
      · exact iff_of_true all (if_neg (mt mixed.1 (not_not.2 all)))
      · refine iff_of_false all fun same => ?_
        have := same.symm.trans (if_pos (mixed.2 all))
        split at this <;> cases this
    · replace run := run.trans (if_neg (mt s.handingSuspended_iff.1 goes))
      refine ⟨fun skips => run.trans (if_pos skips), fun stays => ?_⟩
      replace run := run.trans (if_neg stays)
      refine ⟨fun long => run.trans (if_pos long), fun short => ?_⟩
      replace run := run.trans (if_neg (Nat.not_lt.2 short))
      refine ⟨fun knows => run.trans (if_pos knows), fun new nobody => ?_, fun new asks => ?_⟩
      · refine (run.trans (if_neg new)).trans (if_pos ?_)
        simpa [asked, not_or] using nobody
      · have some : ¬ (s.bus.usable .primary = false ∧ s.bus.usable .secondary = false) := by
          rintro ⟨first, second⟩
          simp [asked, first, second] at asks
        replace run := (run.trans (if_neg new)).trans (if_neg some)
        exact ⟨fun room => run.trans
            (congrArg State.takeItems (State.appendPending_room (s := judged .pending) _ room)),
          fun oldest others hp full => run.trans
            (congrArg State.takeItems (State.appendPending_full (s := judged .pending) _ hp full))⟩

end Sys2Proof.Machine

namespace Sys2Proof.Machine

/-! ### GAPs merged and dropped (R88) -/

/-- A live GAP, which is merged with a GAP beside it. -/
def Entry.isLiveGap (e : Entry) : Bool := e.live && e.isGap

/-- Two entries side by side that are not both GAPs. -/
def Apart (a b : Entry) : Prop := ¬ (a.isGap = true ∧ b.isGap = true)

/-- An entry widens the GAP before it exactly if both are live GAPs; what is widened is the GAP. -/
theorem widenLastGap_some {w : Nat} {acc acc' : List Entry} (h : widenLastGap w acc = some acc') :
    ∃ dead g before, acc = dead ++ g :: before ∧ (∀ e ∈ dead, e.live = false) ∧ g.isLiveGap = true ∧
      acc' = dead ++ { g with advance := g.advance + w } :: before := by
  induction acc generalizing acc' with
  | nil => cases h
  | cons e es ih =>
    rw [widenLastGap] at h
    cases live : e.live with
    | true =>
      rw [live, if_pos rfl] at h
      split at h
      · next gap =>
        cases h
        exact ⟨[], e, es, rfl, nofun, by rw [Entry.isLiveGap, live, gap]; rfl, rfl⟩
      · cases h
    | false =>
      rw [live, if_neg nofun, Option.map_eq_some_iff] at h
      obtain ⟨es', hes, rfl⟩ := h
      obtain ⟨dead, g, before, rfl, lifting, gap, rfl⟩ := ih hes
      refine ⟨e :: dead, g, before, rfl, fun x hx => ?_, gap, rfl⟩
      obtain rfl | hx := List.mem_cons.1 hx
      · exact live
      · exact lifting x hx

/-- The entries but for live GAPs, which are neither dropped nor changed. -/
theorem mergeGaps_solid (acc es : List Entry) : (mergeGaps acc es).filter (!·.isLiveGap) =
    acc.reverse.filter (!·.isLiveGap) ++ es.filter (!·.isLiveGap) := by
  induction es generalizing acc with
  | nil => simp [mergeGaps]
  | cons e es ih =>
    rw [mergeGaps]
    split
    · next gap =>
      have skip : (e :: es).filter (!·.isLiveGap) = es.filter (!·.isLiveGap) :=
        List.filter_cons_of_neg (by simp [Entry.isLiveGap, gap])
      rw [skip]
      split
      · next acc' widened =>
        obtain ⟨dead, g, before, rfl, -, gap, rfl⟩ := widenLastGap_some widened
        have gap' : ({ g with advance := g.advance + e.advance } : Entry).isLiveGap = true := gap
        rw [ih]
        simp [gap, gap']
      · rw [ih, List.reverse_cons, List.filter_append, List.append_assoc]
        simpa [Entry.isLiveGap] using gap
    · rw [ih, List.reverse_cons, List.filter_append, List.append_assoc, ← List.filter_append]
      rfl

theorem dropLastGap_spec (es : List Entry) : dropLastGap es = es ∨
    ∃ dead g before, es = dead ++ g :: before ∧ (∀ e ∈ dead, e.live = false) ∧ g.isLiveGap = true ∧
      dropLastGap es = dead ++ before := by
  induction es with
  | nil => exact .inl rfl
  | cons e es ih =>
    rw [dropLastGap]
    cases live : e.live with
    | true =>
      rw [if_pos rfl]
      split
      · next gap => exact .inr ⟨[], e, es, rfl, nofun, by rw [Entry.isLiveGap, live, gap]; rfl, rfl⟩
      · exact .inl rfl
    | false =>
      rw [if_neg nofun]
      obtain same | ⟨dead, g, before, rfl, lifting, gap, h⟩ := ih
      · exact .inl (by rw [same])
      · refine .inr ⟨e :: dead, g, before, rfl, fun x hx => ?_, gap, by rw [h]; rfl⟩
        obtain rfl | hx := List.mem_cons.1 hx
        · exact live
        · exact lifting x hx

/-- Tidying leaves every entry but the live GAPs as it is. -/
theorem tidyGaps_solid (es : List Entry) :
    (tidyGaps es).filter (!·.isLiveGap) = es.filter (!·.isLiveGap) := by
  have merged := mergeGaps_solid [] es
  rw [List.reverse_nil, List.filter_nil, List.nil_append] at merged
  rw [tidyGaps, List.filter_reverse]
  obtain same | ⟨dead, g, before, split, -, gap, h⟩ := dropLastGap_spec (mergeGaps [] es).reverse
  · rw [same, List.filter_reverse, List.reverse_reverse, merged]
  · have dropped := congrArg (List.filter (!·.isLiveGap)) split
    rw [List.filter_append, List.filter_cons_of_neg (by simp [gap]), ← List.filter_append, ← h] at dropped
    rw [← dropped, List.filter_reverse, List.reverse_reverse, merged]

theorem mergeGaps_ids (acc es : List Entry) :
    ((mergeGaps acc es).map (·.id)).Sublist ((acc.reverse ++ es).map (·.id)) := by
  induction es generalizing acc with
  | nil => simp [mergeGaps]
  | cons e es ih =>
    have pushed : ((mergeGaps (e :: acc) es).map (·.id)).Sublist ((acc.reverse ++ e :: es).map (·.id)) := by
      have h := ih (e :: acc)
      rwa [List.reverse_cons, List.append_assoc] at h
    rw [mergeGaps]
    split
    · split
      · next acc' widened =>
        obtain ⟨dead, g, before, rfl, -, -, rfl⟩ := widenLastGap_some widened
        refine (ih _).trans ?_
        simp
      · exact pushed
    · exact pushed

theorem dropLastGap_sublist (es : List Entry) : (dropLastGap es).Sublist es := by
  obtain same | ⟨dead, g, before, rfl, -, -, h⟩ := dropLastGap_spec es
  · rw [same]
  · rw [h]
    exact (List.sublist_cons_self g before).append_left dead

/-- Tidying keeps the order of the entries and adds none. -/
theorem tidyGaps_ids (es : List Entry) : ((tidyGaps es).map (·.id)).Sublist (es.map (·.id)) := by
  have dropped := ((dropLastGap_sublist (mergeGaps [] es).reverse).reverse).map (·.id)
  rw [List.reverse_reverse] at dropped
  exact dropped.trans (mergeGaps_ids [] es)

/-! ### Tidying and what is read of an entry -/

section

variable {f : Entry → Entry} (live : ∀ e, (f e).live = e.live) (gap : ∀ e, (f e).isGap = e.isGap)
  (wide : ∀ (e : Entry) (x : Entry), f { e with advance := e.advance + x.advance } =
    { f e with advance := (f e).advance + (f x).advance })

include live gap wide

theorem widenLastGap_map (x : Entry) (acc : List Entry) :
    widenLastGap (f x).advance (acc.map f) = (widenLastGap x.advance acc).map (List.map f) := by
  induction acc with
  | nil => rfl
  | cons e es ih =>
    rw [List.map_cons, widenLastGap, widenLastGap, live, gap]
    split
    · split
      · rw [Option.map_some, List.map_cons, wide]
      · rfl
    · rw [ih]
      cases widenLastGap x.advance es <;> rfl

/-- Tidying reads no more of an entry than whether it is a live GAP, and its advance. -/
theorem tidyGaps_map (es : List Entry) : tidyGaps (es.map f) = (tidyGaps es).map f := by
  have merged (acc es : List Entry) : mergeGaps (acc.map f) (es.map f) = (mergeGaps acc es).map f := by
    induction es generalizing acc with
    | nil => simp [mergeGaps]
    | cons e es ih =>
      rw [List.map_cons, mergeGaps, mergeGaps, live, gap, widenLastGap_map live gap wide]
      split
      · cases widenLastGap e.advance acc with
        | none => exact ih (e :: acc)
        | some acc' => exact ih acc'
      · exact ih (e :: acc)
  have dropped (es : List Entry) : dropLastGap (es.map f) = (dropLastGap es).map f := by
    induction es with
    | nil => rfl
    | cons e es ih =>
      rw [List.map_cons, dropLastGap, dropLastGap, live, gap, ih]
      split
      · split <;> rfl
      · rfl
  have merged : mergeGaps [] (es.map f) = (mergeGaps [] es).map f := merged [] es
  rw [tidyGaps, tidyGaps, merged, ← List.map_reverse, dropped, List.map_reverse]

end

/-- LIFTING entries stand by while the live ones are merged. -/
theorem mergeGaps_live (acc es : List Entry) : (mergeGaps acc es).filter Entry.live =
    mergeGaps (acc.filter Entry.live) (es.filter Entry.live) := by
  have widened (w : Nat) (acc : List Entry) : widenLastGap w (acc.filter Entry.live) =
      (widenLastGap w acc).map (List.filter Entry.live) := by
    induction acc with
    | nil => rfl
    | cons e es ih =>
      cases live : e.live with
      | true =>
        rw [List.filter_cons_of_pos live, widenLastGap, widenLastGap, live, if_pos rfl, if_pos rfl]
        split
        · rw [Option.map_some, List.filter_cons_of_pos (by exact live)]
        · rfl
      | false =>
        rw [List.filter_cons_of_neg (by simp [live]), ih, widenLastGap, live, if_neg nofun]
        cases widenLastGap w es <;> simp [live]
  induction es generalizing acc with
  | nil => simp [mergeGaps, List.filter_reverse]
  | cons e es ih =>
    cases live : e.live with
    | true =>
      rw [List.filter_cons_of_pos live, mergeGaps, mergeGaps, widened]
      have pushed : (mergeGaps (e :: acc) es).filter Entry.live =
          mergeGaps (e :: acc.filter Entry.live) (es.filter Entry.live) := by
        rw [ih, List.filter_cons_of_pos live]
      split
      · cases widenLastGap e.advance acc with
        | none => exact pushed
        | some acc' => exact ih acc'
      · exact pushed
    | false =>
      rw [List.filter_cons_of_neg (by simp [live]), mergeGaps, live, Bool.false_and, if_neg nofun, ih,
        List.filter_cons_of_neg (by simp [live])]

/-- LIFTING entries stand by while the live ones are tidied. -/
theorem tidyGaps_live (es : List Entry) : (tidyGaps es).filter Entry.live = tidyGaps (es.filter Entry.live) := by
  have dropped (es : List Entry) : (dropLastGap es).filter Entry.live = dropLastGap (es.filter Entry.live) := by
    induction es with
    | nil => rfl
    | cons e es ih =>
      cases live : e.live with
      | true =>
        rw [List.filter_cons_of_pos live, dropLastGap, dropLastGap, live, if_pos rfl, if_pos rfl]
        split
        · rfl
        · rw [List.filter_cons_of_pos live]
      | false =>
        rw [List.filter_cons_of_neg (by simp [live]), dropLastGap, live, if_neg nofun,
          List.filter_cons_of_neg (by simp [live]), ih]
  rw [tidyGaps, List.filter_reverse, dropped, List.filter_reverse, mergeGaps_live, List.filter_nil]
  rfl

/-! ### Live entries tidied -/

section

variable {es acc : List Entry}

/-- Live entries that stand apart are not merged. -/
theorem mergeGaps_apart (live : ∀ e ∈ acc, e.live = true) (all : ∀ e ∈ es, e.live = true)
    (apart : (acc.reverse ++ es).IsChain Apart) : mergeGaps acc es = acc.reverse ++ es := by
  induction es generalizing acc with
  | nil => simp [mergeGaps]
  | cons e es ih =>
    have joined : (e :: acc).reverse ++ es = acc.reverse ++ e :: es := by simp
    have pushed : mergeGaps (e :: acc) es = acc.reverse ++ e :: es := by
      rw [← joined]
      refine ih (fun x hx => ?_) (fun x hx => all x (List.mem_cons_of_mem _ hx)) (joined ▸ apart)
      obtain rfl | hx := List.mem_cons.1 hx
      · exact all x List.mem_cons_self
      · exact live x hx
    rw [mergeGaps]
    split
    · next gap =>
      rw [Bool.and_eq_true] at gap
      cases acc with
      | nil => exact pushed
      | cons x acc =>
        have solid : x.isGap = false := by
          have next := (List.isChain_append.1 apart).2.2 x (by simp) e (by simp)
          exact Bool.eq_false_iff.2 fun k => next ⟨k, gap.2⟩
        have none : widenLastGap e.advance (x :: acc) = Option.none := by
          rw [widenLastGap, live x List.mem_cons_self, solid]
          rfl
        rw [none]
        exact pushed
    · exact pushed

/-- The advance of a GAP at the front of some entries. -/
def frontGap (es : List Entry) : Nat := ((es.head?.filter Entry.isGap).map (·.advance)).getD 0

/-- The entries behind a GAP at the front. -/
def behindGap (es : List Entry) : List Entry := if es.head?.any Entry.isGap then es.tail else es

/-- A GAP before live entries that stand apart takes in a GAP at their front. -/
theorem mergeGaps_gap {g : Entry} (hg : g.isLiveGap = true) (live : ∀ e ∈ acc, e.live = true)
    (all : ∀ e ∈ es, e.live = true) (apart : es.IsChain Apart)
    (chained : (acc.reverse ++ [g]).IsChain Apart) : mergeGaps (g :: acc) es =
      acc.reverse ++ { g with advance := g.advance + frontGap es } :: behindGap es := by
  obtain ⟨gl, gg⟩ := Bool.and_eq_true_iff.1 hg
  have goes (x : Entry) (hx : x.live = true) (gap : x.isGap = true) (rest : List Entry)
      (all : ∀ e ∈ rest, e.live = true) (beside : ∀ a ∈ acc.reverse.getLast?, Apart a x)
      (apart : (x :: rest).IsChain Apart) : mergeGaps (x :: acc) rest = acc.reverse ++ x :: rest := by
    have joined : (x :: acc).reverse ++ rest = acc.reverse ++ x :: rest := by simp
    have all_live : ∀ e ∈ x :: acc, e.live = true := fun e he => by
      obtain rfl | he := List.mem_cons.1 he
      · exact hx
      · exact live e he
    have chain : (acc.reverse ++ x :: rest).IsChain Apart := by
      refine List.isChain_append.2 ⟨(List.isChain_append.1 chained).1, apart, fun a ha b hb => ?_⟩
      cases hb
      exact beside a ha
    rw [mergeGaps_apart all_live all (joined ▸ chain), joined]
  have beside : ∀ a ∈ acc.reverse.getLast?, ∀ w, Apart a { g with advance := w } := fun a ha w k =>
    (List.isChain_append.1 chained).2.2 a ha g (by simp) ⟨k.1, gg⟩
  cases es with
  | nil => simp [mergeGaps, frontGap, behindGap]
  | cons e es =>
    have he := all e List.mem_cons_self
    have rest := fun x hx => all x (List.mem_cons_of_mem e hx)
    by_cases gap : e.isGap = true
    · have widened : widenLastGap e.advance (g :: acc) = some ({ g with advance := g.advance + e.advance } :: acc) := by
        rw [widenLastGap, gl, gg]
        rfl
      have chain : (({ g with advance := g.advance + e.advance } : Entry) :: es).IsChain Apart := by
        obtain ⟨next, tail⟩ := List.isChain_cons.1 apart
        exact List.isChain_cons.2 ⟨fun y hy k => next y hy ⟨gap, k.2⟩, tail⟩
      have both : (e.live && e.isGap) = true := by rw [he, gap]; rfl
      rw [mergeGaps, if_pos both, widened]
      simp only
      rw [goes { g with advance := g.advance + e.advance } gl gg es rest (fun a ha => beside a ha _) chain]
      simp [frontGap, behindGap, gap, Option.filter]
    · have chain : (g :: e :: es).IsChain Apart := List.isChain_cons_cons.2 ⟨fun k => gap k.2, apart⟩
      rw [goes g gl gg (e :: es) all (fun a ha => beside a ha g.advance) chain]
      simp [frontGap, behindGap, gap, Option.filter]

theorem mergeGaps_append (acc xs ys : List Entry) :
    mergeGaps acc (xs ++ ys) = mergeGaps (mergeGaps acc xs).reverse ys := by
  induction xs generalizing acc with
  | nil => simp [mergeGaps]
  | cons x xs ih =>
    rw [List.cons_append, mergeGaps, mergeGaps]
    split
    · split <;> exact ih _
    · exact ih _

/-- The entries without a GAP at their end. -/
def beforeGap (es : List Entry) : List Entry := if es.getLast?.any Entry.isGap then es.dropLast else es

/-- A GAP at the end of live entries goes. -/
theorem tidyGaps_drops (live : ∀ e ∈ mergeGaps [] es, e.live = true) :
    tidyGaps es = beforeGap (mergeGaps [] es) := by
  rw [tidyGaps, beforeGap]
  obtain nil | ⟨before, last, split⟩ := List.eq_nil_or_concat' (mergeGaps [] es)
  · rw [nil]
    rfl
  · rw [split] at live ⊢
    have hl := live last (by simp)
    rw [List.reverse_concat, dropLastGap, hl, if_pos rfl]
    cases gap : last.isGap <;> simp [gap]

end

end Sys2Proof.Machine

namespace Sys2Proof.Machine

/-! ### Lines cleaned (R133) -/

/-- The entries of a line that a discarded queue leaves (R133 steps 1 and 2). -/
def Line.remains (l : Line) (d : List Action) : List Entry :=
  (l.entries.takeWhile fun e => !marked d l.number e.id).filter Entry.live

theorem Line.cleaned_entries (l : Line) (d : List Action) :
    (l.cleaned d).entries = tidyGaps (l.remains d) := rfl

/-- Cleaning reads no word of a line. -/
theorem Line.cleaned_wordless (l : Line) (d : List Action) :
    (l.cleaned d).wordless = l.wordless.cleaned d := by
  have remains : l.wordless.remains d = (l.remains d).map Entry.bare := by
    simp only [Line.remains, Line.wordless, List.takeWhile_map, List.filter_map]
    rfl
  have tidy : tidyGaps ((l.remains d).map Entry.bare) = (tidyGaps (l.remains d)).map Entry.bare :=
    tidyGaps_map (f := Entry.bare) (fun _ => rfl) (fun _ => rfl) (fun _ _ => rfl) _
  have entries : (l.wordless.cleaned d).entries = (l.cleaned d).wordless.entries := by
    rw [Line.cleaned_entries, remains, tidy]
    rfl
  rw [show l.wordless.cleaned d = { l.wordless with entries := (l.wordless.cleaned d).entries } from rfl,
    entries]
  rfl

theorem LineStore.updateLine_self {ls : LineStore} {n : Word} {f : Line → Line}
    (h : ∀ l, ls.find n = some l → f l = l) : ls.updateLine n f = ls := by
  have ring (ks : List Line) (hk : ∀ l, ks.find? (·.number == n) = some l → f l = l) :
      updateFirst n f ks = ks := by
    have same := updateFirst_map (g := id) hk
    rwa [List.map_id, List.map_id] at same
  unfold LineStore.updateLine
  split
  · next hc => rw [h ls.current (if_pos hc)]
  · next hc => rw [ring _ fun l hl => h l ((if_neg hc).trans hl)]

/-- A line is cleaned, and segmented if that has changed it (R133 step 4). -/
theorem State.cleanLine_eq (s : State) (d : List Action) (n : Word) :
    s.cleanLine d n = s.updateLine n (·.cleaned d) ∨
      s.cleanLine d n = (s.updateLine n (·.cleaned d)).resegment n := by
  have same (h : ∀ l, s.lines.find n = some l → l.cleaned d = l) : s = s.updateLine n (·.cleaned d) := by
    rw [State.updateLine, State.mapLines, LineStore.updateLine_self h]
  unfold State.cleanLine
  split
  · next none => exact .inl (same (by simp [none]))
  · next l hl =>
    split
    · next unchanged =>
      refine .inl (same fun x hx => ?_)
      obtain rfl : l = x := Option.some.inj (hl.symm.trans hx)
      rw [Line.cleaned, ← Line.remains, ← Line.cleaned_entries, unchanged]
    · exact .inr rfl

theorem State.cleanLine_only (s : State) (d : List Action) (n : Word) :
    SpellingOnly (s.updateLine n (·.cleaned d)) (s.cleanLine d n) := by
  obtain e | e := s.cleanLine_eq d n <;> rw [e]
  · exact .refl _
  · exact State.resegment_only _ n

theorem updateFirst_wordless {f : Line → Line} (h : ∀ l, (f l).wordless = f l.wordless) (n : Word)
    (ls : List Line) : (updateFirst n f ls).map Line.wordless = updateFirst n f (ls.map Line.wordless) := by
  induction ls with
  | nil => rfl
  | cons l ls ih =>
    by_cases hn : l.number = n
    · simp [updateFirst, hn, show l.wordless.number = n from hn, h]
    · simp [updateFirst, hn, show ¬ l.wordless.number = n from hn, ih]

theorem LineStore.wordless_updateLine {f : Line → Line} (h : ∀ l, (f l).wordless = f l.wordless)
    (ls : LineStore) (n : Word) : (ls.updateLine n f).wordless = ls.wordless.updateLine n f := by
  by_cases hn : ls.current.number = n
  · simp [LineStore.updateLine, LineStore.wordless, hn, show ls.current.wordless.number = n from hn, h]
  · simp [LineStore.updateLine, LineStore.wordless, hn, show ¬ ls.current.wordless.number = n from hn,
      updateFirst_wordless h]

theorem SpellingOnly.updateLine {s t : State} (h : SpellingOnly s t) {f : Line → Line}
    (hf : ∀ l, (f l).wordless = f l.wordless) (n : Word) :
    SpellingOnly (s.updateLine n f) (t.updateLine n f) := by
  refine ⟨?_, ?_, h.frames, h.silent, h.queries⟩
  · simp only [State.updateLine, State.mapLines, LineStore.wordless_updateLine hf, h.lines]
  · simp only [State.updateLine, State.mapLines]
    rw [h.rest]

/-- The lines of some numbers cleaned one after the other, but for their words. -/
def LineStore.cleanedAll (d : List Action) (ns : List Word) (ls : LineStore) : LineStore :=
  ns.foldl (fun ls n => ls.updateLine n (·.cleaned d)) ls

/-- Cleaning changes the lines, and of the rest what the Spelling Unit changes (R133). -/
theorem State.cleanLines_only (d : List Action) (ns : List Word) {s t : State} (h : SpellingOnly s t) :
    SpellingOnly (s.mapLines (LineStore.cleanedAll d ns)) (ns.foldl (fun s n => s.cleanLine d n) t) := by
  induction ns generalizing s t with
  | nil => exact h
  | cons n ns ih =>
    exact ih ((h.updateLine (fun l => l.cleaned_wordless d) n).trans (t.cleanLine_only d n))

/-- Cleaning finds the same words in states that hold the same. -/
theorem SameWords.cleanLine {s t : State} (h : SameWords s t) (d : List Action) (n : Word) :
    SameWords (s.cleanLine d n) (t.cleanLine d n) := by
  simp only [State.cleanLine, h.lines]
  split
  · exact h
  · split
    · exact h
    · exact (h.mapLines fun ls => ls.updateLine n (·.cleaned d)).resegment n

/-! ### What cleaning leaves -/

theorem Line.remains_live (l : Line) (d : List Action) : ∀ e ∈ l.remains d, e.live = true :=
  fun _ he => (List.mem_filter.1 he).2

theorem filter_live {es : List Entry} (h : ∀ e ∈ es, e.live = true) : es.filter Entry.live = es :=
  List.filter_eq_self.2 h

theorem tidyGaps_all_live {es : List Entry} (h : ∀ e ∈ es, e.live = true) :
    ∀ e ∈ tidyGaps es, e.live = true := by
  have same := tidyGaps_live es
  rw [filter_live h] at same
  exact List.filter_eq_self.1 same

/-- Of live entries merged no two GAPs stand side by side (R88). -/
theorem mergeGaps_chain {es acc : List Entry} (live : ∀ e ∈ acc, e.live = true)
    (all : ∀ e ∈ es, e.live = true) (apart : acc.reverse.IsChain Apart) :
    (mergeGaps acc es).IsChain Apart := by
  induction es generalizing acc with
  | nil => exact apart
  | cons e es ih =>
    have rest := fun x hx => all x (List.mem_cons_of_mem e hx)
    have pushed (beside : ∀ a ∈ acc.head?, Apart a e) : (mergeGaps (e :: acc) es).IsChain Apart := by
      refine ih (fun x hx => ?_) rest ?_
      · obtain rfl | hx := List.mem_cons.1 hx
        · exact all x List.mem_cons_self
        · exact live x hx
      · rw [List.reverse_cons]
        refine List.isChain_append.2 ⟨apart, List.isChain_singleton e, fun a ha b hb => ?_⟩
        cases hb
        exact beside a (by rwa [List.getLast?_reverse] at ha)
    rw [mergeGaps]
    split
    · cases acc with
      | nil => exact pushed nofun
      | cons x acc =>
        rw [widenLastGap, live x List.mem_cons_self]
        cases gap : x.isGap with
        | true =>
          refine ih (fun y hy => ?_) rest ?_
          · obtain rfl | hy := List.mem_cons.1 hy
            · exact live x List.mem_cons_self
            · exact live y (List.mem_cons_of_mem x hy)
          · rw [List.reverse_cons] at apart ⊢
            obtain ⟨before, -, beside⟩ := List.isChain_append.1 apart
            refine List.isChain_append.2 ⟨before, List.isChain_singleton _, fun a ha b hb => ?_⟩
            cases hb
            exact beside a ha x rfl
        | false =>
          refine pushed fun a ha => ?_
          cases ha
          exact fun k => Bool.false_ne_true (gap.symm.trans k.1)
    · next solid =>
      refine pushed fun a _ k => solid ?_
      rw [all e List.mem_cons_self, k.2]
      rfl

/-- Live entries that are tidied have no two GAPs side by side and none at their end (R88). -/
theorem tidyGaps_apart {es : List Entry} (live : ∀ e ∈ es, e.live = true) :
    (tidyGaps es).IsChain Apart ∧ ∀ e ∈ (tidyGaps es).getLast?, e.isGap = false := by
  have chain : (mergeGaps [] es).IsChain Apart := mergeGaps_chain nofun live List.isChain_nil
  have all : ∀ e ∈ mergeGaps [] es, e.live = true := by
    have same := mergeGaps_live [] es
    rw [filter_live live, List.filter_nil] at same
    exact List.filter_eq_self.1 same
  rw [tidyGaps_drops all, beforeGap]
  obtain nil | ⟨before, last, split⟩ := List.eq_nil_or_concat' (mergeGaps [] es)
  · rw [nil]
    exact ⟨List.isChain_nil, nofun⟩
  · rw [split] at chain ⊢
    rw [List.getLast?_concat, Option.any_some, List.dropLast_concat]
    obtain ⟨front, -, beside⟩ := List.isChain_append.1 chain
    split
    · next gap =>
      exact ⟨front, fun e he => Bool.eq_false_iff.2 fun k => beside e he last rfl ⟨k, gap⟩⟩
    · next solid =>
      refine ⟨chain, fun e he => ?_⟩
      rw [List.getLast?_concat] at he
      cases he
      exact Bool.eq_false_iff.2 solid

end Sys2Proof.Machine

namespace Sys2Proof.Machine

/-! ### All the lines cleaned (R133) -/

section

variable (d : List Action) (ns : List Word) (ls : LineStore)

@[simp] theorem LineStore.cleanedAll_nil : LineStore.cleanedAll d [] ls = ls := rfl

@[simp] theorem LineStore.cleanedAll_cons (n : Word) : LineStore.cleanedAll d (n :: ns) ls =
    LineStore.cleanedAll d ns (ls.updateLine n (·.cleaned d)) := rfl

/-- Cleaning changes the current line and the ring alone. -/
theorem LineStore.cleanedAll_eq : LineStore.cleanedAll d ns ls = { ls with
    current := (LineStore.cleanedAll d ns ls).current, ring := (LineStore.cleanedAll d ns ls).ring } := by
  induction ns generalizing ls with
  | nil => rfl
  | cons n ns ih =>
    rw [LineStore.cleanedAll_cons, ih, LineStore.updateLine_eq]

/-- The line that is the current one stays it while lines are cleaned; what of it is left has been there
before, and not behind a discarded STRIKE once it has been cleaned. -/
theorem LineStore.cleanedAll_current : (LineStore.cleanedAll d ns ls).current.number = ls.current.number ∧
    ((LineStore.cleanedAll d ns ls).current = ls.current ∨
      ((LineStore.cleanedAll d ns ls).current.entries.map (·.id)).Sublist
        ((ls.current.entries.takeWhile fun e => !marked d ls.current.number e.id).map (·.id))) := by
  induction ns using List.reverseRecOn with
  | nil => exact ⟨rfl, .inl rfl⟩
  | append_singleton ns n ih =>
    obtain ⟨number, left⟩ := ih
    have last : LineStore.cleanedAll d (ns ++ [n]) ls =
        (LineStore.cleanedAll d ns ls).updateLine n (·.cleaned d) := List.foldl_concat ..
    rw [last, LineStore.updateLine]
    split
    · refine ⟨number, .inr ?_⟩
      have tidied (l : Line) : ((l.cleaned d).entries.map (·.id)).Sublist
          ((l.entries.takeWhile fun e => !marked d l.number e.id).map (·.id)) :=
        (tidyGaps_ids _).trans (List.filter_sublist.map _)
      refine (tidied _).trans ?_
      obtain same | left := left
      · rw [same]
      · exact ((List.takeWhile_sublist _).map _).trans left
    · exact ⟨number, left⟩

theorem LineStore.cleanedAll_append (ms : List Word) : LineStore.cleanedAll d (ns ++ ms) ls =
    LineStore.cleanedAll d ms (LineStore.cleanedAll d ns ls) := List.foldl_append ..

/-- After its own cleaning no entry of the current line is LIFTING, and none is left from the first one with a
discarded STRIKE on (R133 steps 1 and 2). -/
theorem LineStore.cleanedAll_ends :
    let c := (LineStore.cleanedAll d (ns ++ [ls.current.number]) ls).current
    (∀ e ∈ c.entries, e.live = true) ∧ (c.entries.map (·.id)).Sublist
      ((ls.current.entries.takeWhile fun e => !marked d ls.current.number e.id).map (·.id)) := by
  obtain ⟨number, left⟩ := LineStore.cleanedAll_current d ns ls
  have last : (LineStore.cleanedAll d (ns ++ [ls.current.number]) ls).current =
      (LineStore.cleanedAll d ns ls).current.cleaned d := by
    rw [LineStore.cleanedAll_append, LineStore.cleanedAll_cons, LineStore.cleanedAll_nil,
      LineStore.updateLine, if_pos number]
  intro c
  rw [show c = _ from last]
  refine ⟨tidyGaps_all_live (Line.remains_live _ d), ?_⟩
  refine ((tidyGaps_ids _).trans (List.filter_sublist.map _)).trans ?_
  obtain same | left := left
  · rw [same]
  · exact ((List.takeWhile_sublist _).map _).trans left

/-- With different numbers the cleaning of the ring lines cleans each of them once. -/
theorem LineStore.cleanedAll_ring (done rest : List Line) (hr : ls.ring = done ++ rest)
    (other : ∀ l ∈ rest, l.number ≠ ls.current.number)
    (distinct : (done ++ rest).Pairwise fun a b => a.number ≠ b.number) :
    LineStore.cleanedAll d (rest.map (·.number)) ls =
      { ls with ring := done ++ rest.map (·.cleaned d) } := by
  induction rest generalizing done ls with
  | nil => rw [List.map_nil, List.map_nil, ← hr]; rfl
  | cons l rest ih =>
    have away : ∀ x ∈ done, x.number ≠ l.number := fun x hx =>
      (List.pairwise_append.1 distinct).2.2 x hx l List.mem_cons_self
    have first (done : List Line) (away : ∀ x ∈ done, x.number ≠ l.number) :
        updateFirst l.number (·.cleaned d) (done ++ l :: rest) = done ++ l.cleaned d :: rest := by
      induction done with
      | nil => simp [updateFirst]
      | cons x done ih =>
        rw [List.cons_append, updateFirst, if_neg (away x List.mem_cons_self),
          ih fun y hy => away y (List.mem_cons_of_mem x hy)]
        rfl
    have cleaned : ls.updateLine l.number (·.cleaned d) =
        { ls with ring := (done ++ [l.cleaned d]) ++ rest } := by
      rw [LineStore.updateLine, if_neg (other l List.mem_cons_self).symm, hr, first done away,
        List.append_assoc]
      rfl
    rw [List.map_cons, LineStore.cleanedAll_cons, cleaned,
      ih { ls with ring := (done ++ [l.cleaned d]) ++ rest } (done ++ [l.cleaned d]) rfl fun x hx => other x (List.mem_cons_of_mem l hx)]
    · simp
    · have same : (done ++ [l.cleaned d] ++ rest).map (·.number) = (done ++ l :: rest).map (·.number) := by
        simp [Line.cleaned]
      have numbers := List.pairwise_map.2 distinct
      rw [← same] at numbers
      exact List.pairwise_map.1 numbers

theorem LineStore.cleanedAll_distinct (distinct : ((ls.current :: ls.ring).map (·.number)).Nodup) :
    LineStore.cleanedAll d (ls.ring.map (·.number) ++ [ls.current.number]) ls =
      { ls with current := ls.current.cleaned d, ring := ls.ring.map (·.cleaned d) } := by
  obtain ⟨other, ring⟩ := List.nodup_cons.1 (show (ls.current.number :: ls.ring.map (·.number)).Nodup from distinct)
  rw [LineStore.cleanedAll_append, LineStore.cleanedAll_ring d ls [] ls.ring rfl
    (fun l hl same => other (List.mem_map.2 ⟨l, hl, same⟩)) (List.pairwise_map.1 ring),
    LineStore.cleanedAll_cons, LineStore.cleanedAll_nil, LineStore.updateLine, if_pos rfl]
  rfl

end

/-! ### What the feeding mark feeds (R102) -/

/-- An action that the mark can feed: a STRIKE of its line, or its final FEED. -/
def FeedMark.feeds (m : FeedMark) (a : Action) : Prop :=
  (∃ b, a = .strike b ∧ b.line = m.line) ∨ ∃ d x, m.final = some (d, x) ∧ a = .feed d x

theorem nextMark_keepsFinal {m m' : FeedMark} {l : Line} (h : nextMark m l = some m') : m'.final = m.final := by
  unfold nextMark at h
  repeat' split at h
  all_goals cases h <;> rfl

theorem Entry.blows_line {e : Entry} {line : Word} {b : Blow} (h : b ∈ e.blows line) : b.line = line := by
  obtain ⟨p, -, rfl⟩ := List.mem_map.1 h
  rfl

/-- One action of the mark is fed, and the mark stays in its line. -/
theorem State.feedOne_feeds (s : State) (m : FeedMark) :
    ∃ fed, (s.feedOne m).seq.queue = s.seq.queue ++ fed ∧ (∀ a ∈ fed, m.feeds a) ∧
      ∀ m', (s.feedOne m).lines.mark = some m' → m'.line = m.line ∧ m'.final = m.final := by
  have next {l : Line} (m' : FeedMark) (h : nextMark m l = some m') :
      m'.line = m.line ∧ m'.final = m.final := ⟨nextMark_line h, nextMark_keepsFinal h⟩
  have none {t : State} (queue : t.seq.queue = s.seq.queue)
      (mark : ∀ m', t.lines.mark = some m' → m'.line = m.line ∧ m'.final = m.final) :
      ∃ fed, t.seq.queue = s.seq.queue ++ fed ∧ (∀ a ∈ fed, m.feeds a) ∧
        ∀ m', t.lines.mark = some m' → m'.line = m.line ∧ m'.final = m.final :=
    ⟨[], by rw [queue, List.append_nil], nofun, mark⟩
  unfold State.feedOne
  split
  · split
    · next d x hf =>
      refine ⟨[.feed d x], rfl, fun a ha => .inr ⟨d, x, hf, ?_⟩, nofun⟩
      exact List.mem_singleton.1 ha
    · exact none rfl nofun
  · split
    · exact none rfl nofun
    · next l hl =>
      split
      · exact none rfl next
      · dsimp only
        split
        · exact none rfl next
        · next b hb =>
          refine ⟨[.strike b], rfl, fun a ha => .inl ⟨b, List.mem_singleton.1 ha, ?_⟩, fun m' k => ?_⟩
          · rw [Entry.blows_line (List.mem_of_getElem? hb), LineStore.find_number hl]
          · simp only [State.setMark, State.mapLines] at k
            obtain ⟨-, k⟩ | ⟨-, k⟩ := ite_eq_iff.1 k
            · cases k; exact ⟨rfl, rfl⟩
            · exact next m' k

theorem State.pumpUpTo_feeds (n : Nat) {s : State} {m : FeedMark}
    (h : ∀ m', s.lines.mark = some m' → m'.line = m.line ∧ m'.final = m.final) :
    ∃ fed, (s.pumpUpTo n).seq.queue = s.seq.queue ++ fed ∧ ∀ a ∈ fed, m.feeds a := by
  induction n generalizing s with
  | zero => exact ⟨[], (List.append_nil _).symm, nofun⟩
  | succ n ih =>
    unfold State.pumpUpTo
    split
    · exact ⟨[], (List.append_nil _).symm, nofun⟩
    · next m' hm =>
      split
      · exact ⟨[], (List.append_nil _).symm, nofun⟩
      · obtain ⟨line, final⟩ := h m' hm
        obtain ⟨first, queue, fed, mark⟩ := s.feedOne_feeds m'
        obtain ⟨rest, queue', fed'⟩ := ih (s := s.feedOne m') fun m'' k => by
          rw [← line, ← final]
          exact mark m'' k
        refine ⟨first ++ rest, by rw [queue', queue, List.append_assoc], fun a ha => ?_⟩
        obtain ha | ha := List.mem_append.1 ha
        · have := fed a ha
          rwa [FeedMark.feeds, line, final] at this
        · exact fed' a ha

end Sys2Proof.Machine

namespace Sys2Proof.Machine

/-! ### CLEAR in HALTED, step by step (R132 to R134) -/

/-- Every line cleaned, the ring lines from the oldest and then the current one (log 22). -/
def State.linesCleaned (s : State) : State :=
  (s.lines.ring.map (·.number) ++ [s.lines.current.number]).foldl
    (fun t n => t.cleanLine s.seq.queue n) s.discardQueue

/-- The state before the mechanism is restarted: the bell checked, the feeding mark brought on, and the
current line shown with the cursor at its end. -/
def State.shownCleaned (s : State) : State :=
  let rung := if (s.lines.current.cleaned s.seq.queue).live = s.lines.current.live then s.linesCleaned
    else s.linesCleaned.bellCheck
  rung.fixMark.showFrom 0 rung.fixMark.lines.current.live.length

theorem State.recover_eq (s : State) : s.recover = s.shownCleaned.restart := rfl

theorem State.linesCleaned_only (s : State) : SpellingOnly (s.discardQueue.mapLines
    (LineStore.cleanedAll s.seq.queue (s.lines.ring.map (·.number) ++ [s.lines.current.number])))
    s.linesCleaned :=
  State.cleanLines_only _ _ (.refl s.discardQueue)

/-- The mark alone is brought on. -/
theorem State.fixMark_eq (s : State) : s.fixMark = s.setMark s.fixMark.lines.mark := by
  unfold State.fixMark
  repeat' split
  all_goals rfl

/-- A mark that is brought on stays in its line, or goes. -/
theorem State.fixMark_mark (s : State) :
    (s.lines.mark = none → s.fixMark.lines.mark = none) ∧
    ∀ m, s.lines.mark = some m →
      (∀ m', s.fixMark.lines.mark = some m' → m'.line = m.line ∧ m'.final = m.final) ∧
      (s.fixMark.lines.mark = none → (∃ l, s.lines.find m.line = some l) → m.final = none) := by
  refine ⟨fun none => by rw [State.fixMark, none]; exact none, fun m hm => ?_⟩
  simp only [State.fixMark, hm]
  have stays : (∀ m', s.lines.mark = some m' → m'.line = m.line ∧ m'.final = m.final) ∧
      (s.lines.mark = none → (∃ l, s.lines.find m.line = some l) → m.final = none) := by
    rw [hm]
    exact ⟨fun m' k => by cases k; exact ⟨rfl, rfl⟩, nofun⟩
  split
  · exact stays
  · split
    · next gone => exact ⟨nofun, fun _ ⟨l, hl⟩ => by rw [gone] at hl; cases hl⟩
    · next l hl =>
      split
      · exact stays
      · refine ⟨fun m' k => ⟨nextMark_line k, nextMark_keepsFinal k⟩, fun k _ => ?_⟩
        have none : nextMark m l = none := k
        unfold nextMark at none
        split at none
        · assumption
        · split at none <;> cases none

theorem State.fixMark_congr {s t : State} (h : t.lines = s.lines) :
    t.fixMark.lines.mark = s.fixMark.lines.mark := by
  simp only [State.fixMark, h]
  repeat' split
  all_goals simp [h, State.setMark, State.mapLines]

/-- Between the cleaning and the restart only the bell, the mark and the view change. -/
theorem State.shownCleaned_eq (s : State) : ∃ rung alert, s.shownCleaned = { s.linesCleaned with
    esc := { s.linesCleaned.esc with bellRung := rung }
    alert := alert
    lines := { s.linesCleaned.lines with
      mark := s.linesCleaned.fixMark.lines.mark, viewDepth := 0
      cursor := s.linesCleaned.lines.current.live.length }
    disp := { s.linesCleaned.disp with
      window := windowFor 0 s.linesCleaned.lines.current.live.length } } := by
  have shown (t : State) (h : t = { s.linesCleaned with
      esc := { s.linesCleaned.esc with bellRung := t.esc.bellRung }, alert := t.alert }) :
      t.fixMark.showFrom 0 t.fixMark.lines.current.live.length = { s.linesCleaned with
        esc := { s.linesCleaned.esc with bellRung := t.esc.bellRung }
        alert := t.alert
        lines := { s.linesCleaned.lines with
          mark := s.linesCleaned.fixMark.lines.mark, viewDepth := 0
          cursor := s.linesCleaned.lines.current.live.length }
        disp := { s.linesCleaned.disp with
          window := windowFor 0 s.linesCleaned.lines.current.live.length } } := by
    have lines : t.lines = s.linesCleaned.lines := by rw [h]
    rw [t.fixMark_eq, State.fixMark_congr lines, h]
    rfl
  unfold State.shownCleaned
  split
  · exact ⟨_, _, shown s.linesCleaned rfl⟩
  · exact ⟨_, _, shown _ s.linesCleaned.bellCheck_spec.1⟩

theorem State.restart_eq (s : State) : s.restart = (((s.enqueue
    [.feed (signedDiff s.recoveryTarget s.seq.paperCount) s.typingPoint]).mapDisp fun d =>
    { d with standing := { d.standing with halt := none } }).startHoming .clear).pump := by
  unfold State.restart
  generalize ((s.enqueue [.feed (signedDiff s.recoveryTarget s.seq.paperCount) s.typingPoint]).mapDisp
    fun d => { d with standing := { d.standing with halt := none } }) = t
  have started : (t.startHoming .clear).seq.mech = .homing ∧
      (t.startHoming .clear).seq.work = some (.homing .clear) := by
    unfold State.startHoming
    rw [State.setMech_spec]
    exact ⟨rfl, rfl⟩
  generalize t.startHoming .clear = t at *
  obtain ⟨mech, work⟩ := started
  have working : t.pump.seq.work = some (.homing .clear) := by rw [t.pump_feeding.rest]; exact work
  rw [State.settle, mech, if_neg (by nofun), State.examineHead, working]
  rfl

end Sys2Proof.Machine

namespace Sys2Proof.Machine

/-! ### What CLEAR in HALTED leaves (R132 to R134) -/

/-- Which entries of every line are live. -/
def LineStore.liveness (ls : LineStore) : List (List Bool) :=
  (ls.current :: ls.ring).map fun l => l.entries.map Entry.live

theorem LineStore.worded_liveness (ls : LineStore) : ls.worded.liveness = ls.liveness := by
  simp [LineStore.liveness, LineStore.worded, Line.worded, Function.comp_def]

theorem LineStore.wordless_liveness (ls : LineStore) : ls.wordless.liveness = ls.liveness := by
  simp only [LineStore.liveness, LineStore.wordless, Line.wordless, List.map_cons, List.map_map,
    Function.comp_def]
  rfl

/-- All the lines of a state cleaned of what its queue holds, but for their words. -/
def State.cleanLines (s : State) : LineStore :=
  s.lines.cleanedAll s.seq.queue (s.lines.ring.map (·.number) ++ [s.lines.current.number])

theorem State.linesCleaned_wordless (s : State) : s.linesCleaned.lines.wordless = s.cleanLines.wordless :=
  s.linesCleaned_only.lines

theorem State.linesCleaned_mark (s : State) : s.linesCleaned.lines.mark = s.lines.mark := by
  have same := congrArg LineStore.mark s.linesCleaned_wordless
  have kept : s.cleanLines.mark = s.lines.mark := by rw [State.cleanLines, LineStore.cleanedAll_eq]
  exact same.trans kept

/-- The recovery FEED of R134 step 1 in the lines of a state, with a feeding mark. -/
def LineStore.recoveryFeed (ls : LineStore) (mark : Option FeedMark) (paper : Word) : Action :=
  .feed (signedDiff (match mark.bind fun m => ls.find m.line with
    | some l => l.offset
    | none => ls.current.offset) paper) ls.current.endPoint

/-- The mechanism is restarted with the cleaned lines: the recovery FEED, and what the mark feeds. -/
theorem State.recover_pump (s : State) : ∃ (t : State) (rung : Bool) (alert : AlertUnit), s.recover = t.pump ∧
    t.bus.queue.filter OutFrame.isQuery = s.linesCleaned.bus.queue.filter OutFrame.isQuery ∧
    t = { s.linesCleaned with
      esc := { s.linesCleaned.esc with bellRung := rung }
      alert := alert
      lines := { s.linesCleaned.lines with
        mark := s.linesCleaned.fixMark.lines.mark, viewDepth := 0
        cursor := s.linesCleaned.lines.current.live.length }
      disp := { s.linesCleaned.disp with
        window := windowFor 0 s.linesCleaned.lines.current.live.length
        standing := { s.linesCleaned.disp.standing with pause := none, wheel := none, halt := none } }
      seq := { s.linesCleaned.seq with
        queue := s.linesCleaned.seq.queue ++ [s.linesCleaned.lines.recoveryFeed
          s.linesCleaned.fixMark.lines.mark s.linesCleaned.seq.paperCount]
        work := some (.homing .clear), mech := .homing }
      bus := { s.linesCleaned.bus with queue := t.bus.queue, heldReport := t.bus.heldReport } } := by
  obtain ⟨rung, alert, shown⟩ := s.shownCleaned_eq
  rw [State.recover_eq, State.restart_eq, shown]
  refine ⟨_, rung, alert, rfl, ?_, ?_⟩
  · unfold State.startHoming
    rw [State.setMech_queries]
    rfl
  · unfold State.startHoming
    rw [State.setMech_spec]
    rfl

theorem State.recover_rest (s : State) : s.recover = { s with
    esc := { s.esc with bellRung := s.recover.esc.bellRung }
    alert := s.recover.alert
    lines := s.recover.lines
    spell := { s.spell with pending := s.recover.spell.pending, slots := s.recover.spell.slots }
    disp := { s.disp with window := s.recover.disp.window, standing :=
      { s.disp.standing with pause := none, wheel := none, halt := none } }
    seq := { s.seq with
      queue := s.recover.seq.queue, headStarted := false, retry := false, haltCause := none
      work := some (.homing .clear), mech := .homing }
    corr := s.discardQueue.corr
    bus := { s.bus with queue := s.recover.bus.queue, heldReport := s.recover.bus.heldReport } } := by
  obtain ⟨t, rung, alert, pumped, -, ht⟩ := s.recover_pump
  rw [pumped, t.pump_feeding.rest]
  generalize t.pump = p
  rw [ht, s.linesCleaned_only.rest]
  rfl

/-- The lines as CLEAR leaves them: cleaned, the current one shown with the cursor at its end. -/
theorem State.recover_lines (s : State) :
    s.recover.lines.layout = { s.cleanLines with
      viewDepth := 0, cursor := s.recover.lines.current.live.length }.layout ∧
    s.recover.lines.liveness = s.cleanLines.liveness ∧
    s.recover.typingPoint = s.linesCleaned.lines.current.endPoint := by
  obtain ⟨t, rung, alert, pumped, -, ht⟩ := s.recover_pump
  have lines : t.lines = { s.linesCleaned.lines with
      mark := s.linesCleaned.fixMark.lines.mark, viewDepth := 0
      cursor := s.linesCleaned.lines.current.live.length } := by rw [ht]
  have worded : s.recover.lines.worded = s.linesCleaned.lines.worded := by
    rw [pumped, show t.pump.lines.worded = _ from t.pumpUpTo_worded _, lines]
    rfl
  have current : s.recover.lines.current.worded.live = s.linesCleaned.lines.current.worded.live :=
    congrArg (fun ls : LineStore => ls.current.live) worded
  have layout : s.recover.lines.layout = { s.linesCleaned.lines with
      viewDepth := 0, cursor := s.linesCleaned.lines.current.live.length }.layout := by
    rw [pumped, t.pump_feeding.lines, lines]
    rfl
  refine ⟨?_, ?_, ?_⟩
  · have count : s.linesCleaned.lines.current.live.length = s.recover.lines.current.live.length := by
      have same := congrArg List.length current
      rw [Line.worded_live, Line.worded_live, List.length_map, List.length_map] at same
      exact same.symm
    have cleaned := congrArg (fun ls : LineStore =>
      { ls with viewDepth := 0, cursor := s.recover.lines.current.live.length })
      (LineStore.layout_of_wordless s.linesCleaned_wordless)
    rw [layout, count]
    exact cleaned
  · rw [← LineStore.worded_liveness, worded, LineStore.worded_liveness, ← LineStore.wordless_liveness,
      s.linesCleaned_wordless, LineStore.wordless_liveness]
  · have start : s.recover.lines.current.start = s.linesCleaned.lines.current.start := by
      have same := congrArg (fun ls : LineStore => ls.current.start) layout
      exact same
    rw [State.typingPoint, ← Line.endPoint_worded, start, current, Line.endPoint_worded]

/-- The words as CLEAR leaves them: those of the cleaned lines. -/
theorem State.recover_wordView (s : State) : s.recover.wordView = s.linesCleaned.wordView := by
  obtain ⟨t, rung, alert, pumped, queries, ht⟩ := s.recover_pump
  have fed : t.pump.wordView = t.wordView := by
    rw [State.wordView_eq, State.wordView_eq, show t.pump.lines.wordParts = _ from t.pumpUpTo_wordParts _,
      t.pump_feeding.rest]
  rw [pumped, fed, State.wordView_eq, State.wordView_eq, queries, ht]
  rfl

/-- The queue as CLEAR leaves it: the recovery FEED, and what the mark feeds. -/
theorem State.recover_queue (s : State) : ∃ fed,
    s.recover.seq.queue = s.linesCleaned.lines.recoveryFeed s.linesCleaned.fixMark.lines.mark
      s.seq.paperCount :: fed ∧
    (s.lines.mark = none → fed = []) ∧
    ∀ m, s.lines.mark = some m → ∀ a ∈ fed, m.feeds a := by
  obtain ⟨t, rung, alert, pumped, -, ht⟩ := s.recover_pump
  have mark : t.lines.mark = s.linesCleaned.fixMark.lines.mark := by rw [ht]
  have before := s.linesCleaned_mark
  have queue : t.seq.queue = [s.linesCleaned.lines.recoveryFeed s.linesCleaned.fixMark.lines.mark
      s.seq.paperCount] := by
    rw [ht, s.linesCleaned_only.rest]
    rfl
  obtain ⟨absent, present⟩ := s.linesCleaned.fixMark_mark
  rw [pumped]
  cases hm : s.lines.mark with
  | none =>
    have none : t.lines.mark = none := mark.trans (absent (before.trans hm))
    have idle : t.pump = t := feedingMarkFeeds.1 t (.inl none)
    exact ⟨[], by rw [idle, queue], fun _ => rfl, nofun⟩
  | some m =>
    obtain ⟨fed, actions, feeds⟩ := State.pumpUpTo_feeds (2 * Config.printCapacity) (s := t) (m := m)
      fun m' k => (present m (before.trans hm)).1 m' (mark ▸ k)
    refine ⟨fed, ?_, nofun, fun m' k => ?_⟩
    · rw [show t.pump.seq.queue = _ from actions, queue]
      rfl
    · cases k
      exact feeds

end Sys2Proof.Machine

namespace Sys2Proof.Machine

section

variable {d : List Action}

/-- A GAP is told from the kind of an entry. -/
theorem Entry.isGap_iff (e : Entry) : e.isGap = true ↔ e.kind = .gap := by
  unfold Entry.isGap
  cases e.kind <;> simp

/-- A line with the layout of a cleaned one: its entries are those that stay, tidied. -/
theorem Line.cleaned_layout {l m : Line} (h : m.layout = (l.cleaned d).layout) :
    m = { l with entries := m.entries, words := m.words } ∧
      m.entries.map Entry.shape = (tidyGaps (l.remains d)).map Entry.shape ∧
      (m.entries.filter fun e => !e.isGap).map Entry.shape =
        ((l.remains d).filter fun e => !e.isGap).map Entry.shape ∧
      (∀ e, m.entries.getLast? = some e → e.kind ≠ .gap) ∧
      ∀ i a b, m.entries[i]? = some a → m.entries[i + 1]? = some b → a.kind = .gap → b.kind ≠ .gap := by
  have shapes : m.entries.map Entry.shape = (tidyGaps (l.remains d)).map Entry.shape := by
    have same := congrArg Line.entries h
    exact same
  have live := l.remains_live d
  have solid {es : List Entry} (all : ∀ e ∈ es, e.live = true) :
      es.filter (fun e => !e.isGap) = es.filter (!·.isLiveGap) :=
    List.filter_congr fun e he => by rw [Entry.isLiveGap, all e he, Bool.true_and]
  have unshaped (es : List Entry) : (es.filter fun e => !e.isGap).map Entry.shape =
      (es.map Entry.shape).filter fun e => !e.isGap := by
    rw [List.filter_map]
    rfl
  obtain ⟨chain, last⟩ := tidyGaps_apart live
  refine ⟨?_, shapes, ?_, fun e he => ?_, fun i a b ha hb => ?_⟩
  · have same := congrArg (fun x : Line => { x with entries := m.entries, words := m.words }) h
    exact same
  · rw [unshaped, shapes, ← unshaped, solid (tidyGaps_all_live live), tidyGaps_solid, ← solid live]
  · have shaped := congrArg List.getLast? shapes
    rw [List.getLast?_map, List.getLast?_map, he, Option.map_some] at shaped
    obtain ⟨e', he', same⟩ := Option.map_eq_some_iff.1 shaped.symm
    intro gap
    have kind := congrArg Entry.kind same
    exact Bool.false_ne_true ((last e' he').symm.trans ((Entry.isGap_iff e').2 (kind.trans gap)))
  · have apart : (m.entries.map Entry.shape).IsChain Apart := by
      rw [shapes, List.isChain_map]
      exact chain
    intro ga gb
    rw [List.isChain_map] at apart
    obtain ⟨hi, rfl⟩ := List.getElem?_eq_some_iff.1 hb
    obtain ⟨hi', rfl⟩ := List.getElem?_eq_some_iff.1 ha
    exact List.isChain_iff_getElem.1 apart i hi ⟨(Entry.isGap_iff _).2 ga, (Entry.isGap_iff _).2 gb⟩

end

/-! ### The recovery FEED (R134 step 1) -/

/-- A line that is found is found after the cleaning, with its number and its place on the paper. -/
theorem LineStore.cleanedAll_find (d : List Action) (ns : List Word) {ls : LineStore} {n : Word} {l : Line}
    (h : ls.find n = some l) :
    ∃ es, (LineStore.cleanedAll d ns ls).find n = some { l with entries := es } := by
  induction ns generalizing ls l with
  | nil => exact ⟨l.entries, h⟩
  | cons k ns ih =>
    have found := ls.find_updateLine (f := (·.cleaned d)) (fun _ => rfl) k n
    rw [h, Option.map_some] at found
    rw [LineStore.cleanedAll_cons]
    split at found
    · have cleaned := ih found
      exact cleaned
    · exact ih found

theorem State.linesCleaned_find {s : State} {n : Word} {l : Line} (h : s.lines.find n = some l) :
    ∃ l', s.linesCleaned.lines.find n = some l' ∧ l'.offset = l.offset := by
  obtain ⟨es, found⟩ := LineStore.cleanedAll_find s.seq.queue
    (s.lines.ring.map (·.number) ++ [s.lines.current.number]) h
  have same := s.linesCleaned.lines.find_wordless n
  rw [s.linesCleaned_wordless, LineStore.find_wordless, show s.cleanLines.find n = _ from found,
    Option.map_some] at same
  obtain ⟨l', hl', wordless⟩ := Option.map_eq_some_iff.1 same.symm
  have offset := congrArg Line.offset wordless
  exact ⟨l', hl', offset⟩

theorem State.linesCleaned_current (s : State) :
    s.linesCleaned.lines.current.number = s.lines.current.number ∧
      s.linesCleaned.lines.current.offset = s.lines.current.offset := by
  have number : s.linesCleaned.lines.current.number = s.lines.current.number := by
    have same := congrArg (fun ls : LineStore => ls.current.number) s.linesCleaned_wordless
    exact same.trans (LineStore.cleanedAll_current ..).1
  obtain ⟨l', found, offset⟩ := State.linesCleaned_find (s := s) (n := s.lines.current.number) (if_pos rfl)
  have found' : s.linesCleaned.lines.find s.lines.current.number = some s.linesCleaned.lines.current :=
    if_pos number
  obtain rfl := Option.some.inj (found.symm.trans found')
  exact ⟨number, offset⟩

/-- The recovery FEED goes to the current line if nothing is feeding, and otherwise to the line of the mark. -/
theorem State.recoveryFeed_offset (s : State) :
    let feed := s.linesCleaned.lines.recoveryFeed s.linesCleaned.fixMark.lines.mark s.seq.paperCount
    (s.lines.mark = none →
      feed = .feed (signedDiff s.lines.current.offset s.seq.paperCount) s.recover.typingPoint) ∧
    ∀ m l, s.lines.mark = some m → s.lines.find m.line = some l →
      m.final ≠ none ∨ m.line = s.lines.current.number →
      feed = .feed (signedDiff l.offset s.seq.paperCount) s.recover.typingPoint := by
  obtain ⟨absent, present⟩ := s.linesCleaned.fixMark_mark
  rw [s.linesCleaned_mark] at absent present
  have target (mark : Option FeedMark) (o : Word) (h : (match mark.bind fun m => s.linesCleaned.lines.find m.line with
      | some l => l.offset
      | none => s.linesCleaned.lines.current.offset) = o) : s.linesCleaned.lines.recoveryFeed mark s.seq.paperCount =
        .feed (signedDiff o s.seq.paperCount) s.recover.typingPoint := by
    rw [s.recover_lines.2.2, ← h]
    rfl
  obtain ⟨-, offset⟩ := s.linesCleaned_current
  refine ⟨fun hm => target _ _ ?_, fun m l hm hl feeding => target _ _ ?_⟩
  · rw [absent hm]
    exact offset
  · obtain ⟨stays, goes⟩ := present m hm
    obtain ⟨l', hl', same⟩ := s.linesCleaned_find hl
    cases left : s.linesCleaned.fixMark.lines.mark with
    | none =>
      have current : m.line = s.lines.current.number :=
        feeding.resolve_left fun final => final (goes left ⟨l', hl'⟩)
      have found : s.lines.find m.line = some s.lines.current := if_pos current.symm
      obtain rfl := Option.some.inj (hl.symm.trans found)
      exact offset
    | some m' =>
      rw [Option.bind_some, (stays m' left).1, hl']
      exact same

/-- No entry of the current line is LIFTING after CLEAR, and none is left from the first one with a discarded
STRIKE on. -/
theorem State.recover_current (s : State) :
    (∀ e ∈ s.recover.lines.current.entries, e.live = true) ∧
      (s.recover.lines.current.entries.map (·.id)).Sublist ((s.lines.current.entries.takeWhile fun e =>
        !marked s.seq.queue s.lines.current.number e.id).map (·.id)) := by
  obtain ⟨layout, liveness, -⟩ := s.recover_lines
  obtain ⟨live, left⟩ := LineStore.cleanedAll_ends s.seq.queue (s.lines.ring.map (·.number)) s.lines
  refine ⟨fun e he => ?_, ?_⟩
  · have flags : s.recover.lines.current.entries.map Entry.live = s.cleanLines.current.entries.map Entry.live :=
      (List.cons.inj liveness).1
    have flag := flags ▸ List.mem_map_of_mem (f := Entry.live) he
    obtain ⟨x, hx, same⟩ := List.mem_map.1 flag
    exact same.symm.trans (live x hx)
  · have shapes : s.recover.lines.current.entries.map Entry.shape =
        s.cleanLines.current.entries.map Entry.shape := by
      have same := congrArg (fun ls : LineStore => ls.current.entries) layout
      exact same
    have ids := congrArg (List.map Entry.id) shapes
    rw [List.map_map, List.map_map] at ids
    rw [show s.recover.lines.current.entries.map (·.id) = _ from ids]
    exact left

/-- With different numbers every line is cleaned by its own queue's STRIKEs, and no entry is LIFTING. -/
theorem State.recover_distinct {s : State} (h : ((s.lines.current :: s.lines.ring).map (·.number)).Nodup) :
    s.recover.lines.current.layout = (s.lines.current.cleaned s.seq.queue).layout ∧
      s.recover.lines.ring.map Line.layout = (s.lines.ring.map (·.cleaned s.seq.queue)).map Line.layout ∧
      ∀ m ∈ s.recover.lines.ring, ∀ e ∈ m.entries, e.live = true := by
  obtain ⟨layout, liveness, -⟩ := s.recover_lines
  rw [State.cleanLines, LineStore.cleanedAll_distinct s.seq.queue s.lines h] at layout liveness
  have current := congrArg LineStore.current layout
  have ring := congrArg LineStore.ring layout
  refine ⟨current, ring, fun m hm e he => ?_⟩
  have flags : s.recover.lines.ring.map (fun l => l.entries.map Entry.live) =
      (s.lines.ring.map (·.cleaned s.seq.queue)).map fun l => l.entries.map Entry.live :=
    (List.cons.inj liveness).2
  have flag := flags ▸ List.mem_map_of_mem (f := fun l : Line => l.entries.map Entry.live) hm
  obtain ⟨x, hx, same⟩ := List.mem_map.1 flag
  obtain ⟨l, -, rfl⟩ := List.mem_map.1 hx
  have flag := same ▸ List.mem_map_of_mem (f := Entry.live) he
  obtain ⟨x, hx, same⟩ := List.mem_map.1 flag
  exact same.symm.trans (tidyGaps_all_live (l.remains_live _) x hx)

/-- Settles O50. -/
theorem clearRecovers : Obligations.ClearRecovers := by
  intro s k rest h halted hk discarded stays cleaned distinct clean
  let v := s.withoutKey rest
  let u := v.recover
  have fields := v.recover_rest
  have taken : actClear k v = .take u false := if_pos halted
  have supply : u.supply = s.supply := by rw [show u = _ from fields]; rfl
  have intake : u.intake = { s.intake with keys := rest } := by rw [show u = _ from fields]; rfl
  obtain ⟨t, next, leaves, keys⟩ := leaves_keys_of_taken h (exec_clear h hk) taken supply (by rw [intake])
  have run : s.supply.power = .run := by
    unfold State.machine at halted
    cases power : s.supply.power <;> simp_all
  obtain ⟨fed, queue, alone, feeds⟩ := v.recover_queue
  obtain ⟨toCurrent, toMark⟩ := v.recoveryFeed_offset
  obtain ⟨live, left⟩ := v.recover_current
  have view := congrArg LineStore.viewDepth v.recover_lines.1
  have cursor := congrArg LineStore.cursor v.recover_lines.1
  have seq : u.seq = { s.seq with
      queue := u.seq.queue, headStarted := false, retry := false, haltCause := none
      work := some (.homing .clear), mech := .homing } := by rw [show u = _ from fields]; rfl
  have esc : u.esc = { s.esc with bellRung := u.esc.bellRung } := by rw [show u = _ from fields]; rfl
  have corr : u.corr = s.discardQueue.corr := by rw [show u = _ from fields]; rfl
  have words : u.wordView =
      ((s.lines.ring.map (·.number) ++ [s.lines.current.number]).foldl clean s).wordView := by
    have same : SameWords s v.discardQueue := ⟨rfl, rfl, rfl, rfl, fun _ => rfl, fun _ => rfl, rfl⟩
    exact v.recover_wordView.trans (SameWords.foldl (fun n h => h.cleanLine discarded n) _ same).wordView
  refine ⟨u, t, next, leaves, keys, intake, by rw [seq], by rw [seq], by rw [seq], by rw [seq], by rw [seq],
    by rw [seq], by rw [seq], words, fun hm => ?_, fun m l hm hl feeding => ?_, corr, fun all => ?_, live,
    fun distinct => ?_, view, cursor, by rw [show u = _ from fields], ?_, by rw [esc], by rw [esc],
    by rw [esc], by rw [show u = _ from fields]; rfl, fun _ => left⟩
  · rw [show u.seq.queue = _ from queue, alone hm, toCurrent hm]
    rfl
  · refine ⟨fed, ?_, feeds m hm⟩
    rw [show u.seq.queue = _ from queue, toMark m l hm hl feeding]
    rfl
  · rw [corr]
    refine List.filter_eq_nil_iff.2 fun r hr => ?_
    obtain ⟨x, hx, rfl⟩ := List.mem_map.1 hr
    have := all x hx
    simpa using this
  · obtain ⟨current, ring, ringLive⟩ := State.recover_distinct (s := v) distinct
    refine ⟨Line.cleaned_layout current, ?_, fun i l m hl hm => ?_, ringLive⟩
    · have same := congrArg List.length ring
      rwa [List.length_map, List.length_map, List.length_map] at same
    · have same := congrArg (·[i]?) ring
      simp only [List.getElem?_map] at same
      rw [hm, show v.lines.ring[i]? = some l from hl] at same
      exact Line.cleaned_layout (Option.some.inj same)
  · unfold State.machine
    rw [supply, run, seq]
    rfl

end Sys2Proof.Machine

namespace Sys2Proof.Machine

/-! ### Lifts and what they strike (R144, R145) -/

/-- A target needs a lift for every strike done and for one in execution if it is on paper (R144). -/
theorem State.liftsFor_eq (s : State) (line : Word) (e : Entry) : s.liftsFor line e =
    if e.strike = some .queued ∨ e.strike = some .struck then
      e.done + if s.inExecution line e.id then 1 else 0
    else 0 := by
  simp only [State.liftsFor, ← Entry.onPaper_iff]

/-- The blow of a strike of an entry. -/
def Entry.blowOf (e : Entry) (line : Word) (sub : Nat) (b : Nat × Nat × Bool × Bool) : Blow :=
  ⟨line, e.id, sub, b.1, b.2.1, b.2.2.1, b.2.2.2⟩

theorem Entry.blows_getElem? (e : Entry) (line : Word) (i : Nat) :
    (e.blows line)[i]? = (e.strikeList (e.underscore.getD 0))[i]?.map (e.blowOf line i) := by
  rw [Entry.blows, List.getElem?_map, List.getElem?_zipIdx, Option.map_map, Nat.zero_add]
  rfl

/-- The strikes of an entry, all as blows of one sub-index. -/
theorem Entry.strikeList_blows (e : Entry) (line : Word) (i uw : Nat) :
    (e.strikeList uw).map (e.blowOf line i) =
      (match e.kind with
        | .char c _ bold => ⟨line, e.id, i, c, e.start, false, false⟩ ::
            if bold = true then [⟨line, e.id, i, c, e.start + 1, true, false⟩] else []
        | _ => []) ++
      if e.underline = true then (underscorePositions e.start e.advance uw).map fun p =>
        ⟨line, e.id, i, 95, p, false, true⟩ else [] := by
  rw [Entry.strikeList, List.map_append]
  congr 1
  · cases e.kind with
    | char c f bold => cases bold <;> rfl
    | _ => rfl
  · split
    · rw [List.map_map]
      rfl
    · rfl

/-- A LIFT strikes what the STRIKE of its sub-index strikes, and past those stands within the platen (log 47). -/
theorem State.liftedBlow_spec (s : State) (line : Word) (e : Entry) (i : Nat) :
    (∀ x, (e.blows line)[i]? = some x → s.liftedBlow line e i = x) ∧
    ((e.blows line)[i]? = none →
      s.liftedBlow line e i = { s.liftedBlow line e i with
        line := line, entry := e.id, sub := i, code := 95, boldSecond := false, underscore := true } ∧
      (s.liftedBlow line e i).position ≤ s.esc.platen) := by
  refine ⟨fun x hx => ?_, fun none => ?_⟩
  · rw [State.liftedBlow, hx, Option.getD_some]
  · rw [State.liftedBlow, none, Option.getD_none]
    exact ⟨rfl, Nat.le_of_lt_succ (Nat.mod_lt _ (Nat.succ_pos _))⟩

/-- The STRIKEs that are withdrawn are those of the targets that have not started (R113, R144). -/
theorem State.withdrawnQueue_eq (s : State) (line : Word) (targets : List Entry) :
    (s.seq.queue = [] → s.withdrawnQueue line targets = []) ∧
    ∀ a others, s.seq.queue = a :: others →
      (s.seq.headStarted = true →
        s.withdrawnQueue line targets = a :: others.filter (!isTargetStrike line targets ·)) ∧
      (s.seq.headStarted = false →
        s.withdrawnQueue line targets = (a :: others).filter (!isTargetStrike line targets ·)) := by
  refine ⟨fun empty => by rw [State.withdrawnQueue, empty], fun a others queue => ⟨fun started => ?_,
    fun waiting => ?_⟩⟩
  · rw [State.withdrawnQueue, queue]
    exact if_pos (by rw [started, Bool.true_or])
  · simp only [State.withdrawnQueue, queue, waiting, Bool.false_or, List.filter_cons]

/-! ### The checks of R146 -/

section

variable {s : State} {l : Line} {targets : List Entry}

/-- The correction is a deletion if no entry from the first target on is on paper (R98). -/
theorem State.isDeletion_iff : s.isDeletion l targets = true ↔ s.lines.viewDepth = 0 ∧ l.mode = .hold ∧
    ∀ e ∈ fromFirst l.live targets, e.strike ≠ some .queued ∧ e.strike ≠ some .struck := by
  simp only [State.isDeletion, Bool.and_eq_true, beq_iff_eq, List.all_eq_true, and_assoc, Bool.not_eq_true',
    ← Bool.not_eq_true, Entry.onPaper_iff, not_or, ne_eq]

theorem State.atEnd_iff (live targets : List Entry) :
    atEnd live targets = true ↔ live.getLast?.map (·.id) = targets.getLast?.map (·.id) := by
  simp [atEnd]

theorem gapBefore_iff : gapBefore l targets = true ↔ ∃ g, beforeFirst l.live targets = some g ∧ g.kind = .gap := by
  unfold gapBefore
  cases beforeFirst l.live targets with
  | none => simp
  | some g => simp [Entry.isGap_iff]

/-- The entries but for the targets that need no lift are as many as those that are left (R144). -/
theorem State.withoutTargets_length : (s.withoutTargets l targets).length = (l.entries.filter fun e =>
    ¬ (s.liftsFor l.number e = 0 ∧ ∃ x ∈ targets, x.id = e.id)).length := by
  unfold State.withoutTargets
  induction l.entries with
  | nil => rfl
  | cons e es ih =>
    by_cases target : ∃ x ∈ targets, x.id = e.id
    · have named : isTarget targets e = true := by simpa [isTarget] using target
      by_cases free : s.liftsFor l.number e = 0
      · rw [List.filterMap_cons_none (by rw [named, if_pos rfl, if_pos free]), ih,
          List.filter_cons_of_neg (by simp [target, free])]
      · rw [List.filterMap_cons_some (by rw [named, if_pos rfl, if_neg free]), List.length_cons, ih,
          List.filter_cons_of_pos (by simp [free]), List.length_cons]
    · have other : isTarget targets e = false := by
        rw [← Bool.not_eq_true]
        simpa [isTarget] using target
      rw [List.filterMap_cons_some (by rw [other, if_neg nofun]), List.length_cons, ih,
        List.filter_cons_of_pos (by simpa using .inr fun x hx k => target ⟨x, hx, k⟩), List.length_cons]

theorem State.mismatched_iff {e : Entry} {line : Word} : s.mismatched line e = true ↔
    s.liftsFor line e ≠ 0 ∧ ∃ c g b, e.kind = .char c g b ∧ s.wheel.mounted ≠ some g := by
  unfold State.mismatched
  cases e.kind <;> simp

theorem State.noPlaceForGap_iff : s.noPlaceForGap l targets = true ↔
    l.live.getLast?.map (·.id) ≠ targets.getLast?.map (·.id) ∧ ¬ s.isDeletion l targets = true ∧
      ¬ gapBefore l targets = true ∧ (160 ≤ (l.entries.filter fun e =>
        ¬ (s.liftsFor l.number e = 0 ∧ ∃ x ∈ targets, x.id = e.id)).length ∨ 255 < l.nextId) := by
  rw [← State.withoutTargets_length, ne_eq, ← State.atEnd_iff]
  have capacity : Config.entryCapacity = 160 := rfl
  simp only [State.noPlaceForGap, Bool.and_eq_true, Bool.not_eq_true', Bool.or_eq_true, decide_eq_true_eq,
    Bool.not_eq_true, capacity]
  tauto

theorem State.deletionPasses_iff : s.deletionPasses l targets = true ↔ s.isDeletion l targets = true ∧
    l.endPoint < (s.correctedLine l targets).endPoint ∧
      s.rightLimit l.owner < (s.correctedLine l targets).endPoint := by
  simp only [State.deletionPasses, Bool.and_eq_true, decide_eq_true_eq, and_assoc]
  refine and_congr_right fun deletion => ?_
  rw [State.correctedLine, if_pos deletion]

end

end Sys2Proof.Machine

namespace Sys2Proof.Machine

/-! ### The state before anything is enqueued (R104, R144, R147) -/

section

variable (s : State) (reopen : Bool) (l : Line) (targets : List Entry)

/-- The lines with the newest ring line back in place of the current one, if it is reopened (R104). -/
def State.reopenedLines : LineStore :=
  if reopen = true then { s.lines with current := l, ring := s.lines.ring.dropLast } else s.lines

/-- The lines after the correction (R147 step 4). -/
def State.changedLines : LineStore :=
  (s.reopenedLines reopen l).updateLine l.number fun _ => s.correctedLine l targets

/-- The cursor after the correction, which a reopen has put to the end of the line (R91, R104). -/
def State.changedCursor : Nat :=
  s.correctedCursor l targets (if reopen = true then l.live.length else s.lines.cursor)

theorem State.withdrawn_eq : ∃ t : State, s.withdrawn reopen l targets = t.fixMark ∧ t = { s with
    seq := { s.seq with queue := s.withdrawnQueue l.number targets }
    lines := { s.changedLines reopen l targets with
      cursor := s.changedCursor reopen l targets
      viewDepth := if reopen = true then 0 else s.lines.viewDepth }
    disp := { s.disp with
      window := windowFor (if reopen = true then windowFor 0 l.live.length else s.disp.window)
        (s.changedCursor reopen l targets) }
    esc := if reopen = true then { s.esc with
      paperOffset := l.offset, bellRung := decide (s.esc.right < l.endPoint + 60) } else s.esc } := by
  refine ⟨_, rfl, ?_⟩
  cases reopen with
  | true =>
    have current : { s.lines with current := l, ring := s.lines.ring.dropLast }.updateLine l.number
        (fun _ => s.correctedLine l targets) = { s.lines with
          current := s.correctedLine l targets, ring := s.lines.ring.dropLast } := if_pos rfl
    have reopened : (s.reopened l).lines.updateLine l.number (fun _ => s.correctedLine l targets) =
        { s.lines with
          current := s.correctedLine l targets, ring := s.lines.ring.dropLast
          viewDepth := 0, cursor := l.live.length } := if_pos rfl
    simp only [State.changedLines, State.reopenedLines, if_true, current]
    rw [State.setCursor, State.updateLine, State.mapLines, State.mapLines, State.mapSeq, reopened]
    rfl
  | false =>
    have depth : (s.changedLines false l targets).viewDepth = s.lines.viewDepth := by
      rw [State.changedLines, LineStore.updateLine_eq]
      rfl
    simp only [Bool.false_eq_true, if_false, ← depth]
    rfl

end

/-- A mark stays before a live entry, and otherwise moves on behind the entry that has gone (R102). -/
theorem State.fixMark_place (s : State) :
    (∀ m, s.lines.mark = none ∨ (s.lines.mark = some m ∧ m.place = .finalFeed) →
      s.fixMark.lines.mark = s.lines.mark) ∧
    ∀ m id sub, s.lines.mark = some m → m.place = .action id sub →
      let stays := ∃ x e, s.lines.find m.line = some x ∧ x.entry? id = some e ∧ e.live = true
      (stays → s.fixMark.lines.mark = some m) ∧
      (¬ stays → m.final = none → s.fixMark.lines.mark = none) ∧
      (¬ stays → ∀ x, s.lines.find m.line = some x → s.fixMark.lines.mark = nextMark m x) := by
  refine ⟨fun m hm => ?_, fun m id sub hm hp => ?_⟩
  · obtain hm | ⟨hm, hp⟩ := hm
    · rw [State.fixMark, hm]
      exact hm
    · rw [State.fixMark, hm]
      simp only [hp]
      exact hm
  · intro stays
    have gone (none : ¬ stays) (x : Line) (hx : s.lines.find m.line = some x) :
        s.fixMark = s.setMark (nextMark m x) := by
      have dead : ((x.entry? id).map Entry.live).getD false ≠ true := fun live => by
        cases he : x.entry? id with
        | none => rw [he] at live; cases live
        | some e => exact none ⟨x, e, hx, he, by rw [he] at live; exact live⟩
      simp only [State.fixMark, hm, hp, hx, if_neg dead]
    refine ⟨fun ⟨x, e, hx, he, live⟩ => ?_, fun none final => ?_, fun none x hx => by rw [gone none x hx]; rfl⟩
    · have here : ((x.entry? id).map Entry.live).getD false = true := by rw [he]; exact live
      simp only [State.fixMark, hm, hp, hx, if_pos here]
    · cases hx : s.lines.find m.line with
      | none =>
        simp only [State.fixMark, hm, hp, hx]
        rfl
      | some x =>
        rw [gone none x hx]
        have absent : nextMark m x = Option.none := by rw [nextMark, final]
        exact absent

end Sys2Proof.Machine

namespace Sys2Proof.Machine

/-! ### The correction carried out (R147) -/

section

variable (s : State) (reopen : Bool) (l : Line) (targets : List Entry)

theorem State.withdrawn_rest : s.withdrawn reopen l targets = { s with
    seq := { s.seq with queue := s.withdrawnQueue l.number targets }
    lines := { s.changedLines reopen l targets with
      mark := (s.withdrawn reopen l targets).lines.mark
      cursor := s.changedCursor reopen l targets
      viewDepth := if reopen = true then 0 else s.lines.viewDepth }
    disp := { s.disp with
      window := windowFor (if reopen = true then windowFor 0 l.live.length else s.disp.window)
        (s.changedCursor reopen l targets) }
    esc := if reopen = true then { s.esc with
      paperOffset := l.offset, bellRung := decide (s.esc.right < l.endPoint + 60) } else s.esc } := by
  obtain ⟨t, fixed, ht⟩ := s.withdrawn_eq reopen l targets
  rw [fixed, t.fixMark_eq, ht]
  rfl

/-- The state with everything of the correction but the words: the line changed, the LIFTs enqueued, and the
tape reserved (R147 steps 2 to 4). -/
def State.beforeWords : State :=
  { s.withdrawn reopen l targets with
    corr := { s.corr with
      reserved := s.corr.reserved + s.liftTotal l.number targets
      lifts := s.corr.lifts ++ s.liftRecords l.number targets }
    seq := { (s.withdrawn reopen l targets).seq with
      queue := s.withdrawnQueue l.number targets ++ s.correctionActions reopen l targets } }

theorem State.correct_eq : s.correct reopen l targets =
    if s.headWithdrawn l.number targets = true then
      ((s.beforeWords reopen l targets).resegment l.number).pump.examineHead
    else ((s.beforeWords reopen l targets).resegment l.number).settle := by
  have made : (((s.withdrawn reopen l targets).enqueue (s.correctionActions reopen l targets)).mapCorr
      fun c => { c with
        reserved := c.reserved + s.liftTotal l.number targets
        lifts := c.lifts ++ s.liftRecords l.number targets }) = s.beforeWords reopen l targets := by
    rw [State.beforeWords, s.withdrawn_rest reopen l targets]
    rfl
  rw [← made]
  rfl

/-- What follows the change of the line is the work on its words, the feeding and the head. -/
theorem State.correct_work : WorkOnly (s.beforeWords reopen l targets) (s.correct reopen l targets) := by
  have words := (s.beforeWords reopen l targets).resegment_work l.number
  rw [State.correct_eq]
  split
  · exact words.trans (((State.pump_feeding _).work).trans (State.examineHead_work _))
  · exact words.trans (State.settle_work _)

theorem State.correct_lines : (s.correct reopen l targets).lines =
    ((s.beforeWords reopen l targets).resegment l.number).pump.lines := by
  rw [State.correct_eq]
  split
  · rw [State.examineHead_spec]
  · exact (State.settle_queue _).2

end

section

variable {s : State} {reopen : Bool} {l : Line} {targets : List Entry}

/-- A correction changes the entries of its line and counts a new GAP (R147 step 4). -/
theorem State.correctedLine_eq : s.correctedLine l targets =
    { l with entries := (s.correctedLine l targets).entries, nextId := (s.correctedLine l targets).nextId } := by
  unfold State.correctedLine
  split
  · rfl
  · split <;> rfl

/-- A line put in place of the line of its number is found by it. -/
theorem LineStore.find_replaced {ls : LineStore} {n : Word} {x c : Line} (h : ls.find n = some x)
    (number : c.number = n) : (ls.updateLine n fun _ => c).find n = some c := by
  have same : { c with number := x.number } = c := by rw [LineStore.find_number h, ← number]
  have put := LineStore.updateLine_found h fun y => { c with number := y.number }
  rw [same] at put
  rw [← put, LineStore.find_updateLine (f := fun y => { c with number := y.number }) (fun _ => rfl), h,
    Option.map_some, if_pos rfl, same]

/-- The line corrected is the one found by its number. -/
theorem State.changedLines_find (h : reopen = false → ∃ x, s.lines.find l.number = some x) :
    (s.changedLines reopen l targets).find l.number = some (s.correctedLine l targets) := by
  have found : ∃ x, (s.reopenedLines reopen l).find l.number = some x := by
    cases reopen with
    | true => exact ⟨l, if_pos rfl⟩
    | false => exact h rfl
  obtain ⟨x, hx⟩ := found
  exact LineStore.find_replaced hx (by rw [State.correctedLine_eq])

/-- No target is live after the correction: it has gone or is LIFTING (R144). -/
theorem State.correctedLine_live : ∀ x ∈ (s.correctedLine l targets).live, ∀ e ∈ targets, x.id ≠ e.id := by
  have left (m : Line) : ∀ x ∈ (s.withoutTargets m targets).filter Entry.live, ∀ e ∈ targets, x.id ≠ e.id := by
    intro x hx e he same
    obtain ⟨hx, live⟩ := List.mem_filter.1 hx
    obtain ⟨y, -, put⟩ := List.mem_filterMap.1 hx
    have named {z : Entry} (k : z.id = x.id) : isTarget targets z = true :=
      List.any_eq_true.2 ⟨e, he, by simp [k, same]⟩
    split at put
    · split at put
      · cases put
      · cases put
        cases live
    · next other =>
      cases put
      exact other (named rfl)
  have tidied (m : Line) : ∀ x ∈ (tidyGaps (s.withoutTargets m targets)).filter Entry.live,
      ∀ e ∈ targets, x.id ≠ e.id := by
    rw [tidyGaps_live]
    intro x hx e he same
    have there := (tidyGaps_ids _).subset (List.mem_map_of_mem (f := Entry.id) hx)
    obtain ⟨y, hy, id⟩ := List.mem_map.1 there
    exact left m y hy e he (id.trans same)
  unfold State.correctedLine
  split
  · intro x hx e he same
    have ids := relayout_liveIds s.esc.tabs s.wheel.mounted l.start (tidyGaps (s.withoutTargets l targets))
    have there := ids ▸ List.mem_map_of_mem (f := Entry.id) hx
    obtain ⟨y, hy, id⟩ := List.mem_map.1 there
    exact tidied l y hy e he (id.trans same)
  · split
    · exact tidied l
    · exact tidied _

/-- The line after the correction, among whose live entries no target is (R144, R147 steps 4 to 6). -/
theorem State.correct_find (h : reopen = false → ∃ x, s.lines.find l.number = some x) :
    ∃ l', (s.correct reopen l targets).lines.find l.number = some l' ∧
      l'.entries.map Entry.shape = (s.correctedLine l targets).entries.map Entry.shape ∧
      ∀ x ∈ l'.live, ∀ e ∈ targets, x.id ≠ e.id := by
  have before : (s.beforeWords reopen l targets).lines.find l.number = some (s.correctedLine l targets) := by
    rw [← State.changedLines_find h, State.beforeWords, State.withdrawn_rest]
    rfl
  have worded := ((s.beforeWords reopen l targets).resegment l.number).lines.find_wordless l.number
  rw [((s.beforeWords reopen l targets).resegment_only l.number).lines, LineStore.find_wordless, before,
    Option.map_some] at worded
  obtain ⟨x, hx, wordless⟩ := Option.map_eq_some_iff.1 worded.symm
  obtain ⟨l', hl', ids⟩ := (State.pump_feeding _).plain l.number x hx
  have fed := ((s.beforeWords reopen l targets).resegment l.number).pump.lines.find_layout l.number
  rw [(State.pump_feeding _).lines, LineStore.find_layout, hx, hl', Option.map_some, Option.map_some] at fed
  refine ⟨l', by rw [State.correct_lines, hl'], ?_, ?_⟩
  · have entries := congrArg Line.entries ((Option.some.inj fed).symm.trans
      ((Line.layout_wordless x).symm.trans (congrArg Line.layout wordless)))
    rw [Line.layout_wordless] at entries
    exact entries
  · have same := congrArg (fun y : Line => y.live.map (·.id)) wordless
    have bare (y : Line) : y.wordless.live.map (·.id) = y.live.map (·.id) := by
      simp only [Line.live, Line.wordless, List.filter_map, List.map_map]
      rfl
    have kept : l'.live.map (·.id) = (s.correctedLine l targets).live.map (·.id) := by
      rw [ids, ← bare x, ← bare (s.correctedLine l targets)]
      exact same
    intro z hz e he id
    obtain ⟨y, hy, same⟩ := List.mem_map.1 (kept ▸ List.mem_map_of_mem (f := Entry.id) hz)
    exact s.correctedLine_live y hy e he (same.trans id)

end

end Sys2Proof.Machine

namespace Sys2Proof.Machine

/-! ### The cursor where entries are cut out (R91) -/

theorem findIdx?_id_at {es before after : List Entry} {x : Entry} {i : Nat}
    (ids : es.map (·.id) = (before ++ x :: after).map (·.id)) (first : ∀ y ∈ before, y.id ≠ i)
    (here : x.id = i) : es.findIdx? (·.id == i) = some before.length := by
  rw [findIdx?_id_congr ids, List.findIdx?_append, List.findIdx?_eq_none_iff.2 (by simpa using first),
    Option.none_or, List.findIdx?_cons]
  simp [here]

theorem id_apart {xs ys : List Entry} {y : Entry} (nodup : ((xs ++ y :: ys).map (·.id)).Nodup) :
    ∀ x ∈ xs ++ ys, x.id ≠ y.id := by
  rw [List.map_append, List.map_cons, List.nodup_middle, List.nodup_cons, ← List.map_append] at nodup
  exact fun x hx same => nodup.1 (List.mem_map.2 ⟨x, hx, same⟩)

/-- A cursor stands behind as many entries as before, but for those that have gone (R91). -/
theorem keepCursor_filter {old new : List Entry} {p : Entry → Bool} (ids : (old.map (·.id)).Nodup)
    (left : new.map (·.id) = (old.filter p).map (·.id)) (c : Nat) :
    keepCursor old new c = ((old.take c).filter p).length := by
  have count : new.length = (old.filter p).length := by
    have same := congrArg List.length left
    rwa [List.length_map, List.length_map] at same
  have ahead (pre post : List Entry) (split : old = pre ++ post) :
      (post.findSome? fun e => new.findIdx? (·.id == e.id)).getD new.length = (pre.filter p).length := by
    induction post generalizing pre with
    | nil => rw [List.findSome?_nil, Option.getD_none, count, split, List.append_nil]
    | cons e post ih =>
      have others := id_apart (split ▸ ids)
      have kept := congrArg (List.filter p) split
      rw [List.filter_append] at kept
      rw [List.findSome?_cons]
      by_cases stays : p e = true
      · rw [List.filter_cons_of_pos stays] at kept
        rw [findIdx?_id_at (kept ▸ left) (fun y hy => others y (List.mem_append_left _ (List.mem_filter.1 hy).1)) rfl]
        rfl
      · have gone : new.findIdx? (·.id == e.id) = none := by
          rw [findIdx?_id_congr left, kept, List.filter_cons_of_neg stays, ← List.filter_append,
            List.findIdx?_eq_none_iff]
          exact fun y hy => beq_false_of_ne (others y (List.mem_filter.1 hy).1)
        rw [gone]
        have next := ih (pre ++ [e]) (by rw [split, List.append_assoc]; rfl)
        rwa [List.filter_append, List.filter_cons_of_neg stays, List.filter_nil, List.append_nil] at next
  unfold keepCursor
  split
  · next beyond => rw [List.take_of_length_le beyond, count]
  · exact ahead (old.take c) (old.drop c) (List.take_append_drop c old).symm

/-- The entries that are not among those cut out of the middle of a list. -/
theorem filter_not_isTarget {before gone rest : List Entry}
    (ids : ((before ++ gone ++ rest).map (·.id)).Nodup) :
    before.filter (!isTarget gone ·) = before ∧ gone.filter (!isTarget gone ·) = [] ∧
      rest.filter (!isTarget gone ·) = rest := by
  have other (es : List Entry) (apart : ∀ x ∈ es, ∀ y ∈ gone, x.id ≠ y.id) :
      es.filter (!isTarget gone ·) = es := List.filter_eq_self.2 fun x hx => by
    simp only [isTarget, Bool.not_eq_true', List.any_eq_false, beq_iff_eq]
    exact fun y hy same => apart x hx y hy same.symm
  rw [List.map_append, List.map_append, List.nodup_append, List.nodup_append] at ids
  obtain ⟨⟨-, -, beforeGone⟩, -, goneRest⟩ := ids
  refine ⟨other before fun x hx y hy => beforeGone _ (List.mem_map_of_mem hx) _ (List.mem_map_of_mem hy), ?_,
    other rest fun x hx y hy same => goneRest _ (List.mem_append_right _ (List.mem_map_of_mem hy)) _
      (List.mem_map_of_mem hx) same.symm⟩
  rw [List.filter_eq_nil_iff]
  intro x hx
  simp only [isTarget, Bool.not_eq_true', Bool.not_eq_false, List.any_eq_true, beq_iff_eq]
  exact ⟨x, hx, rfl⟩

/-- A cursor before the entries cut out keeps its index, one behind them its entry, and one at them stands where
they were. -/
theorem keepCursor_cut {new before gone rest : List Entry}
    (ids : ((before ++ gone ++ rest).map (·.id)).Nodup) (left : new.map (·.id) = (before ++ rest).map (·.id))
    (c : Nat) : keepCursor (before ++ gone ++ rest) new c =
      min c before.length + min (c - (before.length + gone.length)) rest.length := by
  obtain ⟨hb, hg, hr⟩ := filter_not_isTarget ids
  have kept : (before ++ gone ++ rest).filter (!isTarget gone ·) = before ++ rest := by
    rw [List.filter_append, List.filter_append, hb, hg, hr, List.append_nil]
  have none (n : Nat) : (gone.take n).filter (!isTarget gone ·) = [] := by
    rw [List.filter_eq_nil_iff] at hg ⊢
    exact fun x hx => hg x (List.mem_of_mem_take hx)
  have all {es : List Entry} (h : es.filter (!isTarget gone ·) = es) (n : Nat) :
      (es.take n).filter (!isTarget gone ·) = es.take n := by
    rw [List.filter_eq_self] at h ⊢
    exact fun x hx => h x (List.mem_of_mem_take hx)
  rw [keepCursor_filter ids (by rw [kept, left]), List.take_append, List.take_append, List.filter_append,
    List.filter_append, none, all hb, all hr, List.append_nil, List.length_append, List.length_take,
    List.length_take, List.length_append]

end Sys2Proof.Machine

namespace Sys2Proof.Machine

/-! ### GAPs at the place of a correction (R88, R149, R150) -/

section

variable {es left after : List Entry} {g : Entry}

theorem tidyGaps_chain (live : ∀ e ∈ es, e.live = true) (apart : es.IsChain Apart) : tidyGaps es = beforeGap es := by
  have merged : mergeGaps [] es = es := mergeGaps_apart nofun live apart
  rw [tidyGaps_drops (by rwa [merged]), merged]

theorem beforeGap_of_solid (h : ∀ e ∈ es.getLast?, e.isGap = false) : beforeGap es = es := by
  unfold beforeGap
  cases ends : es.getLast? with
  | none => rfl
  | some e => simp [h e ends]

/-- Live entries that stand apart, with a GAP as the last one, are read before the entries behind them. -/
theorem mergeGaps_front (live : ∀ e ∈ left ++ [g], e.live = true) (apart : (left ++ [g]).IsChain Apart)
    (rest : List Entry) : mergeGaps [] (left ++ g :: rest) = mergeGaps (g :: left.reverse) rest := by
  have merged : mergeGaps [] (left ++ [g]) = left ++ [g] := mergeGaps_apart nofun live apart
  rw [← List.singleton_append, ← List.append_assoc, mergeGaps_append, merged, List.reverse_append]
  rfl

/-- A GAP before live entries takes in a GAP at their front, and stays if they end otherwise. -/
theorem tidyGaps_gap (live : ∀ e ∈ left ++ [g], e.live = true) (gap : g.isGap = true)
    (chain : (left ++ [g]).IsChain Apart) (all : ∀ e ∈ after, e.live = true) (apart : after.IsChain Apart)
    (some : after ≠ []) (last : ∀ e ∈ after.getLast?, e.isGap = false)
    (merged : mergeGaps [] es = mergeGaps (g :: left.reverse) after) :
    tidyGaps es = left ++ { g with advance := g.advance + frontGap after } :: behindGap after := by
  have hg : g.isLiveGap = true := by rw [Entry.isLiveGap, gap, live g (by simp)]; rfl
  have wide := mergeGaps_gap (acc := left.reverse) hg (fun e he => live e (by simp_all)) all apart
    (by rwa [List.reverse_reverse])
  rw [List.reverse_reverse] at wide
  have right : behindGap after ≠ [] ∧ (behindGap after).getLast? = after.getLast? := by
    unfold behindGap
    split
    · next front =>
      cases after with
      | nil => exact absurd rfl some
      | cons x xs =>
        cases xs with
        | nil => exact absurd (last x rfl) (by simpa using front)
        | cons y ys => exact ⟨nofun, rfl⟩
    · exact ⟨some, rfl⟩
  obtain ⟨there, ends⟩ := right
  rw [tidyGaps_drops, merged, wide, beforeGap_of_solid]
  · intro e he
    rw [List.getLast?_append_of_ne_nil _ (List.cons_ne_nil _ _), List.getLast?_cons_of_ne_nil there, ends] at he
    exact last e he
  · rw [merged, wide]
    intro e he
    obtain he | he := List.mem_append.1 he
    · exact live e (List.mem_append_left _ he)
    · obtain rfl | he := List.mem_cons.1 he
      · exact live g (by simp)
      · refine all e ?_
        unfold behindGap at he
        split at he
        · exact List.mem_of_mem_tail he
        · exact he

end

/-! ### The line after a correction (R98, R147 step 4, R149, R150) -/

/-- A new layout concerns the live entries alone (R88). -/
theorem relayout_live (tabs : List Nat) (mounted : Option Family) (p : Nat) (es : List Entry) :
    (relayout tabs mounted p es).filter Entry.live = relayout tabs mounted p (es.filter Entry.live) := by
  induction es generalizing p with
  | nil => rfl
  | cons e es ih =>
    by_cases live : e.live = true
    · rw [List.filter_cons_of_pos live, relayout, relayout, if_pos live, if_pos live,
        List.filter_cons_of_pos (by exact live), ih]
    · rw [List.filter_cons_of_neg live, relayout, if_neg live, List.filter_cons_of_neg live, ih]

theorem relayout_ids (tabs : List Nat) (mounted : Option Family) (p : Nat) (es : List Entry) :
    (relayout tabs mounted p es).map (·.id) = es.map (·.id) := by
  induction es generalizing p with
  | nil => rfl
  | cons e es ih =>
    unfold relayout
    split <;> rw [List.map_cons, List.map_cons, ih]

/-- The targets leave the live entries (R144). -/
theorem State.withoutTargets_live (s : State) (l : Line) (targets : List Entry) :
    (s.withoutTargets l targets).filter Entry.live = l.live.filter (!isTarget targets ·) := by
  unfold State.withoutTargets Line.live
  induction l.entries with
  | nil => rfl
  | cons e es ih =>
    by_cases target : isTarget targets e = true
    · have gone : ((e :: es).filter Entry.live).filter (!isTarget targets ·) =
          (es.filter Entry.live).filter (!isTarget targets ·) := by
        rw [List.filter_filter, List.filter_filter, List.filter_cons_of_neg (by simp [target])]
      rw [gone, ← ih]
      by_cases free : s.liftsFor l.number e = 0
      · rw [List.filterMap_cons_none (by rw [if_pos target, if_pos free])]
      · rw [List.filterMap_cons_some (by rw [if_pos target, if_neg free]), List.filter_cons_of_neg (by exact nofun)]
    · rw [List.filterMap_cons_some (by rw [if_neg target])]
      by_cases live : e.live = true
      · rw [List.filter_cons_of_pos live, List.filter_cons_of_pos live, ih,
          List.filter_cons_of_pos (by simp [target])]
      · rw [List.filter_cons_of_neg live, List.filter_cons_of_neg live, ih]

theorem insertBefore_at {x e : Entry} {before after : List Entry} (first : ∀ y ∈ before, y.id ≠ e.id) :
    insertBefore x e.id (before ++ e :: after) = before ++ x :: e :: after := by
  induction before with
  | nil => exact if_pos rfl
  | cons y ys ih =>
    rw [List.cons_append, insertBefore, if_neg (first y List.mem_cons_self),
      ih fun z hz => first z (List.mem_cons_of_mem y hz)]
    rfl

end Sys2Proof.Machine

namespace Sys2Proof.Machine

/-- A line with the GAP of a correction inside before the first target (R150 step 2). -/
def Line.withGap (l : Line) (targets : List Entry) : Line :=
  { l with entries := insertBefore (gapFor l targets) ((targets.head?.map (·.id)).getD 0) l.entries }

/-- Targets in the middle or at the end of a line's live entries, with the invariants of a line (R86 to R88). -/
structure Correctable (l : Line) (before targets after : List Entry) : Prop where
  split : l.live = before ++ targets ++ after
  present : targets ≠ []
  ids : (l.entries.map (·.id)).Nodup
  fresh : ∀ e ∈ l.entries, e.id < l.nextId
  apart : l.live.IsChain Apart
  last : ∀ e ∈ l.live.getLast?, e.isGap = false

namespace Correctable

variable {l : Line} {before targets after : List Entry} (h : Correctable l before targets after)

include h

theorem liveIds : ((before ++ targets ++ after).map (·.id)).Nodup := by
  rw [← h.split]
  exact h.ids.sublist (List.filter_sublist.map _)

theorem live : ∀ e ∈ before ++ targets ++ after, e.live = true := by
  rw [← h.split]
  exact fun e he => (List.mem_filter.1 he).2

theorem mem : ∀ e ∈ before ++ targets ++ after, e ∈ l.entries := by
  rw [← h.split]
  exact fun e he => (List.mem_filter.1 he).1

theorem chains : before.IsChain Apart ∧ after.IsChain Apart := by
  have apart := h.apart
  rw [h.split] at apart
  obtain ⟨front, back, -⟩ := List.isChain_append.1 apart
  exact ⟨(List.isChain_append.1 front).1, back⟩

theorem afterLast : ∀ e ∈ after.getLast?, e.isGap = false := by
  intro e he
  have some : after ≠ [] := by rintro rfl; cases he
  have last := h.last
  rw [h.split, List.getLast?_append_of_ne_nil _ some] at last
  exact last e he

theorem beforeFirst_eq : fromFirst l.live targets = targets ++ after ∧ beforeFirst l.live targets = before.getLast? := by
  have split := h.split
  have ids := h.liveIds
  cases targets with
  | nil => exact absurd rfl h.present
  | cons t ts =>
    rw [List.append_assoc, List.cons_append] at ids split
    have apart : ∀ e ∈ before, (some t.id != some e.id) = true := fun e he => by
      have other := id_apart ids e (List.mem_append_left _ he)
      simpa using fun same => other same.symm
    have stops : ¬ (some t.id != some t.id) = true := by simp
    rw [fromFirst, beforeFirst, split, List.head?_cons, Option.map_some]
    rw [List.dropWhile_append_of_pos apart, List.takeWhile_append_of_pos apart,
      List.dropWhile_cons_of_neg (p := fun e : Entry => some t.id != some e.id) stops,
      List.takeWhile_cons_of_neg (p := fun e : Entry => some t.id != some e.id) stops, List.append_nil]
    exact ⟨rfl, rfl⟩

theorem isDeletion_iff (s : State) : s.isDeletion l targets = true ↔ s.lines.viewDepth = 0 ∧ l.mode = .hold ∧
    ∀ e ∈ targets ++ after, e.strike ≠ some .queued ∧ e.strike ≠ some .struck := by
  rw [State.isDeletion_iff, h.beforeFirst_eq.1]

theorem atEnd_iff : atEnd l.live targets = true ↔ after = [] := by
  rw [State.atEnd_iff, h.split]
  constructor
  · intro same
    by_contra some
    have ids := h.liveIds
    rw [List.getLast?_append_of_ne_nil _ some, List.getLast?_eq_some_getLast some,
      List.getLast?_eq_some_getLast h.present, Option.map_some, Option.map_some, Option.some.injEq] at same
    rw [List.map_append, List.nodup_append] at ids
    exact ids.2.2 _ (List.mem_map_of_mem (List.mem_append_right _ (List.getLast_mem h.present))) _
      (List.mem_map_of_mem (List.getLast_mem some)) same.symm
  · rintro rfl
    rw [List.append_nil, List.getLast?_append_of_ne_nil _ h.present]

theorem gapBefore_eq : gapBefore l targets = before.getLast?.any Entry.isGap := by
  rw [gapBefore, h.beforeFirst_eq.2]
  cases before.getLast? <;> rfl

/-- The live entries without the targets. -/
theorem withoutTargets_live (s : State) : (s.withoutTargets l targets).filter Entry.live = before ++ after := by
  obtain ⟨hb, ht, ha⟩ := filter_not_isTarget h.liveIds
  rw [State.withoutTargets_live, h.split, List.filter_append, List.filter_append, hb, ht, ha, List.append_nil]

/-- The entries with the GAP of a correction inside before the first target (R150 step 2). -/
theorem gapInserted : ∃ front back, l.entries = front ++ back ∧
    insertBefore (gapFor l targets) ((targets.head?.map (·.id)).getD 0) l.entries =
      front ++ gapFor l targets :: back ∧
    front.filter Entry.live = before ∧ back.filter Entry.live = targets ++ after := by
  have split := h.split
  cases ht : targets with
  | nil => exact absurd ht h.present
  | cons t ts =>
    rw [ht, List.append_assoc, List.cons_append] at split
    obtain ⟨front, back, entries, hf, hb, live⟩ := split_of_live split
    have ids := h.ids
    rw [entries] at ids
    have first : ∀ y ∈ front, y.id ≠ t.id := fun y hy => id_apart ids y (List.mem_append_left _ hy)
    refine ⟨front, t :: back, entries, ?_, hf, ?_⟩
    · rw [entries, List.head?_cons, Option.map_some, Option.getD_some, insertBefore_at first]
    · rw [List.filter_cons_of_pos live, hb]
      rfl

/-- The live entries with the GAP in place of the targets. -/
theorem gap_live (s : State) : (s.withoutTargets (l.withGap targets) targets).filter Entry.live =
    before ++ gapFor l targets :: after := by
  obtain ⟨front, back, -, put, hf, hb⟩ := h.gapInserted
  obtain ⟨beforeKept, gone, afterKept⟩ := filter_not_isTarget h.liveIds
  have new : isTarget targets (gapFor l targets) = false := by
    rw [isTarget, List.any_eq_false]
    intro e he
    have old := h.fresh e (h.mem e (by simp [he]))
    have id : (gapFor l targets).id = l.nextId := rfl
    rw [id, beq_iff_eq]
    omega
  have gapLive : (gapFor l targets).live = true := rfl
  rw [State.withoutTargets_live]
  simp only [Line.live, Line.withGap, put]
  rw [List.filter_append, List.filter_cons_of_pos gapLive, hf, hb, List.filter_append, beforeKept,
    List.filter_cons_of_pos (by rw [new]; rfl), List.filter_append, gone, afterKept]
  rfl

end Correctable

end Sys2Proof.Machine

namespace Sys2Proof.Machine

theorem beforeGap_split {es : List Entry} {g : Entry} (last : es.getLast? = some g) (gap : g.isGap = true) :
    es = beforeGap es ++ [g] := by
  rw [beforeGap, last, Option.any_some, if_pos gap]
  exact (List.dropLast_append_getLast? g last).symm

namespace Correctable

variable {s : State} {l : Line} {before targets after : List Entry} (h : Correctable l before targets after)

include h

theorem beforeLive : ∀ e ∈ before, e.live = true := fun e he => h.live e (by simp [he])

theorem afterLive : ∀ e ∈ after, e.live = true := fun e he => h.live e (by simp [he])

/-- Without GAPs that meet a deletion closes up, and at the end a GAP goes with the targets. -/
theorem tidy_apart (meet : before.getLast?.any Entry.isGap = false ∨ after.head?.any Entry.isGap = false) :
    tidyGaps (before ++ after) = if after = [] then beforeGap before else before ++ after := by
  obtain ⟨front, back⟩ := h.chains
  have live : ∀ e ∈ before ++ after, e.live = true := fun e he =>
    (List.mem_append.1 he).elim (h.beforeLive e) (h.afterLive e)
  have chain : (before ++ after).IsChain Apart := by
    refine List.isChain_append.2 ⟨front, back, fun a ha b hb k => ?_⟩
    rw [Option.mem_def] at ha hb
    rw [ha, hb, Option.any_some, Option.any_some, k.1, k.2] at meet
    exact meet.elim nofun nofun
  rw [tidyGaps_chain live chain]
  split
  · next none => rw [none, List.append_nil]
  · next some =>
    refine beforeGap_of_solid fun e he => ?_
    rw [List.getLast?_append_of_ne_nil _ some] at he
    exact h.afterLast e he

section

variable {g : Entry} (last : before.getLast? = some g) (gap : g.isGap = true)

include last gap

/-- A GAP before the place of the correction takes in a GAP at the front of what is behind. -/
theorem tidy_behind {es : List Entry} {w : Nat} (some : after ≠ []) (merged : mergeGaps [] es =
      mergeGaps ({ g with advance := g.advance + w } :: (beforeGap before).reverse) after) : tidyGaps es =
    beforeGap before ++ { g with advance := g.advance + (w + frontGap after) } :: behindGap after := by
  have split := beforeGap_split last gap
  have live := h.beforeLive
  have front := h.chains.1
  rw [split] at live front
  obtain ⟨first, -, beside⟩ := List.isChain_append.1 front
  have wide := tidyGaps_gap (g := { g with advance := g.advance + w }) (left := beforeGap before)
    (fun e he => ?_) gap ?_ h.afterLive h.chains.2 some h.afterLast merged
  · rw [wide, ← Nat.add_assoc]
  · obtain he | he := List.mem_append.1 he
    · exact live e (List.mem_append_left _ he)
    · rw [List.mem_singleton.1 he]
      exact live g (by simp)
  · refine List.isChain_append.2 ⟨first, List.isChain_singleton _, fun a ha b hb k => ?_⟩
    cases hb
    exact beside a ha g rfl k

/-- Two GAPs that meet become the left one. -/
theorem tidy_meet {x : Entry} (head : after.head? = some x) (met : x.isGap = true) : tidyGaps (before ++ after) =
    beforeGap before ++ { g with advance := g.advance + x.advance } :: behindGap after := by
  have split := beforeGap_split last gap
  have wide : frontGap after = x.advance := by rw [frontGap, head]; simp [Option.filter, met]
  have live := h.beforeLive
  have front := h.chains.1
  rw [split] at live front
  rw [h.tidy_behind last gap (w := 0) (by rintro rfl; cases head) ?_, wide, Nat.zero_add]
  conv_lhs => rw [split, List.append_assoc, List.singleton_append]
  exact mergeGaps_front live front after

/-- A GAP before the targets becomes wider by them. -/
theorem tidy_widened (some : after ≠ []) : tidyGaps (before ++ gapFor l targets :: after) = beforeGap before ++
    { g with advance := g.advance + (totalAdvance targets + frontGap after) } :: behindGap after := by
  have split := beforeGap_split last gap
  have live := h.beforeLive
  have front := h.chains.1
  rw [split] at live front
  refine h.tidy_behind last gap some ?_
  conv_lhs => rw [split, List.append_assoc, List.singleton_append]
  have widened : widenLastGap (gapFor l targets).advance (g :: (beforeGap before).reverse) =
      Option.some ({ g with advance := g.advance + totalAdvance targets } :: (beforeGap before).reverse) := by
    rw [widenLastGap, live g (by simp), gap]
    rfl
  rw [mergeGaps_front live front, mergeGaps, widened]
  rfl

end

/-- With no GAP before the targets a new one stands in their place. -/
theorem tidy_new (some : after ≠ []) (solid : before.getLast?.any Entry.isGap = false) :
    tidyGaps (before ++ gapFor l targets :: after) = before ++
      { gapFor l targets with advance := totalAdvance targets + frontGap after } :: behindGap after := by
  have live : ∀ e ∈ before ++ [gapFor l targets], e.live = true := fun e he => by
    obtain he | he := List.mem_append.1 he
    · exact h.beforeLive e he
    · rw [List.mem_singleton.1 he]
      rfl
  have chain : (before ++ [gapFor l targets]).IsChain Apart := by
    refine List.isChain_append.2 ⟨h.chains.1, List.isChain_singleton _, fun a ha b _ k => ?_⟩
    rw [Option.mem_def] at ha
    rw [ha, Option.any_some, k.1] at solid
    cases solid
  exact tidyGaps_gap live rfl chain h.afterLive h.chains.2 some h.afterLast (mergeGaps_front live chain after)

end Correctable

end Sys2Proof.Machine

namespace Sys2Proof.Machine

/-! ### The fates of the targets (R144) -/

section

variable {s : State} {m : Line} {targets : List Entry}

theorem isTarget_of_mem {e : Entry} (he : e ∈ targets) : isTarget targets e = true :=
  List.any_eq_true.2 ⟨e, he, beq_self_eq_true _⟩

theorem findIdx?_id_getD {before after : List Entry} {x : Entry} {i : Nat} (first : ∀ y ∈ before, y.id ≠ i)
    (here : x.id = i) (n : Nat) : ((before ++ x :: after).findIdx? (·.id == i)).getD n = before.length := by
  rw [findIdx?_id_at rfl first here, Option.getD_some]

/-- Some entries are those before a GAP at their end, and that GAP if there is one. -/
theorem beforeGap_append (es : List Entry) : ∃ gap, es = beforeGap es ++ gap := by
  unfold beforeGap
  split
  · exact ⟨_, (List.take_append_drop (es.length - 1) es).symm.trans (by rw [List.dropLast_eq_take])⟩
  · exact ⟨[], (List.append_nil _).symm⟩

theorem mem_tidyGaps {es : List Entry} {e : Entry} (he : e ∈ es) (solid : e.isLiveGap = false) :
    e ∈ tidyGaps es := by
  have there : e ∈ es.filter (!·.isLiveGap) := List.mem_filter.2 ⟨he, by simp [solid]⟩
  rw [← tidyGaps_solid] at there
  exact (List.mem_filter.1 there).1

theorem State.withoutTargets_lifting {e : Entry} (he : e ∈ m.entries) (target : isTarget targets e = true)
    (lifted : s.liftsFor m.number e ≠ 0) :
    { e with strike := some .lifting } ∈ s.withoutTargets m targets :=
  List.mem_filterMap.2 ⟨e, he, by rw [if_pos target, if_neg lifted]⟩

theorem State.withoutTargets_from {x : Entry} (hx : x ∈ tidyGaps (s.withoutTargets m targets)) :
    ∃ y ∈ m.entries, y.id = x.id ∧ (isTarget targets y = true → s.liftsFor m.number y ≠ 0) := by
  obtain ⟨z, hz, same⟩ := List.mem_map.1 ((tidyGaps_ids _).subset (List.mem_map_of_mem (f := Entry.id) hx))
  obtain ⟨y, hy, put⟩ := List.mem_filterMap.1 hz
  split at put
  · split at put
    · cases put
    · next lifted =>
      cases put
      exact ⟨y, hy, same, fun _ => lifted⟩
  · next other =>
    cases put
    exact ⟨_, hy, same, fun target => absurd target other⟩

end

namespace Correctable

variable {s : State} {l : Line} {before targets after : List Entry} (h : Correctable l before targets after)

include h

theorem mem_targets {e : Entry} (he : e ∈ targets) : e ∈ l.entries := h.mem e (by simp [he])

/-- The line as corrected, by the three kinds of a correction (R98, R149, R150). -/
theorem corrected (s : State) :
    (s.isDeletion l targets = true → s.correctedLine l targets = s.afterDeletion l targets) ∧
    (¬ s.isDeletion l targets = true → after = [] → s.correctedLine l targets = s.afterEnd l targets) ∧
    (¬ s.isDeletion l targets = true → after ≠ [] → s.correctedLine l targets = s.afterInside l targets) := by
  refine ⟨fun deletion => if_pos deletion, fun kept ends => ?_, fun kept inside => ?_⟩
  · rw [State.correctedLine, if_neg kept, if_pos (h.atEnd_iff.2 ends)]
  · rw [State.correctedLine, if_neg kept, if_neg fun ends => inside (h.atEnd_iff.1 ends)]

/-- A target that needs lifts stays as a LIFTING entry, and no other stays (R144). -/
theorem fates {e : Entry} (he : e ∈ targets) :
    (s.liftsFor l.number e ≠ 0 →
      { e with strike := some .lifting } ∈ (s.correctedLine l targets).entries) ∧
    (s.liftsFor l.number e = 0 → ∀ x ∈ (s.correctedLine l targets).entries, x.id ≠ e.id) := by
  obtain ⟨deleted, ended, inside⟩ := h.corrected s
  obtain ⟨front, back, entries, put, -, -⟩ := h.gapInserted
  have mem := h.mem_targets he
  have withGap {x : Entry} (hx : x ∈ (l.withGap targets).entries) : x ∈ l.entries ∨ x = gapFor l targets := by
    rw [Line.withGap, put, List.mem_append, List.mem_cons] at hx
    rw [entries, List.mem_append]
    tauto
  have gone (free : s.liftsFor l.number e = 0) {m : Line} (number : m.number = l.number)
      (origin : ∀ y ∈ m.entries, y ∈ l.entries ∨ y = gapFor l targets) :
      ∀ x ∈ tidyGaps (s.withoutTargets m targets), x.id ≠ e.id := by
    intro x hx same
    obtain ⟨y, hy, id, lifted⟩ := State.withoutTargets_from hx
    obtain hy | rfl := origin y hy
    · obtain rfl := List.inj_on_of_nodup_map h.ids hy mem (id.trans same)
      exact lifted (isTarget_of_mem he) (number ▸ free)
    · have old := h.fresh e mem
      have new : (gapFor l targets).id = l.nextId := rfl
      omega
  by_cases deletion : s.isDeletion l targets = true
  · obtain ⟨-, -, off⟩ := (h.isDeletion_iff s).1 deletion
    have free : s.liftsFor l.number e = 0 := by
      obtain ⟨queued, struck⟩ := off e (List.mem_append_left _ he)
      rw [State.liftsFor_eq, if_neg (not_or.2 ⟨queued, struck⟩)]
    refine ⟨fun lifted => absurd free lifted, fun _ x hx => ?_⟩
    rw [deleted deletion] at hx
    have there := relayout_ids s.esc.tabs s.wheel.mounted l.start (tidyGaps (s.withoutTargets l targets)) ▸
      List.mem_map_of_mem (f := Entry.id) hx
    obtain ⟨y, hy, id⟩ := List.mem_map.1 there
    exact id ▸ gone free rfl (fun y hy => .inl hy) y hy
  · by_cases ends : after = []
    · rw [ended deletion ends]
      exact ⟨fun lifted => mem_tidyGaps (State.withoutTargets_lifting mem (isTarget_of_mem he) lifted) rfl,
        fun free => gone free rfl fun y hy => .inl hy⟩
    · rw [inside deletion ends]
      refine ⟨fun lifted => mem_tidyGaps (State.withoutTargets_lifting ?_ (isTarget_of_mem he) lifted) rfl,
        fun free => gone (m := l.withGap targets) free rfl fun y hy => withGap hy⟩
      show e ∈ (l.withGap targets).entries
      rw [entries, List.mem_append] at mem
      rw [Line.withGap, put, List.mem_append, List.mem_cons]
      tauto

/-! ### The live entries and the cursor after a correction (R91, R98, R149, R150) -/

theorem deleted_live (deletion : s.isDeletion l targets = true) : (s.correctedLine l targets).live =
      relayout s.esc.tabs s.wheel.mounted l.start (tidyGaps (before ++ after)) ∧
    (s.correctedLine l targets).nextId = l.nextId := by
  rw [(h.corrected s).1 deletion]
  refine ⟨?_, rfl⟩
  rw [← h.withoutTargets_live s, ← tidyGaps_live, ← relayout_live]
  rfl

theorem ended_live (kept : ¬ s.isDeletion l targets = true) (ends : after = []) :
    (s.correctedLine l targets).live = beforeGap before ∧ (s.correctedLine l targets).nextId = l.nextId := by
  rw [(h.corrected s).2.1 kept ends]
  refine ⟨?_, rfl⟩
  have tidy := h.tidy_apart (.inr (by rw [ends]; rfl))
  rw [if_pos ends] at tidy
  rw [← tidy, ← h.withoutTargets_live s, ← tidyGaps_live]
  rfl

theorem inside_live (kept : ¬ s.isDeletion l targets = true) (inside : after ≠ []) :
    (s.correctedLine l targets).live = tidyGaps (before ++ gapFor l targets :: after) ∧
    (s.correctedLine l targets).nextId =
      if before.getLast?.any Entry.isGap then l.nextId else l.nextId + 1 := by
  rw [(h.corrected s).2.2 kept inside]
  refine ⟨?_, ?_⟩
  · rw [← h.gap_live s, ← tidyGaps_live]
    rfl
  · rw [← h.gapBefore_eq]
    rfl

/-- A cursor of a correction at the end stands no further than what is left. -/
theorem cursor_end (ends : after = []) (c : Nat) :
    s.correctedCursor l targets c = min c (beforeGap before).length := by
  have ids : (s.correctedLine l targets).live.map (·.id) = (beforeGap before ++ ([] : List Entry)).map (·.id) := by
    rw [List.append_nil]
    by_cases deletion : s.isDeletion l targets = true
    · have tidy := h.tidy_apart (.inr (by rw [ends]; rfl))
      rw [if_pos ends] at tidy
      rw [(h.deleted_live deletion).1, tidy, relayout_ids]
    · rw [(h.ended_live deletion ends).1]
  obtain ⟨gap, split⟩ := beforeGap_append before
  have old : l.live = beforeGap before ++ (gap ++ targets) ++ [] := by
    rw [h.split, ends, List.append_nil, List.append_nil, ← List.append_assoc, ← split]
  have nodup := h.liveIds
  rw [← h.split, old] at nodup
  have kept := keepCursor_cut nodup ids c
  rw [← old, List.length_nil, Nat.min_zero, Nat.add_zero] at kept
  unfold State.correctedCursor
  simp only [h.atEnd_iff.2 ends, Bool.or_true, if_true]
  exact kept

/-- The entries that a deletion cuts out: the targets, and a GAP behind them that becomes part of the one before
them. -/
theorem cursor_deleted (deletion : s.isDeletion l targets = true) (inside : after ≠ []) {c : Nat}
    (hc : c ≤ l.live.length) :
    let gone := targets.length +
      if before.getLast?.any Entry.isGap = true ∧ after.head?.any Entry.isGap = true then 1 else 0
    s.correctedCursor l targets c =
      if c ≤ before.length then c else if c ≤ before.length + gone then before.length else c - gone := by
  intro gone
  have cursor : s.correctedCursor l targets c = keepCursor l.live (s.correctedLine l targets).live c := by
    simp only [State.correctedCursor, deletion, Bool.true_or, if_true]
  have cut (cutOut rest : List Entry) (count : cutOut.length = gone)
      (old : l.live = before ++ cutOut ++ rest)
      (new : (tidyGaps (before ++ after)).map (·.id) = (before ++ rest).map (·.id)) : s.correctedCursor l targets c =
        if c ≤ before.length then c else if c ≤ before.length + gone then before.length else c - gone := by
    have ids := h.liveIds
    rw [← h.split, old] at ids
    rw [old, List.length_append, List.length_append] at hc
    rw [cursor, old, (h.deleted_live deletion).1, keepCursor_cut ids (by rw [relayout_ids, new]), count]
    rw [count] at hc
    split
    · omega
    · split <;> omega
  by_cases meet : before.getLast?.any Entry.isGap = true ∧ after.head?.any Entry.isGap = true
  · obtain ⟨hg, hx⟩ := meet
    cases last : before.getLast? with
    | none => rw [last] at hg; cases hg
    | some g =>
      cases after with
      | nil => cases hx
      | cons x rest =>
        have gap : g.isGap = true := by rw [last] at hg; exact hg
        refine cut (targets ++ [x]) rest ?_ ?_ ?_
        · rw [List.length_append, List.length_singleton]
          exact congrArg (targets.length + ·) (if_pos ⟨hg, hx⟩).symm
        · rw [h.split]
          simp
        · have behind : behindGap (x :: rest) = rest := if_pos hx
          rw [h.tidy_meet last gap rfl hx, behind]
          conv_rhs => rw [beforeGap_split last gap]
          simp
  · have count : gone = targets.length := congrArg (targets.length + ·) (if_neg meet)
    refine cut targets after count.symm h.split ?_
    rw [h.tidy_apart, if_neg inside]
    rw [not_and_or, Bool.not_eq_true, Bool.not_eq_true] at meet
    exact meet

/-- The cursor stands before the GAP of a correction inside (R150). -/
theorem cursor_inside (kept : ¬ s.isDeletion l targets = true) (inside : after ≠ []) (c : Nat) :
    s.correctedCursor l targets c = (beforeGap before).length := by
  have notEnd : ¬ atEnd l.live targets = true := fun ends => inside (h.atEnd_iff.1 ends)
  have cursor : s.correctedCursor l targets c = ((s.correctedLine l targets).live.findIdx? (·.id ==
      (before.getLast?.bind fun e => if e.isGap then some e.id else none).getD l.nextId)).getD
        (s.correctedLine l targets).live.length := by
    simp only [State.correctedCursor, kept, notEnd, Bool.or_self, Bool.false_eq_true, if_false,
      h.beforeFirst_eq.2]
  rw [cursor, (h.inside_live kept inside).1]
  cases gap : before.getLast?.any Entry.isGap with
  | true =>
    cases last : before.getLast? with
    | none => rw [last] at gap; cases gap
    | some g =>
      have hg : g.isGap = true := by rw [last] at gap; exact gap
      have ids := h.liveIds
      rw [beforeGap_split last hg, List.append_assoc, List.append_assoc, List.singleton_append] at ids
      rw [h.tidy_widened last hg inside, Option.bind_some, if_pos hg, Option.getD_some]
      exact findIdx?_id_getD (x := { g with advance := g.advance + (totalAdvance targets + frontGap after) })
        (fun y hy => id_apart ids y (List.mem_append_left _ hy)) rfl _
  | false =>
    have whole : beforeGap before = before := if_neg (by rw [gap]; nofun)
    have id : (before.getLast?.bind fun e => if e.isGap then some e.id else none) = none := by
      cases last : before.getLast? with
      | none => rfl
      | some g =>
        rw [last, Option.any_some] at gap
        simp [gap]
    rw [h.tidy_new inside gap, id, whole, Option.getD_none]
    exact findIdx?_id_getD (fun y hy => Nat.ne_of_lt (h.fresh y (h.mem y (by simp [hy])))) rfl _

end Correctable

end Sys2Proof.Machine

namespace Sys2Proof.Machine

/-! ### What a correction leaves (R147) -/

section

variable (s : State) (reopen : Bool) (l : Line) (targets : List Entry)

theorem State.correct_rest : s.correct reopen l targets = { s with
    bus := { s.bus with
      queue := (s.correct reopen l targets).bus.queue
      heldReport := (s.correct reopen l targets).bus.heldReport }
    lines := (s.correct reopen l targets).lines
    seq := { s.seq with
      queue := (s.correct reopen l targets).seq.queue, mech := (s.correct reopen l targets).seq.mech
      work := (s.correct reopen l targets).seq.work
      headStarted := (s.correct reopen l targets).seq.headStarted }
    spell := { s.spell with
      pending := (s.correct reopen l targets).spell.pending, slots := (s.correct reopen l targets).spell.slots }
    disp := (s.correct reopen l targets).disp
    esc := if reopen = true then { s.esc with
      paperOffset := l.offset, bellRung := decide (s.esc.right < l.endPoint + 60) } else s.esc
    corr := { s.corr with
      reserved := s.corr.reserved + s.liftTotal l.number targets
      lifts := s.corr.lifts ++ s.liftRecords l.number targets } } := by
  have work := (s.correct_work reopen l targets).rest
  generalize s.correct reopen l targets = u at work ⊢
  rw [work, State.beforeWords, State.withdrawn_rest]

theorem State.correct_layout : (s.correct reopen l targets).lines.layout = { s.changedLines reopen l targets with
    cursor := s.changedCursor reopen l targets
    viewDepth := if reopen = true then 0 else s.lines.viewDepth }.layout := by
  rw [(s.correct_work reopen l targets).lines, State.beforeWords, State.withdrawn_rest]
  rfl

theorem State.changedLines_eq : s.changedLines reopen l targets = { s.lines with
    current := (s.changedLines reopen l targets).current, ring := (s.changedLines reopen l targets).ring } := by
  rw [State.changedLines, LineStore.updateLine_eq]
  cases reopen <;> rfl

theorem State.changedLines_reopened : (s.changedLines true l targets).current = s.correctedLine l targets ∧
    (s.changedLines true l targets).ring = s.lines.ring.dropLast := by
  have put : s.changedLines true l targets =
      { s.lines with current := s.correctedLine l targets, ring := s.lines.ring.dropLast } := if_pos rfl
  rw [put]
  exact ⟨rfl, rfl⟩

theorem State.correct_reopened : (s.correct true l targets).lines.current.number = l.number ∧
    (s.correct true l targets).lines.ring.map (·.number) = s.lines.ring.dropLast.map (·.number) := by
  have layout := s.correct_layout true l targets
  obtain ⟨current, ring⟩ := s.changedLines_reopened l targets
  have number := congrArg (fun ls : LineStore => ls.current.number) layout
  have numbers := congrArg (fun ls : LineStore => ls.ring.map (·.number)) layout
  simp only [LineStore.layout, current, ring, List.map_map, Function.comp_def] at number numbers
  refine ⟨number.trans ?_, numbers⟩
  rw [State.correctedLine_eq]
  rfl

/-- The head STRIKE is withdrawn if it has not started and is one of a target (R144). -/
theorem State.headWithdrawn_iff (line : Word) : s.headWithdrawn line targets = true ↔ s.seq.headStarted = false ∧
    ∃ b others, s.seq.queue = .strike b :: others ∧ b.line = line ∧ ∃ e ∈ targets, e.id = b.entry := by
  unfold State.headWithdrawn
  cases s.seq.queue with
  | nil => simp
  | cons a others => cases a <;> simp [isTargetStrike]

end

/-! ### The line that a correcting key acts on (R104, R139 to R142) -/

theorem chosen_line {reopen reopen' : Bool} {l l' : Line} {targets targets' : List Entry}
    (h : chosen reopen l targets = .targets reopen' l' targets') : reopen = reopen' ∧ l = l' := by
  unfold chosen at h
  split at h
  · cases h
  · cases h
    exact ⟨rfl, rfl⟩

theorem State.chooseAround_line {s : State} {word : Bool} {l : Line} {targets : List Entry}
    (h : s.chooseAround word = .targets false l targets) : l = s.lines.displayed := by
  unfold State.chooseAround at h
  simp only at h
  split at h
  · unfold State.chooseReopen at h
    split at h
    · cases h
    · split at h
      · cases h
      · split at h
        · cases h
        · split at h
          · cases h
          · exact Bool.noConfusion (chosen_line h).1
  · split at h
    · split at h
      · cases h
      · exact (chosen_line h).2.symm
    · exact (chosen_line h).2.symm

theorem State.chooseFlagged_line {s : State} {reopen : Bool} {l : Line} {targets : List Entry}
    (h : s.chooseFlagged = .targets reopen l targets) : l = s.lines.current := by
  unfold State.chooseFlagged at h
  split at h
  · cases h
  · simp only at h
    split at h
    · cases h
    · cases h
      rfl

end Sys2Proof.Machine

namespace Sys2Proof.Machine

section

variable {s : State} {reopen : Bool} {l : Line} {targets : List Entry}

theorem fromFirst_eq (live targets : List Entry) : fromFirst live targets =
    live.dropWhile fun e => decide (targets.head?.map (·.id) ≠ some e.id) := by
  unfold fromFirst
  congr 1
  funext e
  rw [Bool.eq_iff_iff]
  simp

theorem beforeFirst_eq (live targets : List Entry) : beforeFirst live targets =
    (live.takeWhile fun e => decide (targets.head?.map (·.id) ≠ some e.id)).getLast? := by
  unfold beforeFirst
  congr 2
  funext e
  rw [Bool.eq_iff_iff]
  simp

/-- The lift records name the targets that need lifts (R147 step 3). -/
theorem State.liftRecords_eq (s : State) (line : Word) (targets : List Entry) : s.liftRecords line targets =
    (targets.filter fun e => s.liftsFor line e ≠ 0).map fun e => ⟨line, e.id, s.liftsFor line e⟩ := by
  unfold State.liftRecords
  congr 2
  funext e
  rw [Bool.eq_iff_iff]
  simp

/-- The checks of R146 in their order. -/
theorem State.checkFails_order :
    let noWheel := 1 ≤ s.liftTotal l.number targets ∧ s.wheel.mounted = none
    let mismatch := ∃ e ∈ targets, s.mismatched l.number e = true
    let noTape := s.corr.tape - s.corr.reserved < s.liftTotal l.number targets
    let noPlace := s.noPlaceForGap l targets = true
    let passes := s.deletionPasses l targets = true
    let tooMany := 48 < s.liftTotal l.number targets + if reopen = true then 1 else 0
    let fails (m : Message) : Prop := s.checkFails reopen l targets = some m
    (noWheel → fails .noWheel) ∧ (¬ noWheel → mismatch → fails .wheelMismatch) ∧
    (¬ noWheel → ¬ mismatch →
      (noTape → fails .tapeEmpty) ∧ (¬ noTape → noPlace ∨ passes → fails .lineFull) ∧
      (¬ noTape → ¬ noPlace → ¬ passes →
        (tooMany → fails .tooManyLifts) ∧ (¬ tooMany → s.checkFails reopen l targets = none))) := by
  intro noWheel mismatch noTape noPlace passes tooMany fails
  have any : targets.any (s.mismatched l.number) = true ↔ mismatch := List.any_eq_true
  refine ⟨fun a => if_pos a, fun a b => (if_neg a).trans (if_pos (any.2 b)), fun a b => ?_⟩
  have next {c : Option Message} (h : (if noTape then some .tapeEmpty
      else if noPlace then some .lineFull
      else if passes then some .lineFull
      else if tooMany then some .tooManyLifts
      else none) = c) : s.checkFails reopen l targets = c :=
    ((if_neg a).trans (if_neg fun k => b (any.1 k))).trans h
  refine ⟨fun c => next (if_pos c), fun c d => next ?_, fun c d e => ⟨fun f => next ?_, fun f => next ?_⟩⟩
  · rw [if_neg c]
    by_cases place : noPlace
    · exact if_pos place
    · rw [if_neg place, if_pos (d.resolve_left place)]
  · rw [if_neg c, if_neg d, if_neg e, if_pos f]
  · rw [if_neg c, if_neg d, if_neg e, if_neg f]

/-- A correcting key with targets: refused by a check, waiting for room, or carried out (R146, R147). -/
theorem actCorrection_targets {choose : State → Choice} (ht : choose s = .targets reopen l targets) :
    (∀ m, s.checkFails reopen l targets = some m → actCorrection choose s = .refuse (some m)) ∧
    (s.checkFails reopen l targets = none →
      (s.withdrawn reopen l targets).room < (s.correctionActions reopen l targets).length →
      actCorrection choose s = .wait) ∧
    (s.checkFails reopen l targets = none →
      (s.correctionActions reopen l targets).length ≤ (s.withdrawn reopen l targets).room →
      actCorrection choose s = .take (s.correct reopen l targets) false) := by
  unfold actCorrection
  rw [ht]
  refine ⟨fun m fails => ?_, fun passes few => ?_, fun passes places => ?_⟩
  · simp only [fails]
  · simp only [passes, if_neg (Nat.not_le.2 few)]
  · simp only [passes, if_pos places]

end

theorem State.fixMark_withoutKey (s : State) (rest : List Keystroke) :
    (s.withoutKey rest).fixMark = s.fixMark.withoutKey rest := by
  rw [State.fixMark_eq, State.fixMark_congr (s := s) (t := s.withoutKey rest) rfl, s.fixMark_eq]
  rfl

/-- The head key has no part in what is withdrawn. -/
theorem State.withdrawn_withoutKey (s : State) (rest : List Keystroke) (reopen : Bool) (l : Line)
    (targets : List Entry) :
    (s.withoutKey rest).withdrawn reopen l targets = (s.withdrawn reopen l targets).withoutKey rest := by
  obtain ⟨t, fixed, ht⟩ := s.withdrawn_eq reopen l targets
  obtain ⟨t', fixed', ht'⟩ := (s.withoutKey rest).withdrawn_eq reopen l targets
  have same : t' = t.withoutKey rest := by
    rw [ht, ht']
    rfl
  rw [fixed, fixed', same, State.fixMark_withoutKey]

/-- What is on paper, or is being struck, is lifted (R144). -/
theorem State.liftsFor_iff (s : State) (line : Word) (e : Entry) : s.liftsFor line e ≠ 0 ↔
    (e.strike = some .queued ∨ e.strike = some .struck) ∧ (0 < e.done ∨ s.inExecution line e.id = true) := by
  rw [State.liftsFor_eq]
  split
  · next paper =>
    rw [and_iff_right paper]
    split
    · next runs => simp [runs]
    · next idle => simp [idle, Nat.pos_iff_ne_zero]
  · next off => simp [off]

theorem Correctable.of_line {l : Line} {before targets after : List Entry}
    (split : l.live = before ++ targets ++ after) (present : targets ≠ []) (ids : (l.entries.map (·.id)).Nodup)
    (fresh : ∀ e ∈ l.entries, e.id < l.nextId)
    (apart : ∀ i a b, l.live[i]? = some a → l.live[i + 1]? = some b → a.kind = .gap → b.kind ≠ .gap)
    (last : ∀ e, l.live.getLast? = some e → e.kind ≠ .gap) : Correctable l before targets after where
  split := split
  present := present
  ids := ids
  fresh := fresh
  apart := List.isChain_iff_getElem.2 fun i hi k =>
    apart i _ _ (List.getElem?_eq_getElem (Nat.lt_of_succ_lt hi)) (List.getElem?_eq_getElem hi)
      ((Entry.isGap_iff _).1 k.1) ((Entry.isGap_iff _).1 k.2)
  last := fun e he => Bool.eq_false_iff.2 fun gap => last e he ((Entry.isGap_iff e).1 gap)

/-- Settles O37. -/
theorem correctionsCarriedOut : Obligations.CorrectionsCarriedOut := by
  refine ⟨fun s k rest h ho => ?_, fun s reopen l targets => ?_, fun s reopen l targets => ?_,
    fun s line e i => ?_, fun s line targets => ?_, fun s reopen l targets => ?_,
    fun s l before targets after split present gaps ids fresh apart last => ?_⟩
  · intro refused corrects
    let v := s.withoutKey rest
    have carried (i : Instr) (choose : State → Choice) (same : choose v = choose s)
        (line : ∀ l targets, choose s = .targets false l targets → ∃ x, s.lines.find l.number = some x)
        (run : exec i s = .next (s.carryKey k (actCorrection choose v))) : corrects i (choose s) := by
      refine ⟨fun m hm => ?_, fun hw => ?_, fun reopen l targets ht => ?_⟩
      · exact leaves_of_refused h.toHeadKey run (by rw [actCorrection, same, hm])
      · exact stays_of_wait run (by rw [actCorrection, same, hw])
      · intro lifts count queue
        have lifts_eq : lifts = s.liftsFor l.number := funext fun e => (s.liftsFor_eq l.number e).symm
        have total : s.liftTotal l.number targets = count := by rw [State.liftTotal, ← lifts_eq]
        obtain ⟨refuses, waits, takes⟩ := actCorrection_targets (same.trans ht)
        have order := s.checkFails_order (reopen := reopen) (l := l) (targets := targets)
        obtain ⟨noWheel, mismatch, -⟩ := order
        have fails {m : Message} (hm : s.checkFails reopen l targets = some m) : refused i m :=
          leaves_of_refused h.toHeadKey run (refuses m hm)
        refine ⟨fun some none => fails (noWheel ⟨total ▸ some, none⟩), fun f mounted ⟨e, he, lifted, bad⟩ =>
          fails (mismatch (fun k => ?_) ⟨e, he, State.mismatched_iff.2 ⟨?_, ?_⟩⟩), fun m hm => fails hm,
          fun passes few => stays_of_wait run (waits passes (by rw [State.withdrawn_withoutKey]; exact few)), fun passes places => ?_⟩
        · rw [mounted] at k
          cases k.2
        · rwa [lifts_eq] at lifted
        · obtain ⟨c, g, b, kind, other⟩ := bad
          exact ⟨c, g, b, kind, by rw [mounted]; simpa using Ne.symm other⟩
        · let u := v.correct reopen l targets
          have fields : u = _ := v.correct_rest reopen l targets
          have layout : u.lines.layout = _ := v.correct_layout reopen l targets
          have unit {α : Type} (f : State → α) := congrArg f fields
          have taken := takes passes (by rw [State.withdrawn_withoutKey]; exact places)
          obtain ⟨t, next, leaves, keys⟩ := leaves_keys_of_taken h.toHeadKey run taken (unit State.supply)
            (unit (·.intake.keys))
          have corr : u.corr = { s.corr with
              reserved := s.corr.reserved + count
              lifts := s.corr.lifts ++ ((targets.filter fun e => lifts e ≠ 0).map fun e =>
                ⟨l.number, e.id, lifts e⟩) } := by
            rw [unit State.corr, lifts_eq, ← total, State.liftRecords_eq]
            rfl
          refine ⟨u, t, next, leaves, keys, corr, (v.correct_work reopen l targets).actions, ?_,
            unit (·.seq.bold), unit (·.seq.underline), unit (·.spell.isOn), unit (·.alert.silence), ?_, ?_, ?_,
            fun kept => ?_, fun reopened => ?_, unit State.wheel, unit (·.seq.impression)⟩
          · have before : { v.withdrawn reopen l targets with
                corr := u.corr, seq := { (v.withdrawn reopen l targets).seq with queue := queue } } =
                v.beforeWords reopen l targets := by
              rw [unit State.corr]
              rfl
            have head := v.headWithdrawn_iff targets l.number
            have correct := v.correct_eq reopen l targets
            intro base made headGone
            have made_eq : made = (v.beforeWords reopen l targets).resegment l.number :=
              congrArg (State.resegment · l.number) before
            rw [made_eq]
            exact ⟨fun gone => correct.trans (if_pos (head.2 gone)),
              fun stays => correct.trans (if_neg fun gone => stays (head.1 gone))⟩
          · have hold := congrArg LineStore.hold layout
            rw [State.changedLines_eq] at hold
            exact hold
          · exact v.correct_find fun kept => line l targets (kept ▸ ht)
          · exact congrArg LineStore.cursor layout
          · rw [unit State.esc, kept]
            rfl
          · subst reopened
            obtain ⟨current, ring⟩ := v.correct_reopened l targets
            exact ⟨current, ring, unit (·.esc.paperOffset), unit (·.esc.tabs)⟩
    have due {ours : Nat → Bool} (choose : State → Choice) (hc : ours k.code = true) :=
      congrArg (Host.Outcome.next (φ := Fault) (ρ := Refusal))
        (State.examineKey_due h hc (fun _ => actCorrection choose) fun _ => by simp [ho])
    have displayed (word : Bool) (l : Line) (targets : List Entry)
        (ht : s.chooseAround word = .targets false l targets) : ∃ x, s.lines.find l.number = some x := by
      rw [State.chooseAround_line ht]
      exact s.lines.find_displayed
    refine ⟨fun hk => carried .correct (·.chooseAround false) rfl (displayed false) (due _ (by simp [hk])),
      fun hk => carried .wordCorrect (·.chooseAround true) rfl (displayed true) (due _ (by simp [hk])),
      fun hk => carried .spellCorrect State.chooseFlagged rfl (fun l targets ht => ?_) (due _ (by simp [hk]))⟩
    rw [State.chooseFlagged_line ht]
    exact ⟨_, if_pos rfl⟩
  · intro lifts count first inside deletion afterGap remaining limit ending noWheel mismatch noTape noPlace passes
      tooMany fails
    have lifts_eq : lifts = s.liftsFor l.number := funext fun e => (s.liftsFor_eq l.number e).symm
    have deletion_iff : s.isDeletion l targets = true ↔ deletion := by
      rw [State.isDeletion_iff, fromFirst_eq]
    have afterGap_iff : gapBefore l targets = true ↔ afterGap := by
      rw [gapBefore_iff, beforeFirst_eq]
    have total : s.liftTotal l.number targets = count := by rw [State.liftTotal, ← lifts_eq]
    have place : s.noPlaceForGap l targets = true ↔ noPlace := by
      rw [State.noPlaceForGap_iff, deletion_iff, afterGap_iff, ← lifts_eq]
    have limit_eq : s.rightLimit l.owner = limit := by simp [State.rightLimit, limit]
    have passing : s.deletionPasses l targets = true ↔ passes := by
      rw [State.deletionPasses_iff, deletion_iff, limit_eq]
    have mismatched : (∃ e ∈ targets, s.mismatched l.number e = true) ↔ mismatch := by
      simp only [State.mismatched_iff, ← lifts_eq]
      exact Iff.rfl
    have order := s.checkFails_order (reopen := reopen) (l := l) (targets := targets)
    simp only [total, place, passing, mismatched] at order
    exact order
  · intro lifts family
    have lifts_eq : lifts = s.liftsFor l.number := funext fun e => (s.liftsFor_eq l.number e).symm
    rw [lifts_eq]
    rfl
  · intro a uw n underscores strikes b
    have built : strikes = (e.strikeList uw).map (e.blowOf line i) := (e.strikeList_blows line i uw).symm
    have same : (e.blows line)[i]? = strikes[i]? := by
      rw [built, List.getElem?_map, Entry.blows_getElem?]
    obtain ⟨there, past⟩ := s.liftedBlow_spec line e i
    rw [same] at there past
    exact ⟨same, there, past⟩
  · intro strikes queue
    have strikes_eq : strikes = isTargetStrike line targets := funext fun a => by cases a <;> rfl
    rw [strikes_eq]
    exact s.withdrawnQueue_eq line targets
  · intro v base changed
    obtain ⟨t, fixed, ht⟩ := s.withdrawn_eq reopen l targets
    have fields : v = _ := s.withdrawn_rest reopen l targets
    have mark : v.lines.mark = t.fixMark.lines.mark := congrArg (fun u : State => u.lines.mark) fixed
    have before : t.lines.mark = s.lines.mark := by
      rw [ht, State.changedLines_eq]
    have find (n : Word) : t.lines.find n = changed.find n := by
      rw [ht]
      rfl
    obtain ⟨stays, moves⟩ := t.fixMark_place
    simp only [before, find, ← mark] at stays moves
    have unit {α : Type} (f : State → α) := congrArg f fields
    refine ⟨unit State.seq, unit (·.lines.current), unit (·.lines.ring), unit State.wheel,
      by rw [show v = _ from fields], ?_, ?_, unit State.esc, stays, fun m id sub hm hp => ?_⟩
    · rw [show v = _ from fields, State.changedLines_eq]
      rfl
    · rw [show v = _ from fields]
    · obtain ⟨live, absent, gone⟩ := moves m id sub hm hp
      refine ⟨live, absent, fun dead x hx final => ?_⟩
      rw [gone dead x hx]
      exact ⟨fun before e after split held first => nextMark_held final split held first, nextMark_final final⟩
  · intro lifted deletion isGap left right width u
    have c := Correctable.of_line split present ids fresh apart last
    have lifted_iff (e : Entry) : s.liftsFor l.number e ≠ 0 ↔ lifted e := s.liftsFor_iff l.number e
    have deletion_iff : s.isDeletion l targets = true ↔ deletion := c.isDeletion_iff s
    refine ⟨State.correctedLine_eq, fun e he => ?_, fun deleted meet => ?_, fun deleted g x last gap head met => ?_,
      fun deleted inside => ?_, fun deleted ends k => c.cursor_end ends k, fun kept ends => ?_,
      fun kept inside => ⟨fun k => ?_, fun g last gap => ?_, fun solid => ?_⟩⟩
    · obtain ⟨stays, goes⟩ := c.fates (s := s) he
      exact ⟨fun k => stays ((lifted_iff e).2 k), fun k => goes (not_not.1 fun j => k ((lifted_iff e).1 j))⟩
    · obtain ⟨live, next⟩ := c.deleted_live (deletion_iff.2 deleted)
      rw [c.tidy_apart meet] at live
      exact ⟨live, next⟩
    · obtain ⟨live, next⟩ := c.deleted_live (deletion_iff.2 deleted)
      rw [c.tidy_meet last ((Entry.isGap_iff g).2 gap) head ((Entry.isGap_iff x).2 met)] at live
      exact ⟨live, next⟩
    · intro n gone k hk
      exact c.cursor_deleted (deletion_iff.2 deleted) inside hk
    · obtain ⟨live, next⟩ := c.ended_live (fun k => kept (deletion_iff.1 k)) ends
      exact ⟨live, next, c.cursor_end ends⟩
    · exact c.cursor_inside (fun k => kept (deletion_iff.1 k)) inside k
    · obtain ⟨live, next⟩ := c.inside_live (fun k => kept (deletion_iff.1 k)) inside
      have behind : before.getLast?.any Entry.isGap = true := by
        rw [last, Option.any_some, (Entry.isGap_iff g).2 gap]
      rw [c.tidy_widened last ((Entry.isGap_iff g).2 gap) inside] at live
      exact ⟨next.trans (if_pos behind), live⟩
    · obtain ⟨live, next⟩ := c.inside_live (fun k => kept (deletion_iff.1 k)) inside
      have none : before.getLast?.any Entry.isGap = false := by
        cases last : before.getLast? with
        | none => rfl
        | some g =>
          rw [Option.any_some]
          exact Bool.eq_false_iff.2 fun gap => solid g last ((Entry.isGap_iff g).1 gap)
      rw [c.tidy_new inside none] at live
      have whole : left = before := if_neg (by rw [show before.getLast?.any isGap = _ from none]; nofun)
      refine ⟨next.trans (if_neg (by rw [none]; nofun)), fun e he => ?_⟩
      rw [whole]
      refine live.trans ?_
      rw [gapFor, he]
      rfl

end Sys2Proof.Machine

namespace Sys2Proof.Machine

/-! ### Operations that leave the power state and the hold alone (R129, R198) -/

/-- The hold, and Supply and Standby, stand in `t` as in `s`. -/
@[simp] abbrev SamePower (s t : State) : Prop := t.seq.hold = s.seq.hold ∧ t.supply = s.supply

theorem SamePower.trans {s t u : State} (h : SamePower s t) (k : SamePower t u) : SamePower s u :=
  ⟨k.1.trans h.1, k.2.trans h.2⟩

theorem SamePower.foldl {α : Type} {f : State → α → State} (h : ∀ s x, SamePower s (f s x))
    (xs : List α) (s : State) : SamePower s (xs.foldl f s) :=
  ⟨foldl_keeps (·.seq.hold) (fun s x => (h s x).1) xs s,
    foldl_keeps State.supply (fun s x => (h s x).2) xs s⟩

@[simp] theorem State.setMech_hold (s : State) (m : MechState) (p : Option PauseCause)
    (n : Option WheelNeed) : (s.setMech m p n).seq.hold = s.seq.hold := by
  rw [State.setMech_spec]

@[simp] theorem State.examineHead_hold (s : State) : s.examineHead.seq.hold = s.seq.hold := by
  rw [s.examineHead_work.rest]

@[simp] theorem State.startHoming_hold (s : State) (w : HomingWhy) :
    (s.startHoming w).seq.hold = s.seq.hold := by simp [State.startHoming]

@[simp] theorem State.enqueue_hold (s : State) (as : List Action) :
    (s.enqueue as).seq.hold = s.seq.hold := rfl

@[simp] theorem State.pump_hold (s : State) : s.pump.seq.hold = s.seq.hold := by
  rw [s.pump_feeding.rest]

@[simp] theorem State.settle_hold (s : State) : s.settle.seq.hold = s.seq.hold := by
  rw [s.settle_work.rest]

@[simp] theorem State.commit_hold (s : State) (c : List Entry) :
    (s.commit c).seq.hold = s.seq.hold := by
  simp [State.commit]

@[simp] theorem State.relocated_hold (s : State) : s.relocated.seq.hold = s.seq.hold := by
  simp only [State.relocated]
  split <;> simp

@[simp] theorem State.lapseLost_hold (s : State) : s.lapseLost.seq.hold = s.seq.hold := by
  simp only [State.lapseLost]
  (repeat' split) <;> simp

@[simp] theorem State.afterKey_hold (s : State) (c : Bool) :
    (s.afterKey c).seq.hold = s.seq.hold := by
  unfold State.afterKey
  (repeat' split) <;> simp

@[simp] theorem State.refuseKey_hold (s : State) (k : Keystroke) (m : Option Message) :
    (s.refuseKey k m).seq.hold = s.seq.hold := by
  simp only [State.refuseKey]
  split <;> simp

@[simp] theorem State.closeJob_hold (s : State) (n : SourceNo) :
    (s.closeJob n).seq.hold = s.seq.hold := by
  simp only [State.closeJob]
  (repeat' split) <;> simp

@[simp] theorem State.endJob_hold (s : State) (n : SourceNo) (i l : Nat) :
    (s.endJob n i l).seq.hold = s.seq.hold := by
  simp [State.endJob]

@[simp] theorem State.sourceLost_samePower (s : State) (n : SourceNo) :
    SamePower s (s.sourceLost n) := by
  simp only [State.sourceLost]
  (repeat' split) <;> simp

/-! The keys and what they make -/

@[simp] theorem State.returnCommit_samePower (s : State) : SamePower s s.returnCommit := by
  simp [State.returnCommit]

@[simp] theorem State.appendComposed_samePower (s : State) (k : EntryKind) (a : Nat) (u : Bool) :
    SamePower s (s.appendComposed k a u) := by simp [State.appendComposed, State.cursorToEnd]

@[simp] theorem State.wrapCommit_samePower (s : State) (r c : List Entry) :
    SamePower s (s.wrapCommit r c) := by simp [State.wrapCommit]

@[simp] theorem State.wrapWith_samePower (s : State) (k : EntryKind) (a : Nat) (u : Bool) :
    SamePower s (s.wrapWith k a u) := by simp [State.wrapWith]

@[simp] theorem State.wrapEmpty_samePower (s : State) : SamePower s s.wrapEmpty := by
  simp [State.wrapEmpty]

@[simp] theorem State.breakWith_samePower (s : State) (k : EntryKind) (a : Nat) (u : Bool) :
    SamePower s (s.breakWith k a u) := by simp [State.breakWith, State.breakCommit]

@[simp] theorem State.appendPrinted_samePower (s : State) (e : Entry) :
    SamePower s (s.appendPrinted e) := by
  simp only [State.appendPrinted, State.markRest]
  split <;> simp [State.cursorToEnd]

/-- The power state and the hold stand as in `s` in the state that a key is taken with, if it is taken. -/
def KeyOutcome.KeepsPower (s : State) : KeyOutcome → Prop
  | .wait => True
  | .refuse _ => True
  | .take t _ => SamePower s t

@[simp] theorem KeyOutcome.keepsPower_wait (s : State) : KeyOutcome.wait.KeepsPower s := trivial
@[simp] theorem KeyOutcome.keepsPower_refuse (s : State) (m : Option Message) :
    (KeyOutcome.refuse m).KeepsPower s := trivial
@[simp] theorem KeyOutcome.keepsPower_take (s t : State) (b : Bool) :
    (KeyOutcome.take t b).KeepsPower s ↔ SamePower s t := Iff.rfl

theorem State.carryKey_samePower {s : State} (k : Keystroke) {o : KeyOutcome} (ho : o.KeepsPower s.popKey) :
    SamePower s (s.carryKey k o) := by
  cases o with
  | wait => exact ⟨rfl, rfl⟩
  | refuse m => simp [State.carryKey]
  | take t b =>
    obtain ⟨hold, supply⟩ := ho
    simp [State.carryKey, hold, supply]

theorem State.examineKey_samePower (s : State) (ours : Nat → Bool) {act : Keystroke → State → KeyOutcome}
    (ha : ∀ k t, (act k t).KeepsPower t) : SamePower s (s.examineKey ours act) := by
  unfold State.examineKey
  split
  · exact ⟨rfl, rfl⟩
  · next k _ _ =>
    repeat' split
    · exact ⟨rfl, rfl⟩
    · simp
    · simp
    · have carried := State.carryKey_samePower (s := s.claimLine k) k (ha k _)
      simpa using carried

/-- A key placed at the end of a line, into it or at the cursor (R94). -/
@[simp] theorem placeKey_keepsPower (k : EntryKind) (a : Nat) (s : State) :
    (placeKey k a s).KeepsPower s := by
  simp only [placeKey, appendDirect, appendHold, insertInHold, fillAtCursor]
  repeat' split
  all_goals simp

theorem placeTab_keepsPower (s : State) : (placeTab s).KeepsPower s := by
  simp only [placeTab, appendDirect, appendHold, insertInHold]
  repeat' split
  all_goals simp

@[simp] theorem State.moveCursor_keepsPower (s : State) (c : Nat) : (s.moveCursor c).KeepsPower s := by
  unfold State.moveCursor
  repeat' split
  all_goals simp

@[simp] theorem actRelocate_keepsPower (k : Keystroke) (s : State) : (actRelocate k s).KeepsPower s := by
  unfold actRelocate
  split <;> simp

theorem actPaper_keepsPower (d : Int) (k : Keystroke) (s : State) : (actPaper d k s).KeepsPower s := by
  unfold actPaper
  repeat' split
  all_goals simp [State.movePaper]

theorem actStopJob_keepsPower (k : Keystroke) (s : State) : (actStopJob k s).KeepsPower s := by
  have stopped (n : SourceNo) (id : Nat) : SamePower s (s.stopJob n id) := by
    simp only [State.stopJob]
    split <;> simp
  unfold actStopJob
  repeat' split
  all_goals simp [stopped]

@[simp] theorem State.cleanLine_samePower (s : State) (d : List Action) (n : Word) :
    SamePower s (s.cleanLine d n) := by
  unfold State.cleanLine
  (repeat' split) <;> simp

@[simp] theorem State.recover_samePower (s : State) : SamePower s s.recover := by
  have cleaned := SamePower.foldl fun (t : State) n => t.cleanLine_samePower s.seq.queue n
  simp only [State.recover, State.restart]
  split <;> simp [(cleaned _ _).1, (cleaned _ _).2, State.discardQueue]

@[simp] theorem State.addForm_samePower (s : State) (form : List Nat) :
    SamePower s (s.addForm form) := by
  have accepted (t : State) (l : Line) : SamePower t (t.acceptEqual form l) :=
    SamePower.foldl (fun t serial => by simp) _ t
  have all := SamePower.foldl accepted
  simp [State.addForm, State.markUserDirty, (all _ _).1, (all _ _).2]

@[simp] theorem State.correct_samePower (s : State) (reopen : Bool) (l : Line) (es : List Entry) :
    SamePower s (s.correct reopen l es) := by
  simp only [State.correct, State.withdrawn, State.reopened]
  repeat' split
  all_goals simp

theorem actCorrection_keepsPower (choice : State → Choice) (s : State) :
    (actCorrection choice s).KeepsPower s := by
  unfold actCorrection
  repeat' split
  all_goals simp

end Sys2Proof.Machine

namespace Sys2Proof.Machine

/-! ### Text, frames and the mechanism leave the power state alone -/

theorem State.consumeText_samePower (s : State) (ours : Nat → Bool)
    {act : SourceIntake → Nat → State → Option State}
    (ha : ∀ r c t, act r c s = some t → SamePower s t) : SamePower s (s.consumeText ours act) := by
  have consumed (t : State) (n : SourceNo) (h : HeldBlock) : SamePower t (t.textConsumed n h) := by
    simp only [State.textConsumed]
    (repeat' split) <;> simp
  unfold State.consumeText
  repeat' split
  all_goals first
    | exact ⟨rfl, rfl⟩
    | next ht => exact (ha _ _ _ ht).trans (consumed _ _ _)

theorem State.composeText_samePower {s t : State} {k : EntryKind} {a : Nat} {u : Bool}
    (ht : s.composeText k a u = some t) : SamePower s t := by
  unfold State.composeText at ht
  (repeat' split at ht) <;> cases ht <;> simp

theorem textCharacter_samePower {s t : State} {r : SourceIntake} {c : Nat}
    (ht : textCharacter r c s = some t) : SamePower s t := by
  unfold textCharacter at ht
  split at ht
  · cases ht
  · split at ht
    · cases ht; exact ⟨rfl, rfl⟩
    · split at ht <;> exact State.composeText_samePower ht

theorem State.afterSent_samePower (s : State) (a : AnswerCode) (f : OutFrame) :
    SamePower s (s.afterSent a f) := by
  unfold State.afterSent
  (repeat' split) <;> simp

theorem State.offerAnswer_samePower (s : State) (n : StationNo) (tag : Fin 4) (v : Nat) :
    SamePower s (s.offerAnswer n tag v).2 := by
  unfold State.offerAnswer
  (repeat' split) <;> simp

theorem State.takeRoll_samePower (s : State) (n : StationNo) (k a b : Nat) :
    SamePower s (s.takeRoll n k a b) := by
  simp only [State.takeRoll, State.tellUsability]
  (repeat' split) <;> simp

theorem State.countLift_samePower (s : State) (b : Blow) : SamePower s (s.countLift b) := by
  simp only [State.countLift, State.deleteLifted]
  (repeat' split) <;> simp

@[simp] theorem State.halt_samePower (s : State) (c : HaltCause) : SamePower s (s.halt c) := by
  simp [State.halt]

@[simp] theorem State.beginStart_samePower (s : State) : SamePower s s.beginStart := by
  simp only [State.beginStart, State.beginRollCall]
  split <;> simp

end Sys2Proof.Machine

namespace Sys2Proof.Machine

/-! ### Changes of the power state (R129, R198 to R202) -/

theorem State.PowerLawful.of_same {s t : State} (h : s.PowerLawful) (e : SamePower s t) :
    t.PowerLawful := by
  obtain ⟨hold, supply⟩ := e
  exact ⟨by rw [hold, supply]; exact h.hold, by rw [supply]; exact h.prior, by rw [supply]; exact h.wake⟩

/-- The laws do not speak of what a start waits for. -/
theorem State.PowerLawful.mapSupply {s : State} (h : s.PowerLawful) {f : Supply → Supply}
    (power : (f s.supply).power = s.supply.power) (prior : (f s.supply).prior = s.supply.prior)
    (mark : (f s.supply).wakeMark = s.supply.wakeMark) : (s.mapSupply f).PowerLawful :=
  ⟨by simpa [power] using h.hold, by simpa [power, prior] using h.prior,
    by simpa [power, prior, mark] using h.wake⟩

@[simp] theorem State.setPower_supply (s : State) (p : Power) :
    (s.setPower p).supply = { s.supply with power := p } := by simp [State.setPower]

/-- A power state other than POWER-WARN is lawful with the hold off. -/
theorem State.powerLawful_setPower {s : State} {p : Power} (hold : s.seq.hold = false)
    (calm : p ≠ .powerWarn) (mark : s.supply.wakeMark = true → p = .standby) :
    (s.setPower p).PowerLawful :=
  ⟨by simp [hold, calm], by simp [calm], by simpa using fun m => .inl (mark m)⟩

theorem State.PowerLawful.hold_off {s : State} (h : s.PowerLawful) (calm : s.supply.power ≠ .powerWarn) :
    s.seq.hold = false :=
  Bool.eq_false_iff.mpr fun on => calm (h.hold.mp on)

/-- The wake mark is off in a power state that is neither STANDBY nor POWER-WARN. -/
theorem State.PowerLawful.unmarked {s : State} (h : s.PowerLawful) (awake : s.supply.power ≠ .standby)
    (calm : s.supply.power ≠ .powerWarn) : s.supply.wakeMark = false :=
  Bool.eq_false_iff.mpr fun on => (h.wake on).elim awake fun w => calm w.1

theorem State.PowerLawful.leaveStarting {s : State} (h : s.PowerLawful) : s.leaveStarting.PowerLawful := by
  unfold State.leaveStarting
  repeat' split
  · next starting =>
    have unmarked := h.unmarked (by simp [starting]) (by simp [starting])
    exact (State.powerLawful_setPower (p := .run) (h.hold_off (by simp [starting])) (by decide)
      (by simp [unmarked])).of_same (by simp)
  · exact h.of_same (by simp)
  · exact h
  · exact h
  · exact h

theorem State.PowerLawful.endWake {s : State} (h : s.PowerLawful) : s.endWake.PowerLawful := by
  unfold State.endWake
  split
  · next standby =>
    exact State.powerLawful_setPower (by simp [h.hold_off, standby]) (by decide) (by simp)
  · exact h

theorem State.PowerLawful.startWake {s : State} (h : s.PowerLawful) : s.startWake.PowerLawful := by
  unfold State.startWake
  split
  · next asleep =>
    have marked : (s.mapSupply fun u => { u with wakeMark := true }).PowerLawful :=
      ⟨by simpa using h.hold, by simpa using h.prior, by simp [asleep.1]⟩
    exact marked.of_same (by simp)
  · exact h

/-- A keystroke or a block that is taken changes the power state by the wake alone (R25, R34, R201). -/
theorem State.PowerLawful.offerKey {s : State} (h : s.PowerLawful) (n : StationNo) (c r : Nat) :
    (s.offerKey n c r).2.PowerLawful := by
  unfold State.offerKey State.takeKeystroke
  repeat' split
  all_goals first
    | exact h
    | exact (h.of_same (by simp)).startWake

theorem State.PowerLawful.offerText {s : State} (h : s.PowerLawful) (n : StationNo) (b : TextBlock) :
    (s.offerText n b).2.PowerLawful := by
  simp only [State.offerText, State.offerBlock, State.holdBlock, State.jobAt]
  repeat' split
  all_goals first
    | exact h
    | exact (h.of_same (by simp)).startWake

theorem State.PowerLawful.closeRollCall {s : State} (h : s.PowerLawful) : s.closeRollCall.PowerLawful := by
  refine State.PowerLawful.leaveStarting (State.PowerLawful.mapSupply ?_ rfl rfl rfl)
  exact h.of_same (by simp)

theorem State.PowerLawful.homed {s : State} (h : s.PowerLawful) (why : HomingWhy) :
    (s.homed why).PowerLawful := by
  cases why with
  | start => exact (h.mapSupply rfl rfl rfl).leaveStarting
  | wake =>
    refine State.PowerLawful.endWake (h.of_same ?_)
    unfold State.wakeMove
    split <;> simp
  | recovery | clear => exact h

theorem State.PowerLawful.homingHalted {s : State} (h : s.PowerLawful) (why : HomingWhy) :
    (s.homingHalted why).PowerLawful := by
  cases why with
  | start => exact (h.mapSupply rfl rfl rfl).leaveStarting
  | wake => exact h.endWake
  | recovery | clear => exact h

theorem State.PowerLawful.secondExpiry {s : State} (h : s.PowerLawful) (w : Work) (parts : Unsettled) :
    (s.secondExpiry w parts).PowerLawful := by
  have halted (c : HaltCause) : (s.halt c).PowerLawful := h.of_same (s.halt_samePower c)
  simp only [State.secondExpiry]
  split
  · exact (halted _).homingHalted _
  · exact halted _

/-- A start begins in STARTING with the hold off and no wake (R202). -/
theorem State.start_powerLawful (s : State) (c : StartCause) (t : Straps) : (s.start c t).PowerLawful := by
  have fresh : (s.fresh c t).PowerLawful := ⟨by simp [State.fresh, State.reset], nofun, nofun⟩
  simp only [State.start]
  split
  · exact fresh.of_same (by simp)
  · exact fresh.of_same (by simp [State.load])

/-- A warning keeps the state that it came in, with its wake, and sets the hold (R129, R198). -/
theorem State.PowerLawful.supplyWarning {s : State} (h : s.PowerLawful)
    (calm : s.supply.power ≠ .powerWarn) :
    (((s.mapSupply fun u => { u with prior := u.power }).mapSeq fun q =>
      { q with hold := true }).setPower .powerWarn).markTapeDirty.PowerLawful := by
  have wake : s.supply.wakeMark = true → s.supply.power = .standby :=
    fun mark => (h.wake mark).resolve_right fun warned => calm warned.1
  exact ⟨by simp, by simpa using calm, by simpa using wake⟩

/-- The recovery returns to the prior state, which is no warning, and carries on there (R199). -/
theorem State.PowerLawful.supplyRecovery {s : State} (h : s.PowerLawful)
    (warned : s.supply.power = .powerWarn) :
    ((s.mapSeq fun q => { q with hold := false }).setPower s.supply.prior).resume.PowerLawful := by
  have returned : ((s.mapSeq fun q => { q with hold := false }).setPower s.supply.prior).PowerLawful :=
    State.powerLawful_setPower rfl (h.prior warned) (by simpa [warned] using h.wake)
  unfold State.resume
  split
  · exact returned.leaveStarting
  · split
    · exact returned.endWake
    · exact returned
  · exact returned

theorem State.PowerLawful.enterStandby {s : State} (h : s.PowerLawful)
    (idle : s.standbyIdleRunning = true) : s.enterStandby.PowerLawful := by
  have run : s.supply.power = .run := by
    simp only [State.standbyIdleRunning, Bool.and_eq_true, beq_iff_eq] at idle
    simp [idle]
  have standby : (s.setPower .standby).PowerLawful :=
    State.powerLawful_setPower (h.hold_off (by simp [run])) (by decide) fun _ => rfl
  exact standby.of_same (by simp [State.enterStandby])

end Sys2Proof.Machine

namespace Sys2Proof.Machine

/-- Every command keeps the laws of the power state. -/
theorem State.PowerLawful.exec {s : State} (h : s.PowerLawful) (c : Instr) :
    ∃ t, exec c s = .next t ∧ t.PowerLawful := by
  have key {ours : Nat → Bool} {act : Keystroke → State → KeyOutcome}
      (ha : ∀ k t, (act k t).KeepsPower t) :
      ∃ t, (.next (s.examineKey ours act) : Host.Outcome State Fault Refusal) = .next t ∧
        t.PowerLawful := ⟨_, rfl, h.of_same (s.examineKey_samePower ours ha)⟩
  have text {ours : Nat → Bool} {act : SourceIntake → Nat → State → Option State}
      (ha : ∀ r c t, act r c s = some t → SamePower s t) :
      ∃ t, (.next (s.consumeText ours act) : Host.Outcome State Fault Refusal) = .next t ∧
        t.PowerLawful := ⟨_, rfl, h.of_same (s.consumeText_samePower ours ha)⟩
  have whenRunning {f : State → State} (hf : (f s).PowerLawful) : (s.whenRunning f).PowerLawful := by
    unfold State.whenRunning
    split
    · exact h
    · exact hf
  have running {f : State → State} (hf : (f s).PowerLawful) :
      ∃ t, (.next (s.whenRunning f) : Host.Outcome State Fault Refusal) = .next t ∧ t.PowerLawful :=
    ⟨_, rfl, whenRunning hf⟩
  have quiet {f : State → State} (hf : SamePower s (f s)) := running (h.of_same hf)
  have received {f : State → State} (hf : (f s).PowerLawful) :
      ∃ t, (.next (s.receive f) : Host.Outcome State Fault Refusal) = .next t ∧ t.PowerLawful := by
    refine running ?_
    split
    · exact h.of_same (by simp)
    · exact hf
  cases c with
  | frameSendStart position => exact quiet (by (repeat' split) <;> simp)
  | frameSent outcome => exact quiet (by (repeat' split) <;> simp [State.afterSent_samePower])
  | sendMismatch => exact quiet (by split <;> simp [State.enterConflict])
  | frameCheckFailed | refusedFrame | discardedBroadcast | queryLeftToDictionary =>
    exact received (h.of_same (by split <;> simp))
  | key n c r => exact received ((h.offerKey n c r).of_same (by simp [answered]))
  | text n b => exact received ((h.offerText n b).of_same (by simp [answered]))
  | answer n tag v =>
    refine received (h.of_same ?_)
    simp only [answered]
    split <;> simp [State.offerAnswer_samePower]
  | roll n k a b =>
    refine received (h.of_same ?_)
    dsimp only
    (repeat' split) <;> simp [State.takeRoll_samePower, State.enterConflict]
  | rollWindowClose =>
    refine running ?_
    split
    · exact h.closeRollCall
    · exact h
  | answerExpiry tag => exact quiet (by split <;> simp)
  | returnKey => exact key fun k t => by unfold actReturn; (repeat' split) <;> simp
  | tab => exact key fun _ t => placeTab_keepsPower t
  | backspace => exact key fun k t => by unfold actBackspace; split <;> simp
  | cursorRight => exact key fun k t => by unfold actCursorRight; split <;> simp
  | lineUp => exact key fun k t => by unfold actLineUp; (repeat' split) <;> simp [State.viewTo]
  | lineDown => exact key fun k t => by unfold actLineDown; (repeat' split) <;> simp [State.viewTo]
  | relocate => exact key actRelocate_keepsPower
  | halfSpace => exact key fun k t => by unfold actHalfSpace; split <;> simp
  | space => exact key fun k t => by unfold actSpace; split <;> simp
  | printingCharacter => exact key fun k t => by unfold actCharacter; split <;> simp
  | correct | wordCorrect | spellCorrect => exact key fun _ t => actCorrection_keepsPower _ t
  | marginRelease | clearAllTabs | justify | bold | underline | impression | lineSpacing | spell =>
    exact key fun _ _ => ⟨rfl, rfl⟩
  | setLeftMargin => exact key fun k t => by simp only [actSetLeftMargin]; split <;> simp
  | setRightMargin => exact key fun k t => by simp only [actSetRightMargin]; split <;> simp
  | setTab => exact key fun k t => by simp only [actSetTab]; (repeat' split) <;> simp
  | clearTab => exact key fun k t => by simp only [actClearTab]; split <;> simp
  | hold => exact key fun k t => by unfold actHold; split <;> simp [State.toggleHold]
  | addWord => exact key fun k t => by unfold actAddWord; (repeat' split) <;> simp
  | storeSettings => exact key fun k t => by simp [takeAlways]
  | paperUp | paperDown => exact key (actPaper_keepsPower _)
  | stopJob => exact key actStopJob_keepsPower
  | clear => exact key fun k t => by unfold actClear; split <;> simp
  | tone => exact key fun k t => by simp [takeAlways, State.toggleSilence]
  | textCharacter => exact text fun _ _ _ => textCharacter_samePower
  | textReturn =>
    refine text fun r c t ht => ?_
    split at ht <;> cases ht
    simp
  | textTab | textHalfSpace =>
    refine text fun r c t ht => ?_
    split at ht
    · cases ht
    · exact State.composeText_samePower ht
  | textBold | textUnderline =>
    refine text fun r c t ht => ?_
    cases ht
    unfold State.mapOwnerSource
    split <;> simp
  | jobIdleExpiry n => exact quiet (by dsimp only; (repeat' split) <;> simp)
  | jobClose => exact quiet (by simp)
  | keyboardLapse => exact quiet (by (repeat' split) <;> simp)
  | strikeComplete => exact quiet (by split <;> simp [State.headDone, State.countStrike])
  | liftComplete => exact quiet (by split <;> simp [State.headDone, State.countLift_samePower])
  | moveComplete | feedComplete => exact quiet (by split <;> simp [State.headDone])
  | homingComplete code =>
    refine running ?_
    split
    · next why _ =>
      have home : (s.atHome code).PowerLawful := h.of_same (by simp [State.atHome, State.wheelRead])
      exact (home.homed why).of_same (by simp [State.atHome])
    · exact h
  | wheelReadComplete code => exact quiet (by split <;> simp [State.wheelRead])
  | actionLimitExpiry parts =>
    refine running ?_
    (repeat' split)
    · exact h
    · exact h.secondExpiry _ _
    · exact h.of_same (by simp [State.firstExpiry])
  | coverOpen => exact ⟨_, rfl, h.of_same (by split <;> simp [State.coverOpened])⟩
  | coverClose =>
    refine ⟨_, rfl, h.of_same ?_⟩
    simp only [State.coverClosed]
    (repeat' split) <;> simp
  | ribbonKindChange kind => exact ⟨_, rfl, h.of_same (by split <;> simp)⟩
  | tapeNew => exact ⟨_, rfl, h.of_same (by (repeat' split) <;> simp)⟩
  | messageTimeExpiry | blink | tonePatternEnd => exact quiet ⟨rfl, rfl⟩
  | storeWriteComplete =>
    refine ⟨_, rfl, ?_⟩
    split
    · refine h.of_same ?_
      dsimp only
      (repeat' split) <;> simp [State.load]
    · exact whenRunning (h.of_same (by split <;> simp))
  | supplyWarning =>
    refine running ?_
    split
    · exact h
    · next calm => exact h.supplyWarning calm
  | supplyRecovery =>
    refine running ?_
    split
    · next warned => exact (h.supplyRecovery warned).of_same (by simp)
    · exact h
  | supplyReset | resetAsserted =>
    refine ⟨_, rfl, State.PowerLawful.mapSupply (h.of_same ?_) rfl rfl rfl⟩
    exact ⟨rfl, rfl⟩
  | coldStart straps | lineStart straps =>
    refine ⟨_, rfl, ?_⟩
    split
    · exact h.mapSupply rfl rfl rfl
    · exact State.start_powerLawful _ _ _
  | standbyIdleExpiry =>
    refine ⟨_, rfl, ?_⟩
    split
    · next idle => exact h.enterStandby idle
    · exact h

/-- Settles O60: most commands leave the power state, the hold and the wake mark alone, and each of the
others changes them together. -/
theorem stepKeepsPowerLaws : Obligations.StepKeepsPowerLaws := by
  intro s t h e
  unfold step at e
  split at e
  · cases e; exact h
  · next c rest _ =>
    have h' : ({ s with pending := rest } : State).PowerLawful := h.of_same ⟨rfl, rfl⟩
    obtain ⟨u, run, lawful⟩ := h'.exec c
    cases run.symm.trans e
    exact lawful

end Sys2Proof.Machine

namespace Sys2Proof.Machine

/-! ### The turn of the wheel (R122) -/

/-- A distance up to half a turn is turned forward. -/
theorem wheelTurn_forward {current target : Nat} (near : (target + 96 - current) % 96 ≤ 48) :
    wheelTurn current target = ⟨true, (target + 96 - current) % 96⟩ := if_pos near

/-- A longer distance is turned back, by what is left of the whole turn. -/
theorem wheelTurn_back {current target : Nat} (far : 48 < (target + 96 - current) % 96) :
    wheelTurn current target = ⟨false, 96 - (target + 96 - current) % 96⟩ := if_neg (Nat.not_le.mpr far)

/-- Settles O43: by the direction of the turn. -/
theorem turnGoesTheShorterWay : Obligations.TurnGoesTheShorterWay := by
  intro current target hc ht turn d
  obtain near | far := le_or_gt d 48
  · have forward : turn = ⟨true, d⟩ := wheelTurn_forward near
    simp only [forward]
    refine ⟨fun _ => trivial, fun far => ?_, fun same => ?_, near, nofun, fun _ => ?_, nofun⟩ <;> omega
  · have back : turn = ⟨false, 96 - d⟩ := wheelTurn_back far
    simp only [back]
    refine ⟨fun near => ?_, fun _ => trivial, fun same => ?_, ?_, fun _ => ?_, nofun, fun _ => ?_⟩ <;> omega

end Sys2Proof.Machine

namespace Sys2Proof.Machine

/-! ### A REPORT that tells the tape count (R22, R23, R138) -/

/-- The REPORT that is queued carries the tape count as it stands, and its successors do. -/
def State.TapeTold (s : State) : Prop :=
  ∃ i r, queuedReport s.bus.queue = some (i, r) ∧ r.tape = some s.corr.tape ∧ r.tapeTold = true

theorem State.TapeTold.of_same {s t : State} (h : s.TapeTold) (bus : t.bus = s.bus)
    (corr : t.corr = s.corr) : t.TapeTold := by
  unfold State.TapeTold
  rw [bus, corr]
  exact h

theorem State.buildReport_tapeTold (s : State) {c : ReportCause} (h : c.tape = true)
    (start : Option StartCause) :
    (s.buildReport c start).tape = some s.corr.tape ∧ (s.buildReport c start).tapeTold = true := by
  simp [State.buildReport, h]

/-- A trigger keeps the queued REPORT, or puts one in its place that tells what it told (R23). -/
theorem State.TapeTold.triggerReport {s : State} (h : s.TapeTold) (c : ReportCause) :
    (s.triggerReport c).TapeTold := by
  obtain ⟨i, old, queued, tape, told⟩ := h
  unfold State.triggerReport
  split
  · exact ⟨i, old, queued, tape, told⟩
  · simp only [queued]
    split
    · exact ⟨i, old, queued, tape, told⟩
    · exact ⟨i, _, queuedReport_set queued,
        s.buildReport_tapeTold (by simp [ReportCause.merge, Report.cause, told]) _⟩

theorem State.TapeTold.setMech {s : State} (h : s.TapeTold) (m : MechState) (p : Option PauseCause)
    (n : Option WheelNeed) : (s.setMech m p n).TapeTold := by
  unfold State.setMech State.reportIfChanged
  split
  · exact h.of_same rfl rfl
  · exact State.TapeTold.triggerReport (h.of_same (by rfl) (by rfl)) _

theorem State.TapeTold.examineHead {s : State} (h : s.TapeTold) : s.examineHead.TapeTold := by
  unfold State.examineHead
  split
  · exact h
  · repeat' split
    all_goals exact State.TapeTold.setMech (h.of_same (by rfl) (by rfl)) _ _ _

theorem State.TapeTold.settle {s : State} (h : s.TapeTold) : s.settle.TapeTold := by
  have pumped : s.pump.TapeTold := h.of_same s.pump_bus s.pump_corr
  unfold State.settle
  split
  · exact pumped
  · exact pumped.examineHead

theorem State.TapeTold.setOwner {s : State} (h : s.TapeTold) (o : Owner) : (s.setOwner o).TapeTold :=
  State.TapeTold.triggerReport (h.of_same (by rfl) (by rfl)) _

theorem State.TapeTold.releaseLine {s : State} (h : s.TapeTold) : s.releaseLine.TapeTold := by
  unfold State.releaseLine
  obtain e | ⟨-, o, -, e, -⟩ := (s.setOwner .none).arbitrate_cases <;> rw [e]
  · exact h.setOwner _
  · exact (h.setOwner _).setOwner o

@[simp] theorem State.setTape_corr (s : State) (n : Nat) :
    (s.setTape n).corr = { s.corr with tape := n } := by
  simp only [State.setTape]
  split <;> simp

/-- A fall of the count to 50 or to 0 is told (R138). -/
theorem State.setTape_tells {s : State} {n : Nat}
    (falls : 51 ≤ s.corr.tape ∧ n ≤ 50 ∨ n = 0 ∧ s.corr.tape ≠ 0) (hc : s.bus.conflict = false)
    (none : ∀ f ∈ s.bus.queue, f.isReport = false) :
    (s.setTape n).TapeTold := by
  simp only [State.setTape, if_pos (falls.imp_right Or.inr)]
  rw [State.triggerReport_of_none (by simpa using hc) (by simpa using none)]
  exact ⟨_, _, queuedReport_append none, State.buildReport_tapeTold _ rfl _⟩

theorem State.TapeTold.queued {s : State} (h : s.TapeTold) :
    ∃ r, OutFrame.report r ∈ s.bus.queue ∧ r.tape = some s.corr.tape := by
  obtain ⟨i, r, queued, tape, -⟩ := h
  obtain ⟨before, after, hq, -, -⟩ := queuedReport_some queued
  exact ⟨r, by simp [hq], tape⟩

end Sys2Proof.Machine

namespace Sys2Proof.Machine

/-! ### A LIFT counted (R138, R152) -/

theorem lastLift_iff (line : Word) (id : Nat) (lifts : List LiftRec) : lastLift line id lifts = true ↔
    ∃ r ∈ lifts, (r.line = line ∧ r.entry = id) ∧ r.outstanding = 1 := by
  simp [lastLift]

/-- A line in a Line Store of the same layout. -/
theorem LineStore.find_of_layout {a b : LineStore} (h : a.layout = b.layout) {n : Word} {l : Line}
    (hl : b.find n = some l) : ∃ l', a.find n = some l' ∧ l'.layout = l.layout := by
  have found : (a.find n).map Line.layout = some l.layout := by
    rw [← a.find_layout, h, b.find_layout, hl]
    rfl
  exact Option.map_eq_some_iff.mp found

/-- The end of an ownership leaves the entries of every line. -/
theorem State.releaseLine_find {s : State} {n : Word} {l : Line} (hl : s.lines.find n = some l) :
    ∃ l', s.releaseLine.lines.find n = some l' ∧ l'.entries = l.entries := by
  rw [s.releaseLine_spec]
  unfold LineStore.find at hl ⊢
  split at hl
  · next here => exact ⟨_, if_pos here, by rw [← Option.some.inj hl]⟩
  · next there => exact ⟨l, (if_neg there).trans hl, rfl⟩

/-- The line without a LIFTING entry (R152 step 3). -/
def Line.unlifted (id : Nat) (l : Line) : Line := { l with entries := l.entries.filter (·.id != id) }

theorem State.deleteLifted_find {s : State} {line : Word} {l : Line} (id : Nat)
    (hl : s.lines.find line = some l) : ∃ l', (s.deleteLifted line id).lines.find line = some l' ∧
      l'.entries = l.entries.filter (·.id != id) := by
  have deleted : (s.updateLine line (Line.unlifted id)).lines.find line = some (l.unlifted id) := by
    rw [State.updateLine, State.mapLines_lines, LineStore.find_updateLine fun _ => by rfl, hl,
      Option.map_some, if_pos rfl]
  simp only [State.deleteLifted]
  split
  · exact State.releaseLine_find deleted
  · exact ⟨_, deleted, rfl⟩

/-- A LIFT counted at the Correction Unit, with its entry still in the line (R138, R152 steps 1 and 2). -/
def State.liftCounted (s : State) (b : Blow) : State :=
  ((s.mapCorr fun c => { c with reserved := c.reserved - 1 }).setTape (s.corr.tape - 1)).mapCorr fun c =>
    { c with lifts := liftRecordsAfter b.line b.entry c.lifts }

theorem State.countLift_eq (s : State) (b : Blow) : s.countLift b =
    if lastLift b.line b.entry s.corr.lifts then (s.liftCounted b).deleteLifted b.line b.entry
    else s.liftCounted b := rfl

theorem State.liftCounted_corr (s : State) (b : Blow) : (s.liftCounted b).corr = { s.corr with
    tape := s.corr.tape - 1, reserved := s.corr.reserved - 1
    lifts := liftRecordsAfter b.line b.entry s.corr.lifts } := by simp [State.liftCounted]

theorem State.countLift_corr (s : State) (b : Blow) : (s.countLift b).corr = { s.corr with
    tape := s.corr.tape - 1, reserved := s.corr.reserved - 1
    lifts := liftRecordsAfter b.line b.entry s.corr.lifts } := by
  rw [← s.liftCounted_corr, State.countLift_eq]
  simp only [State.deleteLifted]
  (repeat' split) <;> simp

/-- The count of a LIFT and the deletion of its entry concern neither the sequencer nor the escapement, the
wheel or the keys. -/
theorem State.countLift_rest (s : State) (b : Blow) : (s.countLift b).seq = s.seq ∧
    (s.countLift b).esc = s.esc ∧ (s.countLift b).wheel = s.wheel ∧
    (s.countLift b).intake.keys = s.intake.keys := by
  simp only [State.countLift, State.deleteLifted]
  (repeat' split) <;> simp

theorem State.countLift_tells {s : State} {b : Blow} (falls : s.corr.tape = 51 ∨ s.corr.tape = 1)
    (hc : s.bus.conflict = false) (none : ∀ f ∈ s.bus.queue, f.isReport = false) :
    (s.countLift b).TapeTold := by
  have told : ((s.mapCorr fun c => { c with reserved := c.reserved - 1 }).setTape
      (s.corr.tape - 1)).TapeTold :=
    State.setTape_tells (by simp only [State.mapCorr_corr]; omega) hc none
  obtain ⟨i, r, queued, tape, still⟩ := told
  have counted : (s.liftCounted b).TapeTold := ⟨i, r, queued, tape, still⟩
  rw [State.countLift_eq]
  simp only [State.deleteLifted]
  (repeat' split)
  · exact State.TapeTold.releaseLine (counted.of_same (by rfl) (by rfl))
  · exact counted.of_same rfl rfl
  · exact counted

theorem exec_liftComplete {s : State} {d : Option Drive} {b : Blow} {f : Family} {q : List Action}
    (hr : s.stopped = false) (work : s.seq.work = some (.action d)) (hq : s.seq.queue = .lift b f :: q) :
    exec .liftComplete s =
      .next (((s.headDone b.position (s.seq.petalAfter d)).countLift b).settle) := by
  simp only [exec, execLiftComplete, State.whenRunning_eq hr, work, hq]

/-- Settles O46: the LIFT is counted, its entry deleted with the last one, and the settling leaves the
layout of the lines. -/
theorem liftCompletes : Obligations.LiftCompletes := by
  intro s d b f q hr work hq isRecord last shapes
  let home := s.headDone b.position (s.seq.petalAfter d)
  let u := home.countLift b
  have last_iff : lastLift b.line b.entry home.corr.lifts = true ↔ last := lastLift_iff _ _ _
  have layout : u.settle.lines.layout = u.lines.layout := u.settle_work.lines
  have same {l l' : Line} (h : l'.layout = l.layout) : shapes l' = shapes l := congrArg Line.entries h
  have counted : home.countLift b = _ := home.countLift_eq b
  obtain ⟨seq, esc, wheel, keys⟩ := home.countLift_rest b
  have settled {α : Type} (g : Sequencer → α) := congrArg g u.settle_seq
  refine ⟨u.settle, exec_liftComplete hr work hq, u.settle_corr.trans (home.countLift_corr b),
    fun ends l hl => ?_, fun stays => ?_, fun falls hc none => ?_, ?_,
    (settled (·.carriage)).trans (congrArg (·.carriage) seq),
    (settled (·.petal)).trans (congrArg (·.petal) seq),
    u.settle_esc.trans esc, u.settle_wheel.trans wheel,
    (congrArg (·.keys) u.settle_intake).trans keys⟩
  · have there : (home.liftCounted b).lines.find b.line = some l := by
      simpa [State.liftCounted, home, State.headDone] using hl
    obtain ⟨m, hm, entries⟩ := State.deleteLifted_find b.entry there
    rw [← (counted.trans (if_pos (last_iff.mpr ends)))] at hm
    obtain ⟨l', hl', shaped⟩ := LineStore.find_of_layout layout hm
    have gone : m.entries = l.entries.filter (·.id ≠ b.entry) :=
      entries.trans (List.filter_congr fun e _ => Bool.eq_iff_iff.mpr (by simp))
    exact ⟨l', hl', (same shaped).trans (congrArg (List.map Entry.shape) gone)⟩
  · have lines : u.lines = s.lines := by
      rw [show u = _ from counted.trans (if_neg (mt last_iff.mp stays))]
      simp [State.liftCounted, home, State.headDone]
    rw [lines] at layout
    refine ⟨same (congrArg LineStore.current layout), ?_⟩
    have ring := congrArg (fun ls : LineStore => ls.ring.map (·.entries)) layout
    simpa [LineStore.layout, Line.layout, Function.comp_def] using ring
  · have told : u.settle.TapeTold := State.TapeTold.settle
      (State.countLift_tells (s := home) falls hc (by simpa [home, State.headDone] using none))
    obtain ⟨r, queued, tape⟩ := told.queued
    rw [u.settle_corr, home.countLift_corr b] at tape
    exact ⟨r, queued, tape⟩
  · have actions : u.seq.queue = q := by
      rw [seq]
      simp [home, State.headDone, hq]
    exact actions ▸ u.settle_work.actions

end Sys2Proof.Machine

namespace Sys2Proof.Machine

/-! ### The limit of an action expires (R130, R131) -/

/-- What a first expiry changes (R125, R130). -/
theorem State.firstExpiry_spec (s : State) (w : Work) : s.firstExpiry w = { s with
    seq := { s.seq with retry := true, work := some (.homing (recoveryOf w)), mech := .homing }
    disp := { s.disp with standing := { s.disp.standing with pause := none, wheel := none } }
    bus := { s.bus with
      queue := (s.firstExpiry w).bus.queue, heldReport := (s.firstExpiry w).bus.heldReport } } := by
  unfold State.firstExpiry State.startHoming
  rw [State.setMech_spec]
  rfl

/-- What a halt changes (R131, R188, R189). -/
theorem State.halt_spec (s : State) (c : HaltCause) : s.halt c = { s with
    seq := { s.seq with work := none, haltCause := some c, mech := .halted }
    disp := { s.disp with
      transient := none
      standing := { s.disp.standing with halt := some c, pause := none, wheel := none } }
    bus := { s.bus with queue := (s.halt c).bus.queue, heldReport := (s.halt c).bus.heldReport }
    alert := (s.halt c).alert } := by
  unfold State.halt
  rw [State.requestAlert_congr rfl rfl, State.setMech_spec]
  rfl

/-- A FAULT sounds whatever sounded before, but in STANDBY (R190, R193). -/
theorem State.requestAlert_fault {s : State} (awake : s.supply.power ≠ .standby) :
    (s.requestAlert .fault).alert.current = some .fault := by
  have machine : s.machine ≠ .standby := mt s.machine_eq_standby.mp awake
  simp only [State.requestAlert, if_neg machine]
  split
  · next silenced => simp at silenced
  · split
    · rfl
    · next c sounds => cases c <;> simp [Alert.severity, sounds]

theorem State.halt_fault {s : State} (c : HaltCause) (awake : s.supply.power ≠ .standby) :
    (s.halt c).alert.current = some .fault :=
  State.requestAlert_fault (by simpa using awake)

/-- What is told of a homing that halts leaves the mechanism, the lines, the tape, the halt shown and the tone
(R201, R202). -/
theorem State.homingHalted_spec (s : State) (why : HomingWhy) : s.homingHalted why = { s with
    bus := { s.bus with
      queue := (s.homingHalted why).bus.queue, heldReport := (s.homingHalted why).bus.heldReport }
    supply := (s.homingHalted why).supply
    disp := { s.disp with
      panel := (s.homingHalted why).disp.panel, lit := (s.homingHalted why).disp.lit } } := by
  cases why with
  | start =>
    unfold State.homingHalted
    rw [State.leaveStarting_spec]
    rfl
  | wake =>
    unfold State.homingHalted
    dsimp only
    rw [s.endWake_spec]
  | recovery | clear => rfl

/-- What Supply and Standby makes of a homing that halts (R201, R202). -/
theorem State.homingHalted_supply (s : State) (why : HomingWhy) :
    (why = .start → (s.homingHalted why).supply.homingDone = true) ∧
    (why = .wake → s.supply.power = .standby →
      (s.homingHalted why).supply = { s.supply with power := .run, wakeMark := false }) ∧
    (why ≠ .start → why ≠ .wake → (s.homingHalted why).supply = s.supply) := by
  cases why with
  | start =>
    refine ⟨fun _ => ?_, nofun, fun k => absurd rfl k⟩
    unfold State.homingHalted
    rw [State.leaveStarting_spec]
    rfl
  | wake => exact ⟨nofun, fun _ standby => State.endWake_supply standby, fun _ k => absurd rfl k⟩
  | recovery | clear => exact ⟨nofun, nofun, fun _ _ => rfl⟩

/-- The state halted by a second expiry, before Supply and Standby is told (R131). -/
def State.expiryHalted (s : State) (w : Work) (parts : Unsettled) : State :=
  s.halt (haltCauseOf w s.seq.queue.head? parts)

/-- Beyond the halt, a second expiry changes what Supply and Standby is told of a homing (R131). -/
theorem State.secondExpiry_spec (s : State) (w : Work) (parts : Unsettled) :
    s.secondExpiry w parts = { s.expiryHalted w parts with
      bus := { (s.expiryHalted w parts).bus with
        queue := (s.secondExpiry w parts).bus.queue, heldReport := (s.secondExpiry w parts).bus.heldReport }
      supply := (s.secondExpiry w parts).supply
      disp := { (s.expiryHalted w parts).disp with
        panel := (s.secondExpiry w parts).disp.panel, lit := (s.secondExpiry w parts).disp.lit } } := by
  cases w with
  | homing why => exact (s.expiryHalted (.homing why) parts).homingHalted_spec why
  | action d => rfl
  | wheelRead => rfl

theorem State.secondExpiry_supply (s : State) (w : Work) (parts : Unsettled) :
    (w = .homing .start → (s.secondExpiry w parts).supply.homingDone = true) ∧
    (w = .homing .wake → s.supply.power = .standby →
      (s.secondExpiry w parts).supply = { s.supply with power := .run, wakeMark := false }) ∧
    (w ≠ .homing .start → w ≠ .homing .wake → (s.secondExpiry w parts).supply = s.supply) := by
  have halted : (s.expiryHalted w parts).supply = s.supply := by rw [State.expiryHalted, State.halt_spec]
  cases w with
  | homing why =>
    have told := (s.expiryHalted (.homing why) parts).homingHalted_supply why
    rw [halted] at told
    have tells : s.secondExpiry (.homing why) parts =
        (s.expiryHalted (.homing why) parts).homingHalted why := rfl
    simpa only [tells, Work.homing.injEq, ne_eq] using told
  | action d => exact ⟨nofun, nofun, fun _ _ => halted⟩
  | wheelRead => exact ⟨nofun, nofun, fun _ _ => halted⟩

theorem exec_actionLimitExpiry {s : State} {w : Work} (hr : s.stopped = false) (work : s.seq.work = some w)
    (parts : Unsettled) : exec (.actionLimitExpiry parts) s =
      .next (if s.seq.retry then s.secondExpiry w parts else s.firstExpiry w) := by
  simp only [exec, execActionLimitExpiry, State.whenRunning_eq hr, work]

/-- Settles O48: the first expiry starts a homing, and the second is a halt, with what a homing that halts
tells Supply and Standby. -/
theorem actionLimitExpires : Obligations.ActionLimitExpires := by
  intro s w parts hr work cause again
  have run := exec_actionLimitExpiry hr work parts
  refine ⟨fun first => ?_, fun second busy => ?_⟩
  · rw [first] at run
    have fields {α : Type} (g : State → α) := congrArg g (s.firstExpiry_spec w)
    have purpose : recoveryOf w = again := by cases w <;> rfl
    rw [purpose] at fields
    exact ⟨_, run, fields State.seq, fields State.lines, fields State.corr, fields State.alert,
      fields State.supply, fields (·.disp.transient)⟩
  · rw [second] at run
    have due : haltCauseOf w s.seq.queue.head? parts = cause := by
      cases w with
      | homing why => rfl
      | wheelRead => rfl
      | action d =>
        have queued : s.seq.queue ≠ [] := busy.resolve_right fun k => k d rfl
        cases hq : s.seq.queue with
        | nil => exact absurd hq queued
        | cons a q => cases a <;> simp [cause, haltCauseOf, hq]
    have told {α : Type} (g : State → α) := congrArg g (s.secondExpiry_spec w parts)
    have halted {α : Type} (g : State → α) : g (s.expiryHalted w parts) = _ := congrArg g (s.halt_spec _)
    rw [due] at halted
    obtain ⟨start, wake, others⟩ := s.secondExpiry_supply w parts
    exact ⟨_, run, (told State.seq).trans (halted State.seq), (told State.lines).trans (halted State.lines),
      (told State.corr).trans (halted State.corr),
      (told (·.disp.standing.halt)).trans (halted (·.disp.standing.halt)),
      (told (·.disp.transient)).trans (halted (·.disp.transient)),
      fun awake => (told (·.alert.current)).trans (State.halt_fault _ awake), start, wake, others⟩

end Sys2Proof.Machine
